-- ==== Sys2Proof/Word.lean ====
section
/-! DEFINITION. Words, bytes and the sparse-map type that the device's state is built from. -/

namespace Sys2Proof

/-- One byte. -/
abbrev Byte := BitVec 8

/-- A 32-bit register word. -/
abbrev Word := BitVec 32

/-- A 64-bit value. -/
abbrev DWord := BitVec 64

/-- A sparse array: key and value pairs, keys strictly rising, and no entry equal to what an
unlisted key reads as. The operations on it are in Machine/Map.lean. -/
abbrev SMap (α : Type) := List (Nat × α)

end Sys2Proof
end

