-- ==== Sys2Proof/Syntax.lean ====
section
/-! DEFINITION. The commands of the block: one constructor of `Instr` per row of the opcode table, with
the operands of that row. Register commands name the function that makes the access; engine commands
name the command record that the engine runs; events carry what their environment supplies. -/

namespace Sys2Proof

/-- Who makes a register access (R624, R625, R618): the physical function, Spenor, the management bus,
or virtual function `p + 1`, named by its partition `p`. -/
inductive Fn where
  | pf
  | spenor
  | smb
  | vf (p : Fin 64)
deriving DecidableEq, Repr, Inhabited

/-- For whom a request is made (R180): a partition, or the device. -/
inductive Owner where
  | part (p : Fin 64)
  | dev
deriving DecidableEq, Repr

/-- A dispatched command record: its partition (64 stands for the physical function's own queues), its
local queue, the number of its ring entry (the value of HEAD that names it) and its index in the buffer. -/
structure RecRef where
  part : Fin 65
  queue : Fin 16
  entry : BitVec 17
  index : BitVec 16
deriving DecidableEq, Repr, Inhabited

/-- What the boot ROM finds in one flash image (R579, R580): the header fields, and whether the SHA-384
of the public key equals the fused hash of the slot and the ECDSA check of the body passes. -/
structure ImageRead where
  magic : BitVec 32
  version : BitVec 32
  keySlot : BitVec 8
  length : BitVec 32
  keyHashOk : Bool
  sigOk : Bool
deriving DecidableEq, Repr

/-- The end of one cold-start phase (R584), with what the phase found; `blown`: the fuses of an operation that a reset
cut short had been blown (R562). DESIGN CHOICE: assumption 132. -/
inductive BootReport where
  | pll
  | fuse (readOk auditOk blown : Bool)
  | image (a b : ImageRead)
  | keys (entropyOk : Bool)
  | cellar (trainedOk : Bool)
  | sram (failedRows : List (Fin 65536 × Fin 1024))
deriving DecidableEq, Repr

/-- The sources of a warm reset (R35, R589, R391). -/
inductive WarmSource where
  | pin
  | perst
  | glb
  | flood
deriving DecidableEq, Repr

/-- The sidebands that the filter watches (R553, R613). -/
inductive Sideband where
  | stallN (n : Fin 4)
  | trstN
  | tickIn
  | perstN
  | warmResetN
  | sysResetN
deriving DecidableEq, Repr

/-- A request at a bank's NoC port (R177, R180): for whom, for which command, under which master of the
conflict counters (R205), at which device address. -/
structure NocReq where
  owner : Owner
  ref : Option RecRef
  master : Fin 8
  addr : BitVec 64
deriving DecidableEq, Repr

/-- The arrival increment a write carries (R201). -/
structure ArrInc where
  vid : BitVec 12
  amount : BitVec 16
deriving DecidableEq, Repr

/-- What a NoC-port request does (R177): a read of some bytes, or a write with its arrival increment. -/
inductive NocOp where
  | read (len : Nat)
  | write (data : List Byte) (inc : Option ArrInc)
deriving DecidableEq, Repr

/-- The tagged access types (R195). -/
inductive TagOp where
  | write (data : List Byte)
  | read
  | peek
  | fill (data : List Byte)
deriving DecidableEq, Repr

/-- The status of a PCIe completion (R577). -/
inductive CplStatus where
  | ok
  | poisoned
  | unsupported
  | aborted
deriving DecidableEq, Repr

/-- The code of a page request response (R228). -/
inductive PageCode where
  | success
  | invalid
  | failure
deriving DecidableEq, Repr

/-- One flit on a link (R355, R356): the header, the body bytes and the flit's CRC-32. -/
structure Flit where
  header : BitVec 64
  body : List Byte
  crc : BitVec 32
deriving DecidableEq, Repr

/-- An instance of the queue primitive (R249): a command slot, a mover channel, a link receive queue, a
link replay buffer, one of the stage engine's five queues, the micro-batch ledger, a collective engine
queue, a partition's ingest ring, or a sync block's input queue. -/
inductive QInst where
  | slot (n : Fin 128)
  | mover (n : Fin 512)
  | link (n : Fin 16)
  | replay (n : Fin 16)
  | stg (n : Fin 5)
  | ledger
  | coll (n : Fin 32)
  | ingest (n : Fin 64)
  | sync (n : Fin 64)
deriving DecidableEq, Repr

/-- An engine instance that steps (R150–R157): a tile, the cluster's vector engine, or the compare-and-count unit
of one of its banks. -/
inductive GangUnit where
  | tile (t : Fin 16)
  | vec
  | cmp (b : Fin 1024)
deriving DecidableEq, Repr

/-- The cycles that a tile waited before a pass, by the condition of R99 that failed first (R102), and those since its
last pass in which pulp bits entered its row 0 (R122) and which no activity step or expiry of a hold has counted. -/
structure PassWaits where
  a : Nat
  b : Nat
  c : Nat
  d : Nat
  pulp : Nat
deriving DecidableEq, Repr

/-- What the corrected read of a Sloe row test finds (R549), with the word of the row (R547 step 1). -/
inductive SloeRead where
  | clean
  | corrected (word : Fin 16)
  | bad (word : Fin 16)
deriving DecidableEq, Repr

/-- A Sloe row test's readings (R547): the read of step 1, and the bits that differ in the two raw reads. -/
structure SloeFind where
  step1 : SloeRead
  d55 : BitVec 1024
  dAA : BitVec 1024
deriving DecidableEq, Repr

/-- What the patrol's read of a cellar unit finds (R550, R551). -/
inductive PatrolRead where
  | clean
  | corrected
  | bad
deriving DecidableEq, Repr

/-- Where a transaction waits whose watchdog may expire (R555): request `i` of those held at banks and tiers, a mover
channel, the head of a slot half, or a SELF_SUBMIT toward a full ring. -/
inductive WdogAt where
  | held (i : Nat)
  | chan (n : Fin 512)
  | half (p : Fin 65) (hot half : Bool)
  | submit (r : RecRef)
deriving DecidableEq, Repr

/-- The width of a register access (R631). -/
inductive Width where
  | w8
  | w16
  | w32
  | w64
deriving DecidableEq, Repr

/-- The bytes of an access. -/
def Width.bytes : Width → Nat
  | .w8 => 1
  | .w16 => 2
  | .w32 => 4
  | .w64 => 8

/-- The IEEE 1149.1 instructions (R615). -/
inductive TapInstr where
  | bypass | idcode | sample | extest | clamp | highz
deriving DecidableEq, Repr

/-- The commands: one constructor per row of the opcode table. -/
inductive Instr where
  /-- COLD_RESET (R35). -/
  | coldReset
  /-- COLD_START (R584). -/
  | coldStart (bootMode : BitVec 2) (slotId : BitVec 6)
  /-- BOOT_PHASE_DONE (R584). -/
  | bootPhaseDone (x : BootReport)
  /-- WARM_RESET (R587). -/
  | warmReset (copy a b : ImageRead) (blown : Bool)
  /-- WARM_RESET_PIN (R35). -/
  | warmResetPin
  /-- PERST_ASSERT (R586). -/
  | perstAssert
  /-- GLB_WARM_RESET (R589). -/
  | glbWarmReset (f : Fn) (key : BitVec 8)
  /-- STAGE_MODE_REQUEST (R308). -/
  | stageModeRequest (f : Fn)
  /-- PARTITIONED_MODE_REQUEST (R310). -/
  | partitionedModeRequest (f : Fn)
  /-- TENANCY_LOCK (R532). -/
  | tenancyLock (f : Fn)
  /-- REGISTER_WRITE (R630). -/
  | registerWrite (f : Fn) (offset : BitVec 26) (w : Width) (v : BitVec 64)
  /-- REGISTER_PAIR_READ (R632). -/
  | registerPairRead (f : Fn) (offset : BitVec 26) (w : Width)
  /-- ERR_LOG_READ (R554). -/
  | errLogRead (f : Fn) (page : BitVec 14)
  /-- STAGE_COMMIT (R637). -/
  | stageCommit (f : Fn) (page : BitVec 14)
  /-- STAGE_DISCARD (R639). -/
  | stageDiscard (f : Fn) (page : BitVec 14)
  /-- COMMIT_APPLY (R638). -/
  | commitApply (page : BitVec 14) (g : BitVec 6)
  /-- INT_FORCE (R641). -/
  | intForce (f : Fn) (page : BitVec 14) (bits : Word)
  /-- DISPATCH_RECORD (R461). -/
  | dispatchRecord (p : Fin 65) (hot half : Bool)
  /-- RECORD_COMPLETE (R461). -/
  | recordComplete (r : RecRef)
  /-- NOP (R464). -/
  | nop (r : RecRef)
  /-- SELF_SUBMIT (R479). -/
  | selfSubmit (r : RecRef)
  /-- TIMESTAMP (R464). -/
  | timestamp (r : RecRef)
  /-- DOORBELL (R478). -/
  | doorbell (f : Fn) (p : Fin 65) (q : Fin 16) (v : Word)
  /-- RING_ENTRY_FETCH (R483). -/
  | ringEntryFetch (p : Fin 65) (hot half : Bool) (hostEntry : BitVec 512) (hostRecs : List (BitVec 512))
  /-- HALF_RELEASE (R485). -/
  | halfRelease (p : Fin 65) (hot : Bool)
  /-- COMMAND_FAULT (R486). -/
  | commandFault (r : RecRef)
  /-- QUEUE_CREATE (R492). -/
  | queueCreate (f : Fn) (p : Fin 65) (q : Fin 16)
  /-- QUEUE_DESTROY (R494). -/
  | queueDestroy (f : Fn) (p : Fin 65) (q : Fin 16)
  /-- QUEUE_RESUME (R493). -/
  | queueResume (f : Fn) (p : Fin 65) (q : Fin 16)
  /-- MATMUL (R137). -/
  | matmul (r : RecRef)
  /-- CONV (R106). -/
  | convOp (r : RecRef)
  /-- ATT_QK (R137). -/
  | attQk (r : RecRef)
  /-- ATT_PV (R137). -/
  | attPv (r : RecRef)
  /-- VEC_MAP (R141). -/
  | vecMap (r : RecRef)
  /-- VEC_REDUCE (R142). -/
  | vecReduce (r : RecRef)
  /-- VEC_NORM (R142). -/
  | vecNorm (r : RecRef)
  /-- VEC_SOFTMAX (R142). -/
  | vecSoftmax (r : RecRef)
  /-- VEC_CONVERT (R143). -/
  | vecConvert (r : RecRef)
  /-- VEC_RANDOM (R144). -/
  | vecRandom (r : RecRef)
  /-- CMP_COUNT (R145). -/
  | cmpCount (r : RecRef)
  /-- PASS_ISSUE (R99). -/
  | passIssue (c : Fin 64) (t : Fin 16) (w : PassWaits)
  /-- ACTIVITY_STEP (R120). -/
  | activityStep (c : Fin 64) (t : Fin 16)
  /-- PULP_HOLD_EXPIRY (R121). -/
  | pulpHoldExpiry (c : Fin 64) (t : Fin 16)
  /-- STEP_COMMIT (R155). -/
  | stepCommit (c : Fin 64) (u : GangUnit)
  /-- STEP_RESTART (R157). -/
  | stepRestart (c : Fin 64) (u : GangUnit) (drain : Bool)
  /-- BARRIER_ARRIVE (R114). -/
  | barrierArrive (c : Fin 64)
  /-- BARRIER_CLOSE (R114). -/
  | barrierClose (p : Fin 64) (cycles : Nat)
  /-- GANG_TIMEOUT (R117). -/
  | gangTimeout (p : Fin 64)
  /-- PARK (R163). -/
  | park (p : Fin 64)
  /-- PARKED_RESUME (R164). -/
  | parkedResume (p : Fin 64) (cycles : Nat)
  /-- NOC_READ (R178). -/
  | nocRead (q : NocReq) (n waited : Nat)
  /-- NOC_WRITE (R178). -/
  | nocWrite (q : NocReq) (data : List Byte) (inc : Option ArrInc) (tierBusy : Bool) (waited : Nat)
  /-- COLLIDE_RETRY (R179). -/
  | collideRetry (id : Nat) (tierBusy : Bool)
  /-- ARRIVAL_INCREMENT (R201). -/
  | arrivalIncrement (id : Nat)
  /-- SYNC_ADD_APPLY (R293). -/
  | syncAddApply (c : Fin 64)
  /-- BOT_ENTRY_WRITE (R185). -/
  | botEntryWrite (f : Fn) (c : Fin 64) (w : Fin 512) (wide : Bool) (v : BitVec 64)
  /-- HANDOVER_UNPEND (R187). -/
  | handoverUnpend (b : Fin 65536)
  /-- WIPE_START (R188). -/
  | wipeStart (c : Fin 64) (t : Fin 16) (tier : Fin 4)
  /-- WIPE_DONE (R187). -/
  | wipeDone (c : Fin 64) (t : Fin 16) (tier : Fin 4)
  /-- BANK_RELEASE (R191). -/
  | bankRelease (f : Fn) (p : Fin 64) (v : Word)
  /-- RETENTION_ENTER (R206). -/
  | retentionEnter (r : Fin 16) (tier : Fin 4)
  /-- RETENTION_WAKE (R207). -/
  | retentionWake (q : NocReq) (op : NocOp)
  /-- RETENTION_WAKE_DONE (R206). -/
  | retentionWakeDone (r : Fin 16) (tier : Fin 4)
  /-- ROW_MAPOUT (R174). -/
  | rowMapout (b : Fin 65536) (row : Fin 1024)
  /-- TAG_WRITE (R195). -/
  | tagWrite (q : NocReq) (data : List Byte)
  /-- TAG_READ (R195). -/
  | tagRead (q : NocReq)
  /-- TAG_PEEK (R195). -/
  | tagPeek (q : NocReq)
  /-- TAG_FILL (R195). -/
  | tagFill (q : NocReq) (data : List Byte)
  /-- TAG_BUSY_RETRY (R197). -/
  | tagBusyRetry (id : Nat)
  /-- TAG_TIMEOUT (R198). -/
  | tagTimeout (id : Nat)
  /-- TAG_CLR (R199). -/
  | tagClr (f : Fn) (c : Fin 64) (v : Word)
  /-- PTE_WRITE (R221). -/
  | pteWrite (f : Fn) (v : Word)
  /-- PAGE_SCRUB_DONE (R222). -/
  | pageScrubDone (p : Fin 64) (vpn : Fin 32768)
  /-- PTE_UNMAP_DONE (R223). -/
  | pteUnmapDone (p : Fin 64) (vpn : Fin 32768)
  /-- CEL_MISS_READ (R225). -/
  | celMissRead (f : Fn)
  /-- CEL_RESUME_RETRY (R225). -/
  | celResumeRetry (f : Fn) (ch : Fin 512)
  /-- CEL_RESUME_FAIL (R225). -/
  | celResumeFail (f : Fn) (ch : Fin 512)
  /-- CELLAR_MISS_TIMEOUT (R225). -/
  | cellarMissTimeout (ch : Fin 512)
  /-- PAGE_RESPONSE (R228). -/
  | pageResponse (prg : Fin 512) (code : PageCode)
  /-- PAGE_REQUEST_TIMEOUT (R228). -/
  | pageRequestTimeout (prg : Fin 512)
  /-- ATS_INVALIDATION (R229). -/
  | atsInvalidation (f : Fin 65) (tag : BitVec 5) (page n : Nat)
  /-- HOST_READ_COMPLETION (R577). -/
  | hostReadCompletion (id : Nat) (status : CplStatus) (data : List Byte)
  /-- HOST_COMPLETION_TIMEOUT (R577). -/
  | hostCompletionTimeout (id : Nat)
  /-- COPY (R235). -/
  | copyOp (r : RecRef)
  /-- FILL (R235). -/
  | fillOp (r : RecRef)
  /-- SKEW (R239). -/
  | skew (r : RecRef)
  /-- PACK (R240). -/
  | packOp (r : RecRef)
  /-- UNPACK (R241). -/
  | unpackOp (r : RecRef)
  /-- MOVER_CHUNK_DONE (R235). -/
  | moverChunkDone (n : Fin 512) (hostOk collide : Bool)
  /-- QUEUE_WRITE (R255). -/
  | queueWrite (q : QInst) (data : List Byte) (eoi : Bool)
  /-- QUEUE_READ (R251). -/
  | queueRead (q : QInst)
  /-- QUEUE_PTR_MISMATCH (R268). -/
  | queuePtrMismatch (q : QInst)
  /-- QUEUE_FLUSH (R271). -/
  | queueFlush (f : Fn) (q : QInst) (v : Word)
  /-- SIGNAL (R280). -/
  | signalOp (r : RecRef)
  /-- WAIT (R280). -/
  | waitOp (r : RecRef)
  /-- ARRIVE (R280). -/
  | arrive (r : RecRef)
  /-- SET (R280). -/
  | setOp (r : RecRef)
  /-- WAIT_BUSY_RETRY (R289). -/
  | waitBusyRetry (r : RecRef)
  /-- WAIT_TIMEOUT (R291). -/
  | waitTimeout (r : RecRef)
  /-- SYNC_SIGNAL (R298). -/
  | syncSignal (f : Fn) (p : Fin 64) (v : Word)
  /-- VMAP_WRITE (R284). -/
  | vmapWrite (f : Fn) (p : Fin 64) (v : Word)
  /-- BRAMBLE_WINDOW (R300). -/
  | brambleWindow (p : Fin 64)
  /-- BRAMBLE_SNAPSHOT_DONE (R301). -/
  | brambleSnapshotDone (p : Fin 64)
  /-- STAGE_FEED (R320). -/
  | stageFeed (r : RecRef)
  /-- CRIT_ENTER (R341). -/
  | critEnter (r : RecRef)
  /-- CRIT_EXIT (R342). -/
  | critExit (r : RecRef)
  /-- STEP_BEGIN (R340). -/
  | stepBegin
  /-- UPDATE_INVOKE (R340). -/
  | updateInvoke
  /-- STEP_BOUNDARY (R343). -/
  | stepBoundary
  /-- ADMISSION (R337). -/
  | admission
  /-- STAGE_DISPATCH (R331). -/
  | stageDispatch
  /-- INVOCATION_DONE (R325). -/
  | invocationDone
  /-- CAPTURE_ITEM (R323). -/
  | captureItem (q : Fin 5)
  /-- SEND_GRANULE (R318). -/
  | sendGranule (d : Fin 2)
  /-- SPILL_START (R333). -/
  | spillStart
  /-- SPILL_DONE (R325). -/
  | spillDone
  /-- PREFETCH_START (R334). -/
  | prefetchStart
  /-- PREFETCH_DONE (R334). -/
  | prefetchDone
  /-- JOB_FAULT (R345). -/
  | jobFault
  /-- STG_FAULT_CLR (R347). -/
  | stgFaultClr (f : Fn) (v : Word)
  /-- STEP_GO (R348). -/
  | stepGo (f : Fn) (v : Word)
  /-- FLIT_RECEIVE (R357). -/
  | flitReceive (l : Fin 16) (f : Flit) (fecCorr : Nat) (fecBad : Bool)
  /-- NAK_RECEIVE (R369). -/
  | nakReceive (l : Fin 16) (seq : BitVec 12)
  /-- REPLAY_TIMEOUT (R369). -/
  | replayTimeout (l : Fin 16)
  /-- LINK_LOCK_LOSS (R370). -/
  | linkLockLoss (l : Fin 16)
  /-- RESYNC_REQUEST (R387). -/
  | resyncRequest (l : Fin 16)
  /-- RESYNC_REPLY (R387). -/
  | resyncReply (l : Fin 16) (last : Option (BitVec 12))
  /-- RESYNC_TIMEOUT (R388). -/
  | resyncTimeout (p : Fin 6)
  /-- WRITE_PACKET (R361). -/
  | writePacket (p : Fin 7) (vc : BitVec 3) (refused : Fin 5)
  /-- WRITE_INC_PACKET (R361). -/
  | writeIncPacket (p : Fin 7) (vc : BitVec 3) (refused : Fin 5)
  /-- ARRIVE_PACKET (R297). -/
  | arrivePacket (p : Fin 7) (vc : BitVec 3)
  /-- CMPL_PACKET (R362). -/
  | cmplPacket (p : Fin 7) (vc : BitVec 3)
  /-- STAGE_PACKET (R363). -/
  | stagePacket (p : Fin 7) (vc : BitVec 3)
  /-- CREDIT_PACKET (R363). -/
  | creditPacket (p : Fin 7) (vc : BitVec 3)
  /-- TRANSIT_FORWARD (R375). -/
  | transitForward (p : Fin 7) (vc : BitVec 3)
  /-- LINK_TRAIN_START (R383). -/
  | linkTrainStart (l : Fin 16)
  /-- PHY_TRAIN_DONE (R383). -/
  | phyTrainDone (l : Fin 16)
  /-- FEC_LOCK (R383). -/
  | fecLock (l : Fin 16)
  /-- TRAIN (R383). -/
  | train (l : Fin 16) (epoch : BitVec 8)
  /-- IDENT (R380). -/
  | ident (l : Fin 16) (serial : BitVec 64) (phys : BitVec 14) (port : BitVec 4) (logical : BitVec 14) (dir : BitVec 3)
  /-- IDENT_SEND_TIMER (R380). -/
  | identSendTimer (l : Fin 16)
  /-- QUINCE_JUDGE (R381). -/
  | quinceJudge (l : Fin 16)
  /-- DOWN_RETRAIN (R383). -/
  | downRetrain (l : Fin 16)
  /-- LNK_RETRAIN (R382). -/
  | lnkRetrain (f : Fn) (l : Fin 16) (v : Word)
  /-- FLOOD_RESET (R391). -/
  | floodReset (l : Fin 16) (origin : BitVec 14) (ident : BitVec 16) (step : BitVec 64)
  /-- FLOOD_JOB_FAULT (R391). -/
  | floodJobFault (l : Fin 16) (origin : BitVec 14) (ident : BitVec 16) (step : BitVec 64)
  /-- ALL_REDUCE (R402). -/
  | allReduce (r : RecRef)
  /-- REDUCE_SCATTER (R403). -/
  | reduceScatter (r : RecRef)
  /-- ALL_GATHER (R403). -/
  | allGather (r : RecRef)
  /-- BROADCAST (R399). -/
  | broadcast (r : RecRef)
  /-- BARRIER (R399). -/
  | barrier (r : RecRef)
  /-- SNAPSHOT (R429). -/
  | snapshot (r : RecRef)
  /-- UP_DATA (R409). -/
  | upData (p : Fin 7) (vc : BitVec 3)
  /-- UP_END (R407). -/
  | upEnd (p : Fin 7) (vc : BitVec 3)
  /-- DOWN_DATA (R403). -/
  | downData (p : Fin 7) (vc : BitVec 3)
  /-- DOWN_END (R405). -/
  | downEnd (p : Fin 7) (vc : BitVec 3)
  /-- CLOSE_TIME (R409). -/
  | closeTime (n : Fin 16)
  /-- REFUSE (R411). -/
  | refuse (p : Fin 7) (vc : BitVec 3)
  /-- LATE_REQ (R412). -/
  | lateReq (p : Fin 7) (vc : BitVec 3)
  /-- LATE_DATA (R412). -/
  | lateData (p : Fin 7) (vc : BitVec 3)
  /-- LATE_LOST (R412). -/
  | lateLost (p : Fin 7) (vc : BitVec 3)
  /-- TORN (R415). -/
  | torn (p : Fin 7) (vc : BitVec 3)
  /-- COLLECTIVE_TIMEOUT (R417). -/
  | collectiveTimeout (n : Fin 16)
  /-- VERDICT_UP (R420). -/
  | verdictUp (p : Fin 7) (vc : BitVec 3)
  /-- VERDICT_DOWN (R423). -/
  | verdictDown (p : Fin 7) (vc : BitVec 3)
  /-- BARRIER_UP (R399). -/
  | barrierUp (p : Fin 7) (vc : BitVec 3)
  /-- BARRIER_DOWN (R399). -/
  | barrierDown (p : Fin 7) (vc : BitVec 3)
  /-- MARKER (R429). -/
  | marker (p : Fin 7) (vc : BitVec 3)
  /-- SHARD_DATA (R442). -/
  | shardData (p : Fin 7) (vc : BitVec 3)
  /-- SHARD_END (R442). -/
  | shardEnd (p : Fin 7) (vc : BitVec 3)
  /-- CKPT_ACK (R445). -/
  | ckptAck (p : Fin 7) (vc : BitVec 3)
  /-- CKPT_NAK (R443). -/
  | ckptNak (p : Fin 7) (vc : BitVec 3)
  /-- SHARD_ACK_TIMEOUT (R443). -/
  | shardAckTimeout (n : Fin 131072)
  /-- ABANDON (R446). -/
  | abandon (p : Fin 7) (vc : BitVec 3)
  /-- PULL_REQ (R448). -/
  | pullReq (p : Fin 7) (vc : BitVec 3)
  /-- PULL_DATA (R448). -/
  | pullData (p : Fin 7) (vc : BitVec 3)
  /-- PULL_END (R448). -/
  | pullEnd (p : Fin 7) (vc : BitVec 3)
  /-- RESTORE_TIMEOUT (R449). -/
  | restoreTimeout (b : Bool)
  /-- CKPT_TAKE (R436). -/
  | ckptTake (f : Fn) (v : Word)
  /-- CKPT_FULL (R438). -/
  | ckptFull (f : Fn) (v : Word)
  /-- CKPT_RESTORE (R448). -/
  | ckptRestore (f : Fn) (v : Word)
  /-- PART_CONFIGURE (R501). -/
  | partConfigure (f : Fn) (p : Fin 64)
  /-- PART_UNCONFIGURE (R502). -/
  | partUnconfigure (f : Fn) (p : Fin 64)
  /-- PART_RESET (R530). -/
  | partReset (f : Fn) (p : Fin 64)
  /-- VF_FLR (R571). -/
  | vfFlr (p : Fin 64)
  /-- VF_ENABLE_CHANGE (R570). -/
  | vfEnableChange (on : Bool) (n : BitVec 16)
  /-- CLUSTER_TAKE (R503). -/
  | clusterTake (f : Fn) (p c : Fin 64)
  /-- CLUSTER_RETURN (R503). -/
  | clusterReturn (f : Fn) (p c : Fin 64)
  /-- CLUSTER_MOVE (R503). -/
  | clusterMove (f : Fn) (p c exp : Fin 64)
  /-- CLUSTER_OP_DONE (R504). -/
  | clusterOpDone (p : Fin 64)
  /-- REGULATOR_REFILL (R508). -/
  | regulatorRefill
  /-- CTX_CREATE (R514). -/
  | ctxCreate (f : Fn) (p : Fin 64)
  /-- CTX_DESTROY (R523). -/
  | ctxDestroy (f : Fn) (p : Fin 64)
  /-- CTX_SUSPEND (R523). -/
  | ctxSuspend (f : Fn) (p : Fin 64)
  /-- CTX_RESUME (R523). -/
  | ctxResume (f : Fn) (p : Fin 64)
  /-- QUANTUM_EXPIRY (R516). -/
  | quantumExpiry (p : Fin 64)
  /-- CONTEXT_YIELD (R516). -/
  | contextYield (p : Fin 64)
  /-- CTX_SAVE_DONE (R518). -/
  | ctxSaveDone (p : Fin 64)
  /-- CTX_RESTORE_DONE (R520). -/
  | ctxRestoreDone (p : Fin 64)
  /-- INGEST_POST (R527). -/
  | ingestPost (f : Fn) (p : Fin 64) (v : Word)
  /-- INGEST_LANDED (R527). -/
  | ingestLanded (p : Fin 64)
  /-- ERR_FIRST_CLR (R541). -/
  | errFirstClr (f : Fn)
  /-- ERR_POP (R539). -/
  | errPop (f : Fn)
  /-- SLOE_ROW_TEST (R547). -/
  | sloeRowTest (ahead : Option (Fin 65536 × Fin 1024)) (found : List (Fin 65536 × SloeFind))
  /-- SLOE_PATROL (R550). -/
  | sloePatrol (x : PatrolRead)
  /-- TRANSACTION_WATCHDOG (R555). -/
  | transactionWatchdog (w : WdogAt)
  /-- CANARY_MEASURE (R560). -/
  | canaryMeasure (r : Fin 16) (slacks : List (Option (BitVec 11))) (drifts : List (Option (BitVec 16)))
  /-- REPLAN (R558). -/
  | replan (r : Fin 16) (kv guard : BitVec 16)
  /-- REGION_FREQ_APPLY (R559). -/
  | regionFreqApply (r : Fin 16)
  /-- FUSE_BLOW_DONE (R562). -/
  | fuseBlowDone (ok : Bool)
  /-- TEMP_SAMPLE (R604). -/
  | tempSample (raw : List (BitVec 16))
  /-- CAP_EVAL (R602). -/
  | capEval (p100us p10ms pClk : BitVec 16) (rails : List (Fin 9 × Word))
  /-- RAIL_EXCURSION (R598). -/
  | railExcursion (rail : Fin 9)
  /-- ARRAY_RAIL_SETTLED (R594). -/
  | arrayRailSettled (mv : BitVec 10)
  /-- ARRAY_REQ_TIMEOUT (R594). -/
  | arrayReqTimeout
  /-- REFCLK_LOSS (R609). -/
  | refclkLoss (c : Fin 3)
  /-- TICK_IN_EDGE (R610). -/
  | tickInEdge
  /-- TICK_SOURCE (R610). -/
  | tickSource
  /-- TIME_SET (R612). -/
  | timeSet (f : Fn) (wide : Bool) (v : BitVec 64)
  /-- SMB_SET_ADDRESS (R617). -/
  | smbSetAddress (a : Word) (pecOk : Bool)
  /-- SMB_READ (R618). -/
  | smbRead
  /-- SMB_WRITE (R618). -/
  | smbWrite (v : Word) (pecOk : Bool)
  /-- SMB_READ_TEMP (R617). -/
  | smbReadTemp
  /-- SMB_READ_POWER (R617). -/
  | smbReadPower
  /-- SMB_READ_SUMMARY (R617). -/
  | smbReadSummary
  /-- SMB_UNKNOWN_COMMAND (R617). -/
  | smbUnknownCommand (code : BitVec 8)
  /-- PERST_N_RISE (R586). -/
  | perstNRise
  /-- RETENTION_ENTRY_DONE (R206). -/
  | retentionEntryDone (r : Fin 16) (tier : Fin 4)
  /-- RAIL_RETURN (R598). -/
  | railReturn (rail : Fin 9)
  /-- REFCLK_RETURN (R609). -/
  | refclkReturn (c : Fin 3)
  /-- TICK_EDGE_MISSING (R611). -/
  | tickEdgeMissing
  /-- STALL_N_HOLD_EXPIRY (R266). -/
  | stallNHoldExpiry (n : Fin 4)
  /-- SIDEBAND_PIN_CHANGE (R553). -/
  | sidebandPinChange (pin : Sideband) (level glitch : Bool)
  /-- TCK_EDGE (R615). -/
  | tckEdge (rising tms tdi : Bool) (code : TapInstr)
  /-- SMB_CLOCK_LOW_TIMEOUT (R616). -/
  | smbClockLowTimeout
  /-- REGION_FAULT (R39). -/
  | regionFault (r : Fin 16)
  /-- CHECKPOINT_SHARD_SEND (R441). -/
  | checkpointShardSend
  /-- CONFIGURATION_WRITE (R572). -/
  | configurationWrite (fn : Fin 65) (busMaster d3hot msixEnable msixMask : Bool)
deriving DecidableEq, Repr

end Sys2Proof
end

