-- ==== Sys2Proof/Decode.lean ====
section
/-! DEFINITION. What a word of the opcode table spells. -/

namespace Sys2Proof

/-- The command that a word of `nbits` bits spells by the opcode table's bits. The table gives none of its rows any bits,
so no word spells a command. DEDUCED: assumption 10. -/
def decodeTableWord (_nbits _w : Nat) : Option Instr := none

end Sys2Proof
end

