-- ==== Sys2Proof/Config.lean ====
section
/-! DEFINITION. What one device fixes that the spec does not, and the free values: constants without
a body, so that nothing can be proved of what they are. -/

namespace Sys2Proof

/-- A free value for a result the spec leaves open, one per use of the counter `State.sys.freeCtr`.
DESIGN CHOICE: assumption 7. -/
opaque Config.freeWord : Nat → BitVec 64

/-- Byte `i` of what the AES-XTS engine yields under key `key` from block `j` of 4 KiB data unit `unit`,
whose 16 bytes as stored are `block` (each with the key it was written under), where some byte was not
written under `key` (R217–R219). Key values and cipher results are open: no rule makes them readable.
DESIGN CHOICE: assumption 7; DEDUCED: assumption 49. -/
opaque Config.xts (key unit j : Nat) (block : List (Nat × Byte)) (i : Nat) : Byte

/-- Where a RECIP or RSQRT result lies about the correctly rounded one, 0–4 standing for −2–2 units in the last
place (R141: within 2 units, and the same for the same operand, R69). DESIGN CHOICE: assumptions 7, 76. -/
opaque Config.ulp (op : Nat) (a : BitVec 32) : Fin 5

/-- The FP32 result of a transcendental sub-operation on a finite operand (R141): within 2 units in the last place
of the function's value, the same for the same operand (R69), and otherwise open. DESIGN CHOICE: assumptions 7, 76. -/
opaque Config.transc (op : Nat) (a : BitVec 32) : BitVec 32

/-- How the stage engine fills RECORDS and PRECORDS of the ring entry of a stage program (R476), from the device
address and the size of its handle: the split of a program's buffer into command and parameter records is open.
DESIGN CHOICE: assumptions 7, 85. -/
opaque Config.progRecords (dev size : BitVec 64) : Nat × Nat

/-- The manufacturer identity of IDCODE (R615), which the spec does not give. DESIGN CHOICE: assumption 7. -/
opaque Config.jtagMaker : BitVec 11

end Sys2Proof
end

