-- ==== Sys2Proof/Machine/Float.lean ====
section
/-! DEFINITION. The twelve element formats as exact numbers (R46–R52), rounding and conversion (R71–R76), and
the FP32 arithmetic of accumulators and vector engines (R68, R73, R141). A finite number is held exactly, as a
sign, a magnitude and a power of two, and is rounded once where a rule rounds it. -/

namespace Sys2Proof.Machine

/-- A floating-point or integer value: (−1)^neg × m × 2^e, an infinity, or NaN. -/
inductive Fl where
  | nan
  | inf (neg : Bool)
  | num (neg : Bool) (m : Nat) (e : Int)
deriving DecidableEq, Repr

/-- A float format's exponent width, mantissa width and bias, and its special values (R51): 0 none, 1 only the
NaN of all ones, 2 infinities and NaNs as IEEE 754 has them. -/
structure FlFmt where
  eb : Nat
  mb : Nat
  bias : Nat
  special : Nat
deriving DecidableEq, Repr

def fp32 : FlFmt := ⟨8, 23, 127, 2⟩
def bf16 : FlFmt := ⟨8, 7, 127, 2⟩
def fp16 : FlFmt := ⟨5, 10, 15, 2⟩

/-- The float format of an element format code; none for an integer or reserved code (R46, R51). -/
def flFmt : Nat → Option FlFmt
  | 0x4 => some ⟨2, 1, 1, 0⟩
  | 0x5 => some ⟨2, 3, 1, 0⟩
  | 0x6 => some ⟨3, 2, 3, 0⟩
  | 0x7 => some ⟨4, 3, 7, 1⟩
  | 0x8 => some ⟨5, 2, 15, 2⟩
  | 0x9 => some bf16
  | 0xA => some fp16
  | 0xB => some fp32
  | _ => none

/-- The storage width in bits of an element format code (R49). -/
def elemBits : Nat → Nat
  | 0x0 => 2
  | 0x1 => 4
  | 0x2 => 8
  | 0x3 => 16
  | 0x4 => 4
  | 0x5 => 6
  | 0x6 => 6
  | 0x7 => 8
  | 0x8 => 8
  | 0x9 => 16
  | 0xA => 16
  | _ => 32

/-- The format code and the MX and DEPTH fields of a format byte (R46). -/
def fmtCode (b : Nat) : Nat := b % 16
def fmtMx (b : Nat) : Bool := b / 128 % 2 == 1
def fmtDepth (b : Nat) : Nat := b / 32 % 4
/-- Integer class: an integer code without MX (R46). -/
def fmtInt (b : Nat) : Bool := decide (fmtCode b < 4) && !fmtMx b

/-- Whether a format byte is accepted at fetch (R47). -/
def fmtOk (b : Nat) : Bool :=
  decide (b < 256) && decide (fmtCode b < 12) && b / 16 % 2 == 0 && fmtDepth b ≠ 3 &&
  (fmtDepth b == 0 || fmtCode b == 9) &&
  (!fmtMx b || ([2, 4, 5, 6, 7, 8] : List Nat).contains (fmtCode b))

def FlFmt.emin (f : FlFmt) : Int := 1 - (f.bias : Int)
def FlFmt.bits (f : FlFmt) : Nat := 1 + f.eb + f.mb

/-- The largest finite magnitude's bits, without the sign (R51). -/
def FlFmt.maxBits (f : FlFmt) : Nat :=
  if f.special = 0 then 2 ^ (f.eb + f.mb) - 1
  else if f.special = 1 then 2 ^ (f.eb + f.mb) - 2
  else (2 ^ f.eb - 1) * 2 ^ f.mb - 1

/-- The value that a bit pattern of the format stands for (R51). -/
def FlFmt.decode (f : FlFmt) (v : Nat) : Fl :=
  let neg := v / 2 ^ (f.eb + f.mb) % 2 == 1
  let e := v / 2 ^ f.mb % 2 ^ f.eb
  let m := v % 2 ^ f.mb
  if f.special = 1 ∧ e = 2 ^ f.eb - 1 ∧ m = 2 ^ f.mb - 1 then .nan
  else if f.special = 2 ∧ e = 2 ^ f.eb - 1 then (if m = 0 then .inf neg else .nan)
  else if e = 0 then .num neg m (f.emin - f.mb)
  else .num neg (2 ^ f.mb + m) ((e : Int) - f.bias - f.mb)

/-- The bits of a value of the format, given its integer significand `m` at quantum 2^q, q at least the
subnormal quantum and `m` at most 2^(mb + 1). -/
def FlFmt.pack (f : FlFmt) (neg : Bool) (m : Nat) (q : Int) : Nat :=
  let s := if neg then 2 ^ (f.eb + f.mb) else 0
  let qmin := f.emin - f.mb
  if m < 2 ^ f.mb then s + m * 2 ^ (q - qmin).toNat
  else s + ((q - qmin).toNat) * 2 ^ f.mb + m

/-- The canonical NaN's bits (R55); 0 for a format that has none (R74). -/
def FlFmt.nanBits (f : FlFmt) : Nat :=
  if f.special = 0 then 0
  else if f.special = 1 ∨ f.eb + f.mb = 7 then 0x7F
  else (2 ^ f.eb - 1) * 2 ^ f.mb + 2 ^ (f.mb - 1)

/-- An infinity's bits in a format of IEEE 754's kind. -/
def FlFmt.infBits (f : FlFmt) : Nat := (2 ^ f.eb - 1) * 2 ^ f.mb

/-- Rounding modes of a conversion (R71): stochastic rounding carries its 16 drawn bits (R76). -/
inductive RMode where
  | nearest
  | zero
  | stoch (r : Nat)
deriving DecidableEq, Repr

/-- Drop the `n` low bits of `m`, rounding as the mode says. -/
def rshift (mode : RMode) (m n : Nat) : Nat :=
  let q := m / 2 ^ n
  let rem := m % 2 ^ n
  if n = 0 then m
  else match mode with
    | .zero => q
    | .nearest => if 2 * rem > 2 ^ n ∨ (2 * rem = 2 ^ n ∧ q % 2 = 1) then q + 1 else q
    | .stoch r =>
      let d := if 16 ≤ n then rem / 2 ^ (n - 16) else rem * 2 ^ (16 - n)
      if r < d then q + 1 else q

/-- Round a magnitude m × 2^e to quantum 2^q. -/
def toQuantum (mode : RMode) (m : Nat) (e q : Int) : Nat :=
  if q ≤ e then m * 2 ^ (e - q).toNat else rshift mode m (q - e).toNat

/-- The quantum at which a format holds a magnitude m × 2^e, its exponent range having no upper bound (R74). -/
def FlFmt.quantum (f : FlFmt) (m : Nat) (e : Int) : Int :=
  max ((Nat.log2 m : Int) + e - f.mb) (f.emin - f.mb)

/-- What a conversion writes: the bits, whether a value was held at a bound because it is a finite overflow
(CONV_SAT), whether the input was non-finite (NONFIN_IN) and whether the output is (NONFIN_OUT). -/
structure Conv where
  bits : Nat
  sat : Bool
  nfIn : Bool
  nfOut : Bool
deriving DecidableEq, Repr

/-- Convert to a float format without MX (R72, R74). -/
def FlFmt.convert (f : FlFmt) (mode : RMode) (sat : Bool) (x : Fl) : Conv :=
  let sgn (neg : Bool) (v : Nat) : Nat := if neg then 2 ^ (f.eb + f.mb) + v else v
  match x with
  | .nan => ⟨f.nanBits, false, true, f.special ≠ 0⟩
  | .inf neg =>
    if f.special = 0 then ⟨sgn neg f.maxBits, false, true, false⟩
    else if f.special = 1 then ⟨f.nanBits, false, true, true⟩
    else ⟨sgn neg f.infBits, false, true, true⟩
  | .num neg m e =>
    if m = 0 then ⟨sgn neg 0, false, false, false⟩
    else
      let q := f.quantum m e
      let r := toQuantum mode m e q
      let b := f.pack false r q
      if b ≤ f.maxBits then ⟨sgn neg b, false, false, false⟩
      else if f.special = 0 ∨ sat ∨ mode = .zero then ⟨sgn neg f.maxBits, true, false, false⟩
      else if f.special = 1 then ⟨f.nanBits, false, false, true⟩
      else ⟨sgn neg f.infBits, false, false, true⟩

/-- Round to FP32, to nearest with ties to even, as arithmetic does (R68, R141): no saturation. -/
def f32 (x : Fl) : BitVec 32 := BitVec.ofNat 32 (fp32.convert .nearest false x).bits

/-- The value of an FP32 pattern. -/
def v32 (b : BitVec 32) : Fl := fp32.decode b.toNat

/-- The canonical FP32 NaN (R55). -/
abbrev nan32 : BitVec 32 := 0x7FC00000

def Fl.isNan : Fl → Bool
  | .nan => true
  | _ => false
def Fl.isFinite : Fl → Bool
  | .num .. => true
  | _ => false
def Fl.isZero : Fl → Bool
  | .num _ m _ => m == 0
  | _ => false
def Fl.negative : Fl → Bool
  | .nan => false
  | .inf n => n
  | .num n _ _ => n

/-- A signed integer as a value. -/
def Fl.ofInt (i : Int) : Fl := .num (decide (i < 0)) i.natAbs 0

/-- The signed integer that m × 2^e is in units of 2^q, q ≤ e. -/
def signedAt (neg : Bool) (m : Nat) (e q : Int) : Int :=
  let v : Int := (m * 2 ^ (e - q).toNat : Nat)
  if neg then -v else v

/-- The exact sum; the sum of two opposite non-zero numbers is +0, of two zeros −0 only where both are (IEEE 754). -/
def Fl.add : Fl → Fl → Fl
  | .nan, _ => .nan
  | _, .nan => .nan
  | .inf a, .inf b => if a = b then .inf a else .nan
  | .inf a, .num .. => .inf a
  | .num .., .inf b => .inf b
  | .num na ma ea, .num nb mb eb =>
    let q := min ea eb
    let v := signedAt na ma ea q + signedAt nb mb eb q
    if v = 0 then .num (na && nb) 0 0 else .num (decide (v < 0)) v.natAbs q

def Fl.neg : Fl → Fl
  | .nan => .nan
  | .inf n => .inf !n
  | .num n m e => .num (!n) m e

def Fl.abs : Fl → Fl
  | .nan => .nan
  | .inf _ => .inf false
  | .num _ m e => .num false m e

/-- The exact product. -/
def Fl.mul : Fl → Fl → Fl
  | .nan, _ => .nan
  | _, .nan => .nan
  | .inf a, .inf b => .inf (a != b)
  | .inf a, .num b m _ => if m = 0 then .nan else .inf (a != b)
  | .num b m _, .inf a => if m = 0 then .nan else .inf (a != b)
  | .num na ma ea, .num nb mb eb => .num (na != nb) (ma * mb) (ea + eb)

/-- A quotient, exact to at least 64 bits with a sticky bit below them: rounding it once to FP32 gives the
correctly rounded quotient. -/
def Fl.div : Fl → Fl → Fl
  | .nan, _ => .nan
  | _, .nan => .nan
  | .inf _, .inf _ => .nan
  | .inf a, .num b _ _ => .inf (a != b)
  | .num b _ _, .inf a => .num (a != b) 0 0
  | .num na ma ea, .num nb mb eb =>
    if mb = 0 then (if ma = 0 then .nan else .inf (na != nb))
    else
      let k := Nat.log2 mb + 66
      let n := ma * 2 ^ k
      .num (na != nb) (2 * (n / mb) + (if n % mb = 0 then 0 else 1)) (ea - eb - k - 1)

/-- `a < b` between numbers, neither of them NaN; −0 equals +0. -/
def Fl.lt : Fl → Fl → Bool
  | .nan, _ => false
  | _, .nan => false
  | .inf a, .inf b => a && !b
  | .inf a, .num .. => a
  | .num .., .inf b => !b
  | .num na ma ea, .num nb mb eb =>
    let q := min ea eb
    decide (signedAt na ma ea q < signedAt nb mb eb q)

def Fl.eq (a b : Fl) : Bool := !a.isNan && !b.isNan && !a.lt b && !b.lt a

/-- FP32 arithmetic on bit patterns: each operation rounded once (R68, R141). -/
def add32 (a b : BitVec 32) : BitVec 32 := f32 ((v32 a).add (v32 b))
def sub32 (a b : BitVec 32) : BitVec 32 := f32 ((v32 a).add (v32 b).neg)
def mul32 (a b : BitVec 32) : BitVec 32 := f32 ((v32 a).mul (v32 b))
def div32 (a b : BitVec 32) : BitVec 32 := f32 ((v32 a).div (v32 b))
def fma32 (a b c : BitVec 32) : BitVec 32 := f32 (((v32 a).mul (v32 b)).add (v32 c))
/-- The larger value; a NaN input gives NaN (R141). -/
def max32 (a b : BitVec 32) : BitVec 32 :=
  if (v32 a).isNan || (v32 b).isNan then nan32 else if (v32 a).lt (v32 b) then b else a
def min32 (a b : BitVec 32) : BitVec 32 :=
  if (v32 a).isNan || (v32 b).isNan then nan32 else if (v32 b).lt (v32 a) then b else a
def one32 : BitVec 32 := 0x3F800000

/-- The largest r with r × r ≤ n, found bit by bit from bit `k` down. -/
def isqrtFrom (n : Nat) : Nat → Nat → Nat
  | 0, r => r
  | k + 1, r => isqrtFrom n k (if (r + 2 ^ k) * (r + 2 ^ k) ≤ n then r + 2 ^ k else r)

/-- A square root exact to at least 32 bits with a sticky bit below them. -/
def Fl.sqrt : Fl → Fl
  | .nan => .nan
  | .inf n => if n then .nan else .inf false
  | .num n m e =>
    if m = 0 then .num n 0 0
    else if n then .nan
    else
      let k : Nat := if (e % 2 = 0) then 80 else 81
      let v := m * 2 ^ k
      let r := isqrtFrom v (Nat.log2 v / 2 + 1) 0
      .num false (2 * r + (if r * r = v then 0 else 1)) ((e - k) / 2 - 1)

/-- Move a finite FP32 pattern by the offset of a result that lies within 2 units in the last place (R141). -/
def nudge (b : BitVec 32) (k : Fin 5) : BitVec 32 :=
  if (v32 b).isFinite && !(v32 b).isZero then b + BitVec.ofNat 32 k.val - 2 else b

/-- RECIP and RSQRT (R141): within 2 units in the last place; which of them is open. DESIGN CHOICE: assumption 76. -/
def recip32 (a : BitVec 32) : BitVec 32 := nudge (div32 one32 a) (Config.ulp 0x0B a)
/-- DESIGN CHOICE: assumption 76. -/
def rsqrt32 (a : BitVec 32) : BitVec 32 := nudge (f32 ((v32 one32).div (v32 a).sqrt)) (Config.ulp 0x0C a)

/-- The transcendental sub-operations (R141): non-finite inputs by IEEE 754; within 2 units in the last place of
results that the model does not compute, so the finite results are open. DESIGN CHOICE: assumption 76. -/
def transc32 (op : Nat) (a : BitVec 32) : BitVec 32 :=
  match op, v32 a with
  | _, .nan => nan32
  | 0x0D, .inf n => if n then 0 else a
  | 0x0E, .inf n => if n then nan32 else a
  | 0x0E, .num n m _ => if m = 0 then 0xFF800000 else if n then nan32 else Config.transc 0x0E a
  | 0x0F, .inf n => if n then 0xBF800000 else one32
  | 0x10, .inf n => if n then 0 else one32
  | 0x11, .inf n => if n then nan32 else a
  | 0x12, .inf n => if n then nan32 else a
  | op, _ => Config.transc op a

/-! ## Elements -/

/-- The two's complement value of `n` bits. -/
def signedOf (n v : Nat) : Int := if v % 2 ^ n < 2 ^ (n - 1) then (v % 2 ^ n : Int) else (v % 2 ^ n : Int) - 2 ^ n

/-- The value of an element, before any MX scale (R50, R51). -/
def elemVal (code v : Nat) : Fl :=
  match flFmt code with
  | some f => f.decode v
  | none => Fl.ofInt (signedOf (elemBits code) v)

/-- Multiply by an E8M0 scale (R52); MX INT8 elements are in units of 2^−6. -/
def scaled (code scale : Nat) (x : Fl) : Fl :=
  if scale = 0xFF then .nan
  else match x with
    | .num n m e => .num n m (e + (scale : Int) - 127 - (if code = 2 then 6 else 0))
    | y => y

/-- Convert to an integer format of `n` bits (R74). -/
def toInt (n : Nat) (mode : RMode) (x : Fl) : Conv :=
  let lo : Int := -(2 ^ (n - 1) : Int)
  let hi : Int := 2 ^ (n - 1) - 1
  let enc (i : Int) : Nat := (i % 2 ^ n).toNat
  match x with
  | .nan => ⟨0, false, true, false⟩
  | .inf neg => ⟨enc (if neg then lo else hi), false, true, false⟩
  | .num neg m e =>
    let r : Int := toQuantum mode m e 0
    let v := if neg then -r else r
    if v < lo then ⟨enc lo, true, false, false⟩
    else if hi < v then ⟨enc hi, true, false, false⟩
    else ⟨enc v, false, false, false⟩

/-- Convert to any element format without MX (R72, R74). -/
def convElem (code : Nat) (mode : RMode) (sat : Bool) (x : Fl) : Conv :=
  match flFmt code with
  | some f => f.convert mode sat x
  | none => toInt (elemBits code) mode x

/-- The exponent of an element format's largest finite value (R75). -/
def elemTop : Nat → Int
  | 0x4 => 2
  | 0x5 => 2
  | 0x6 => 4
  | 0x7 => 8
  | 0x8 => 15
  | _ => 0

/-- The MX scale of a block (R75): the larger magnitude's exponent, clamped; 0xFF where a value is non-finite. -/
def mxScale (code : Nat) (xs : List Fl) : Nat :=
  if xs.any fun x => !x.isFinite then 0xFF
  else
    let exps := xs.filterMap fun x => match x with
      | .num _ m e => if m = 0 then none else some ((Nat.log2 m : Int) + e)
      | _ => none
    match exps with
    | [] => 0
    | x :: rest => (max 0 (min 254 (rest.foldl max x - elemTop code + 127))).toNat

/-- Convert one element of an MX block under its scale (R75): elements always saturate. -/
def mxElem (code scale : Nat) (mode : RMode) (x : Fl) : Conv :=
  if scale = 0xFF then ⟨0, false, !x.isFinite, false⟩
  else match x with
    | .num n m e =>
      let y := Fl.num n m (e - (scale : Int) + 127 + (if code = 2 then 6 else 0))
      convElem code mode true y
    | y => convElem code mode true y

/-! ## Block alignment (R56–R64) -/

/-- A format's significand width p and activation depth S, and weight width W (R56): S and W depend on DEPTH for
BF16 only. -/
def sigWidth : Nat → Nat
  | 0x4 => 2
  | 0x5 => 4
  | 0x6 => 3
  | 0x7 => 4
  | 0x8 => 3
  | 0x9 => 8
  | 0xA => 11
  | 0xB => 24
  | _ => 0

def actDepth (b : Nat) : Nat :=
  match fmtCode b with
  | 0x0 => 2
  | 0x1 => 4
  | 0x2 => 8
  | 0x3 => 16
  | 0x4 => 4
  | 0x5 => 6
  | 0x6 => 8
  | 0x7 => 8
  | 0x8 => 8
  | 0x9 => if fmtDepth b = 1 then 8 else 12
  | 0xA => 14
  | _ => 26

def weightWidth (b : Nat) : Nat :=
  match fmtCode b with
  | 0xA => 12
  | 0xB => 24
  | _ => actDepth b

/-- Weight passes (R57). -/
def weightPasses (b : Nat) : Nat := (weightWidth b + 11) / 12

/-- An aligned block: its exponent, its signed integers, whether it is non-finite, and its flush count. -/
structure Block where
  exp : Int
  vals : List Int
  bad : Bool
  flush : Nat
deriving DecidableEq, Repr

/-- The exponent of an element for alignment (R59): its unbiased exponent, the minimum normal one for a
subnormal. -/
def alignExp (f : FlFmt) (v : Nat) : Int :=
  let e := v / 2 ^ f.mb % 2 ^ f.eb
  if e = 0 then f.emin else (e : Int) - f.bias

/-- The p-bit significand (R59). -/
def alignSig (f : FlFmt) (v : Nat) : Nat :=
  let e := v / 2 ^ f.mb % 2 ^ f.eb
  (if e = 0 then 0 else 2 ^ f.mb) + v % 2 ^ f.mb

/-- Align the elements of one block (raw bits) to `s` magnitude bits (R59–R64); `scale` is its MX scale byte. -/
def alignBlock (b s : Nat) (xs : List Nat) (scale : Option Nat) : Block :=
  let code := fmtCode b
  let sexp : Int := match scale with
    | some e => (e : Int) - 127
    | none => 0
  let sbad := scale == some 0xFF
  match flFmt code with
  | none =>
    ⟨(if fmtMx b then -6 else 0) + sexp, xs.map (signedOf (elemBits code)), sbad, 0⟩
  | some f =>
    let neg (v : Nat) : Bool := v / 2 ^ (f.eb + f.mb) % 2 == 1
    let sgn (v : Nat) (m : Nat) : Int := if neg v then -(m : Int) else m
    let bad := sbad || xs.any fun v => !(f.decode v).isFinite
    if code = 4 ∨ code = 5 then
      let grid : Int := if code = 4 then -1 else -3
      ⟨grid + sexp, xs.map fun v => sgn v (alignSig f v * 2 ^ (alignExp f v - f.mb - grid).toNat), bad, 0⟩
    else
      let p := sigWidth code
      let live := xs.filter fun v => (f.decode v).isFinite && alignSig f v ≠ 0
      let emax := live.foldl (fun a v => max a (alignExp f v)) f.emin
      let mag (v : Nat) : Nat :=
        let sh : Int := emax - alignExp f v - ((s : Int) - p)
        if sh ≤ 0 then alignSig f v * 2 ^ (-sh).toNat
        else if 31 < sh then 0 else rshift .nearest (alignSig f v) sh.toNat
      ⟨emax - ((s : Int) - 1) + sexp, xs.map fun v => sgn v (mag v), bad,
        (xs.filter fun v => mag v == 0 && alignSig f v ≠ 0).length⟩

/-! ## Accumulators (R65–R68): an integer accumulator as a sign-extended 64-bit value, an FP32 one in the low bits -/

/-- The bound of an integer accumulator (R67). -/
def accBound : Int := 2 ^ 39 - 1

/-- Add to an integer accumulator; the flag says that it has just reached the bound (R67). -/
def accAddInt (acc : BitVec 64) (x : Int) : BitVec 64 × Bool :=
  let v := acc.toInt
  if accBound ≤ v ∨ v ≤ -accBound then (acc, false)
  else
    let w := v + x
    if accBound ≤ w then (BitVec.ofInt 64 accBound, true)
    else if w ≤ -accBound then (BitVec.ofInt 64 (-accBound), true)
    else (BitVec.ofInt 64 w, false)

/-- Add a value to an FP32 accumulator: the block sum is converted to FP32 and then added, each rounded once
(R68). DEDUCED: assumption 79. -/
def accAddFl (acc : BitVec 64) (x : Fl) : BitVec 64 := (add32 (acc.truncate 32) (f32 x)).zeroExtend 64

/-- The part of a weight's magnitude that pass `p` of `n` holds (R57, R103). -/
def passPart (w : Int) (p n : Nat) : Int :=
  if n = 1 then w
  else
    let m := if p = 0 then w.natAbs % 4096 else w.natAbs / 4096
    if w < 0 then -(m : Int) else m

/-- The exact sum of products of one block and pass (R65). -/
def dotInt : List Int → List Int → Int
  | a :: as, b :: bs => a * b + dotInt as bs
  | _, _ => 0

/-- Combine a list in the fixed binary tree of R112. -/
def treeStep {α : Type} (f : α → α → α) : List α → List α
  | a :: b :: rest => f a b :: treeStep f rest
  | xs => xs

def treeOf {α : Type} (f : α → α → α) : Nat → List α → List α
  | 0, xs => xs
  | n + 1, xs => if xs.length ≤ 1 then xs else treeOf f n (treeStep f xs)

/-- The root of the tree of R112 over a list; `d` for the empty list. -/
def tree {α : Type} (f : α → α → α) (d : α) (xs : List α) : α := (treeOf f xs.length xs).headD d

/-! ## Currant (R426) -/

/-- Rotate left. -/
def rotl32 (x : BitVec 32) (n : Nat) : BitVec 32 := (x <<< n) ||| (x >>> (32 - n))

/-- One round of Currant on lanes x0–x3 under key words `k`. -/
def currantRound (k : Nat → BitVec 32) (r : Nat) (x : BitVec 32 × BitVec 32 × BitVec 32 × BitVec 32) :
    BitVec 32 × BitVec 32 × BitVec 32 × BitVec 32 :=
  let g : BitVec 32 := 0x6F4A7C15
  let mix (i : Nat) (v m : BitVec 32) : BitVec 32 := (v * m) ^^^ (k ((i + r) % 4) + BitVec.ofNat 32 r * g)
  let x0 := mix 0 x.1 0xB5E36A2D
  let x1 := mix 1 x.2.1 0xD1C47F93
  let x2 := mix 2 x.2.2.1 0x9A7D2C61
  let x3 := mix 3 x.2.2.2 0xE56B04B7
  (rotl32 x0 13 ^^^ x1, rotl32 x1 7 ^^^ x2, rotl32 x2 19 ^^^ x3, rotl32 x3 11 ^^^ x0)

/-- The 128 output bits of Currant at a counter position. -/
def currant (seed : BitVec 128) (stream : BitVec 32) (pos : Nat) : BitVec 128 :=
  let k (i : Nat) : BitVec 32 := seed.extractLsb' (32 * i) 32
  let x := (List.range 10).foldl (fun x r => currantRound k r x)
    (BitVec.ofNat 32 pos, BitVec.ofNat 32 (pos / 2 ^ 32), stream, 0)
  x.2.2.2 ++ x.2.2.1 ++ x.2.1 ++ x.1

/-- The 16 bits that stochastic rounding draws for element `q` (R76). -/
def draw16 (seed : BitVec 128) (stream : BitVec 32) (q : Nat) : Nat :=
  ((currant seed stream (q / 8)).extractLsb' (16 * (q % 8)) 16).toNat

/-- The rounding mode of a conversion control byte (R71) for the element at linear position `q`. -/
def modeOf (cvt : Nat) (seed : BitVec 128) (stream : BitVec 32) (q : Nat) : RMode :=
  match cvt % 4 with
  | 1 => .zero
  | 2 => .stoch (draw16 seed stream q)
  | _ => .nearest

end Sys2Proof.Machine
end

