-- ==== Sys2Proof/Machine/Map.lean ====
section
/-! DEFINITION. Sparse arrays in canonical form: read, write, and the predicate that says the form
holds. An unlisted key reads as a default that the caller names, so equal arrays are equal lists. -/

namespace Sys2Proof

/-- What key `k` reads as: its listed value, or `d` where it is not listed. -/
def SMap.get {α : Type} (d : α) : SMap α → Nat → α
  | [], _ => d
  | (k', v) :: m, k => if k' = k then v else SMap.get d m k

/-- Remove key `k`. -/
def SMap.erase {α : Type} : SMap α → Nat → SMap α
  | [], _ => []
  | (k', v) :: m, k => if k' = k then SMap.erase m k else (k', v) :: SMap.erase m k

/-- List key `k` with value `v`, in key order. -/
def SMap.insert {α : Type} : SMap α → Nat → α → SMap α
  | [], k, v => [(k, v)]
  | (k', v') :: m, k, v =>
    if k < k' then (k, v) :: (k', v') :: m
    else if k' = k then (k, v) :: m
    else (k', v') :: SMap.insert m k v

/-- Write `v` at key `k`; writing the default removes the entry. -/
def SMap.put {α : Type} [DecidableEq α] (d : α) (m : SMap α) (k : Nat) (v : α) : SMap α :=
  if v = d then m.erase k else m.insert k v

/-- Change the value at key `k` by `f`. -/
def SMap.modify {α : Type} [DecidableEq α] (d : α) (m : SMap α) (k : Nat) (f : α → α) : SMap α :=
  m.put d k (f (m.get d k))

/-- Change every listed value by `f`; one that becomes the default is no longer listed. -/
def SMap.remap {α : Type} [DecidableEq α] (d : α) (f : α → α) (m : SMap α) : SMap α :=
  (m.map fun e => (e.1, f e.2)).filter fun e => decide (e.2 ≠ d)

/-- Every key of the map is above `b`, the keys rise strictly, and no value is the default of its key. -/
def SMap.wfFrom {α : Type} [DecidableEq α] (d : Nat → α) : Option Nat → SMap α → Bool
  | _, [] => true
  | b, (k, v) :: m =>
    (match b with | none => true | some b => decide (b < k)) && decide (v ≠ d k) && SMap.wfFrom d (some k) m

/-- The canonical form of a sparse array. -/
def SMap.wf {α : Type} [DecidableEq α] (d : Nat → α) (m : SMap α) : Bool := SMap.wfFrom d none m

/-- The listed keys, in ascending order. -/
def SMap.keys {α : Type} (m : SMap α) : List Nat := m.map (·.1)

/-- Keep the entries that satisfy `p`; the others read as the default again. -/
def SMap.keep {α : Type} (m : SMap α) (p : Nat → α → Bool) : SMap α := m.filter fun e => p e.1 e.2

end Sys2Proof
end

