-- ==== Sys2Proof/Machine/State.lean ====
section
/-! DEFINITION. The whole state of the block as plain data, its faults and refusals, and reset. Registers
whose value nothing else holds live in one file, `Bus.regs`, keyed by their physical-function BAR0 byte
offset (R624) and read through Machine/Regs.lean; arrays are sparse maps keyed by number. -/

namespace Sys2Proof.Machine

/-- Why a step stops for good. No rule of this spec stops the block, so there is no such reason: a device, partition or
command fault of the spec is state that a step writes, and the block goes on. -/
inductive Fault where
deriving DecidableEq, Repr

/-- Why a command is refused by the model. -/
inductive Refusal where
  /-- The command has no meaning yet (raised by Dispatch only, and by no arm of it; safe). -/
  | notModelled (mnemonic : String)
deriving DecidableEq, Repr

/-! ## Device-wide state (chapters 1, 16 and 17) -/

/-- A warm reset in progress (R587, R590): the source shown in LAST_RESET, and whether a PERST_N
assertion is the source or merged into it (R588). -/
structure WarmState where
  source : WarmSource
  perst : Bool
deriving DecidableEq, Repr

/-- The device-wide state (R43, R582, R584, R587, R591). -/
structure Sys where
  /-- SYS_RESET_N has risen and the cold start runs or has ended. -/
  started : Bool
  phase : BitVec 4
  bootErr : BitVec 4
  stageMode : Bool
  imageB : Bool
  cellarCopy : Bool
  bootMode : BitVec 2
  slotId : BitVec 6
  lastReset : BitVec 2
  /-- R582: BOOT_MODE 0b10 halted the boot ROM after the fuse read. -/
  flashRelease : Bool
  /-- R584: the SRAM phase, which runs beside CELLAR, has ended. -/
  sramDone : Bool
  warm : Option WarmState
  /-- R590: warm-reset sources ignored during the cold start, counted as INPUT records once READY. -/
  warmIgnored : Nat
  /-- The device time base in ns (R28, R584). -/
  time : BitVec 64
  imageVersion : Word
  coldResets : Word
  warmResets : Word
  tenancyLock : Bool
  /-- The device key of R219 exists. -/
  deviceKey : Bool
  /-- PERST_N holds the PCIe controller in reset (R586). -/
  pcieHeld : Bool
  /-- The PCIe link is trained (R586). -/
  pcieUp : Bool
  /-- The model's own: how many free values have been taken so far. -/
  freeCtr : Nat
deriving DecidableEq, Repr

/-! ## Register bus (chapter 18) -/

/-- The held half of a 64-bit pair (R632): the offset of the pair's low half and the value held. -/
structure HeldHalf where
  offset : Nat
  value : Word
deriving DecidableEq, Repr

/-- One staged or waiting commit of a page (R636). -/
structure CommitState where
  waiting : Bool
  last : BitVec 2
  applied : BitVec 14
  /-- The model's bookkeeping of R637: the groups of the commit that wait. -/
  groups : List Nat
  /-- Whether a group of the commit in progress has been applied, and whether one has been rejected. -/
  anyApplied : Bool
  anyRejected : Bool
deriving DecidableEq, Repr, Inhabited

/-- The register bus: the register file, staged values, latches and write buffers (R626–R640).
DESIGN CHOICE: assumption 11. -/
structure Bus where
  regs : SMap Word
  staged : SMap (Option Word)
  commits : SMap CommitState
  /-- Read latches, keyed by accessor number × 2^14 + page index. -/
  latches : SMap (Option HeldHalf)
  /-- Write buffers, keyed as the latches. -/
  wbufs : SMap (Option HeldHalf)
  /-- The data that the latest register or management-bus read returned (the model's own output field). -/
  readData : BitVec 64
deriving DecidableEq, Repr

/-! ## Host interface (chapter 16) -/

/-- What the device sends to the host (R480, R573, R576), in posted order. DESIGN CHOICE: assumption 6. -/
inductive HostMsg where
  | write (fn : Fin 65) (addr : BitVec 64) (data : List Byte)
  | msix (fn : Fin 65) (vector : BitVec 11)
  | read (fn : Fin 65) (id : Nat) (addr : BitVec 64) (len : Nat)
  | pageRequest (fn : Fin 65) (prg : BitVec 9) (addr : BitVec 64) (wr : Bool)
  | invalidateDone (tag : BitVec 5)
deriving DecidableEq, Repr

/-- What a read of host memory is for: the chunk at a mover channel's resume point, or the next words of a
partition's ingest post. -/
inductive HostUse where
  | mover (chan : Nat)
  | ingest (p : Fin 64)
deriving DecidableEq, Repr

/-- A read of host memory that waits for its completion (R577): the ranges it reads, in order. -/
structure HostRead where
  id : Nat
  fn : Fin 65
  ref : Option RecRef
  purpose : HostUse
  segs : List (Nat × Nat)
deriving DecidableEq, Repr

/-- One function's configuration space, as far as the device acts on it (R566–R572). -/
structure FnConfig where
  busMaster : Bool
  d3hot : Bool
  msixEnable : Bool
  msixMask : Bool
deriving DecidableEq, Repr

/-- The host interface: configuration space (key 0 the physical function, p + 1 virtual function p + 1),
SR-IOV, MSI-X pending bits (key fn × 256 + vector), requests outstanding, and the outbox.
DESIGN CHOICE: assumption 11. -/
structure HostIf where
  config : SMap FnConfig
  vfEnable : Bool
  numVFs : BitVec 16
  msixPending : SMap Bool
  reads : List HostRead
  nextRead : Nat
  /-- Errors logged in the Advanced Error Reporting registers (R577): function and command-fault cause. -/
  aer : List (Fin 65 × BitVec 16)
  outbox : List HostMsg
deriving DecidableEq, Repr

/-! ## Error aggregator, Sloe, ageing, fuses (chapter 15) -/

/-- An error record (R539). `owner` is byte 12, `flags` byte 13 without FIRST; `detail` is bytes 32–63. -/
structure ErrRec where
  time : BitVec 64
  cls : BitVec 8
  sev : BitVec 2
  source : BitVec 16
  owner : BitVec 8
  flags : BitVec 8
  count : BitVec 16
  location : BitVec 64
  cause : BitVec 32
  syndrome : BitVec 32
  detail : BitVec 256
  /-- R540: a word of the record has been read while it was the oldest. -/
  seen : Bool
deriving DecidableEq, Repr

/-- A row tracker entry (R544): global bank, row, corrected-error count; most recently updated first. -/
structure TrackEnt where
  bank : Nat
  row : Nat
  count : Nat
deriving DecidableEq, Repr

/-- The error aggregator (R538–R546) and the retired pages (R552). -/
structure Err where
  ring : List ErrRec
  first : Option ErrRec
  /-- R541: a DEVICE record has been written since the last warm or cold reset, so FAULT_N is low. -/
  device : Bool
  tracker : List TrackEnt
  /-- Times of corrected SRAM, cellar and queue errors, newest first (ERR.CE_RATE). -/
  ceTimes : List (BitVec 64)
  retired : List Nat
  cellarDegraded : Bool
  /-- R544: map-outs decided and not made, keyed bank × 1024 + row: whether zeros replace the row's data after a fault
  of the bank's owner. -/
  decided : SMap (Option Bool)
  /-- R556: the time of each unit's last watchdog expiry, keyed by SOURCE. -/
  expiries : SMap (Option (BitVec 64))
deriving DecidableEq, Repr

/-- Sloe (R547–R550, R645). -/
structure Sloe where
  row : Nat
  patrolUnit : Nat
  /-- When the walk last tested a row of each bank (R547). -/
  last : BitVec 64
deriving DecidableEq, Repr

/-- A region's planned point (R17, R558) and its readings. -/
structure RegionPt where
  /-- The plan in force. -/
  mhz : BitVec 11
  mv : BitVec 10
  /-- The point that the region runs at: the plan's, or in stage mode the common frequency's (R19). -/
  runMhz : BitVec 11
  runMv : BitVec 10
  /-- The lowest canary slack and the point at which it was measured, and the worst drift (R558, R560). -/
  slack : BitVec 11
  atMhz : BitVec 11
  atMv : BitVec 10
  drift : BitVec 16
  /-- R558: the guard and the ps per mV (in thousandths) of the last plan. -/
  guardPs : BitVec 16
  kv : BitVec 16
  /-- R39: the region is out of service until Spenor re-plans it. -/
  out : Bool
  /-- R559, R594: a new plan that is not yet applied, and whether it waits for the rail. -/
  pending : Option (BitVec 11 × BitVec 10)
  railWait : Bool
  /-- R559, R560: a re-plan is due; when the region was last planned. -/
  due : Bool
  planAt : BitVec 64
  /-- R553: consecutive discards of canaries 0–3 and ring oscillators 4–11; at 3 the monitor has failed. -/
  discards : SMap Nat
deriving DecidableEq, Repr

/-- An audit entry (R563). -/
structure AuditEnt where
  seq : BitVec 16
  kind : BitVec 8
  state : BitVec 8
  boot : BitVec 32
  time : BitVec 64
  arg : BitVec 32
  used : BitVec 8
  mac : BitVec 64
deriving DecidableEq, Repr

/-- The fuses and the fuse controller (R5, R561–R564, R580, R591), with the ageing history of flash.
DEDUCED: assumption 123. -/
structure Fuse where
  vendor : BitVec 16
  stepping : BitVec 4
  grade : BitVec 2
  serial : BitVec 64
  /-- Physical tile enable mask per cluster at test, complemented: a 1 is a disabled tile (R13). -/
  disabled : SMap (BitVec 16)
  /-- Logical tiles permanently downgraded (R561), and those mapped out until the next cold reset too (R13, R39), keyed
  c × 16 + t. -/
  fusedOut : SMap Bool
  tileOut : SMap Bool
  downgrades : Nat
  lowerings : Nat
  floorPs : BitVec 7
  revoked : BitVec 5
  revocations : Nat
  audit : List AuditEnt
  auditSeq : BitVec 16
  auditBad : Bool
  /-- R562: the operation in progress, with its audit entry already written PENDING. -/
  op : Option (BitVec 8 × BitVec 32)
  /-- Retired cellar pages in the ageing history (R552). -/
  retiredPages : List Nat
  /-- The plan kept in the ageing history (R559). -/
  plan : SMap RegionPt
deriving DecidableEq, Repr

/-! ## Command front end (chapter 13) -/

/-- A handle entry (R468, R470): BASE as written, the device address behind it, and the other fields. -/
structure Handle where
  base : BitVec 64
  dev : BitVec 64
  size : BitVec 64
  rights : BitVec 8
  fmt : BitVec 8
  scale : BitVec 16
deriving DecidableEq, Repr

/-- A relocated operand (R471). -/
structure ROpnd where
  handle : BitVec 12
  offset : BitVec 48
  kind : BitVec 2
  addr : BitVec 64
  /-- The operand's extent: its first device address and its last (R471). -/
  lo : BitVec 64
  hi : BitVec 64
  /-- The device address of the operand's MX scale buffer, where its format byte has MX = 1. -/
  scale : Option (BitVec 64)
deriving DecidableEq, Repr

/-- Why a command faults (R486, R489, R490). DEDUCED: assumption 70. -/
structure FaultInfo where
  cause : BitVec 16
  operand : BitVec 3
  addr : Option (BitVec 12 × BitVec 48)
  fetch : Bool
  engine : BitVec 16
  state : BitVec 512
  /-- The other engine instances that ran the command (R489), with their states. -/
  others : List (BitVec 16 × BitVec 512)
deriving DecidableEq, Repr

/-- A command record as fetched, relocated and checked (R458, R473). -/
structure LRec where
  ref : RecRef
  gid : BitVec 10
  raw : BitVec 512
  params : List (BitVec 64)
  opnds : List (Option ROpnd)
  tag : BitVec 32
  /-- FLAGS.AFTER of the ring entry (R461 d). -/
  after : Bool
  /-- Bytes 32–36 of a STAGE entry (R476). -/
  bind : BitVec 40
  /-- The partial area latched at fetch (R149): its scratchpad address. -/
  area : BitVec 64
  fault : Option FaultInfo
deriving DecidableEq, Repr

/-- Where a dispatched record stands (R461, R486). -/
inductive FlightSt where
  | queued
  | waiting
  | running
  | completed
  | aborted
  | faulted (f : FaultInfo)
deriving DecidableEq, Repr

/-- A dispatched record that has not ended. -/
structure Flight where
  lrec : LRec
  st : FlightSt
  /-- R282: the record's pre-wait has been satisfied. -/
  pwDone : Bool
  /-- The device time base at its dispatch (R464). -/
  time : BitVec 64
deriving DecidableEq, Repr

/-- A queue's state (R491). -/
inductive QState where
  | free
  | ready
  | faulted
  | zombie
deriving DecidableEq, Repr

/-- A started ring entry (R480): its number, its 64 B, how many records have been dispatched, and the
indices of the records that have completed. -/
structure EntrySt where
  num : BitVec 17
  raw : BitVec 512
  dispatched : Nat
  done : List Nat
  faulted : Bool
deriving DecidableEq, Repr

/-- A software queue (R475, R478, R491–R495). `started` is the number of the next entry to start. -/
structure SwQueue where
  st : QState
  gid : BitVec 10
  err : BitVec 4
  head : BitVec 17
  tail : BitVec 17
  cplTail : BitVec 17
  started : BitVec 17
  entries : List EntrySt
  /-- R493: the FAULT completion has been written. -/
  faultCpl : Bool
  /-- R494: ring entries from HEAD to TAIL when DESTROY acted. -/
  abandoned : Nat
deriving DecidableEq, Repr

/-- One half of a command slot (R483): its records, when it was filled, and since when its head has failed
to dispatch (R485). -/
structure Half where
  recs : List LRec
  filled : Nat
  since : Option (BitVec 64)
  /-- Since when its head, a gang operation, waits for banks or tiers (R189). -/
  bankWait : Option (BitVec 64)
deriving DecidableEq, Repr

/-- The fault area's header (R487, R488). -/
structure FaultArea where
  wr : BitVec 7
  lost : BitVec 16
  snap : Bool
deriving DecidableEq, Repr

/-- The command front end. Queues are keyed p × 16 + q (p = 64: the physical function's own), handles
p × 4096 + h, halves slot × 2 + half. -/
structure FrontEnd where
  queues : SMap SwQueue
  handles : SMap Handle
  uses : SMap Nat
  halves : SMap Half
  /-- The local queue a slot chose last (R483). -/
  lastQueue : SMap Nat
  fillSeq : Nat
  flights : List Flight
  gids : SMap Bool
  faultAreas : SMap FaultArea
deriving DecidableEq, Repr

/-! ## Gang operations (chapters 3 and 4) -/

/-- The counts of a step before it commits (R78, R155): flushes (R63), non-finite inputs and outputs, accumulator
saturations and conversion saturations; and the tile-cycles of its passes and of its waits under R99 (a)–(d).
DEDUCED: assumption 79. -/
structure Shadow where
  flush : Nat
  nfIn : Nat
  nfOut : Nat
  accSat : Nat
  convSat : Nat
  busy : Nat
  waitW : Nat
  waitA : Nat
  waitD : Nat
  ramp : Nat
deriving DecidableEq, Repr

/-- A tile's step that has ended and not committed (R153): the passes issued at its end, whether it ended inside
its accumulator group, the accumulator set that drains, and its counts. -/
structure StepEnd where
  pass : Nat
  inside : Bool
  acc : SMap (BitVec 64)
  shadow : Shadow
deriving DecidableEq, Repr

/-- A tile's share of an array operation: passes issued and committed, steps committed, reissues of the step that
is not committed, the elapsed CLK_A of the step that is open, the accumulator set that it adds into (entry
vector × columns + column), whether that step has loaded C under R140, the ended steps, and the parity that the
next reload reads where the last commit was inside a group. -/
structure TileRun where
  issued : Nat
  committed : Nat
  steps : Nat
  reissues : Nat
  elapsed : Nat
  acc : SMap (BitVec 64)
  loaded : Bool
  shadow : Shadow
  ends : List StepEnd
  inside : Bool
deriving DecidableEq, Repr

/-- A vector engine's or compare-and-count unit's share: elements (or rows) committed, steps committed, reissues,
and the matches its unit has counted, keyed by count index (R146). -/
structure UnitRun where
  done : Nat
  steps : Nat
  reissues : Nat
  counts : SMap Nat
deriving DecidableEq, Repr

/-- Why a gang operation stops at its next step ends (R163, R165, R166). -/
inductive GangStop where
  | park
  | abort
  | preempt
deriving DecidableEq, Repr

/-- A gang operation in progress or parked (R21, R133–R166): its record, whether it came from the hot slot, its
partial area (R149), when it last issued or resumed, the shares of its engines (tiles c × 16 + t, vector engines
c, compare-and-count units by bank), the partial results that its tree reduces (R112), the clusters that have
arrived at its barrier, and when the first of them did. -/
structure GangOp where
  lrec : LRec
  hot : Bool
  since : BitVec 64
  tiles : SMap TileRun
  vecs : SMap UnitRun
  cmps : SMap UnitRun
  results : SMap (BitVec 64)
  arrived : List Nat
  firstArrival : Option (BitVec 64)
  stop : Option GangStop
  parkAt : BitVec 64
deriving DecidableEq, Repr

/-- A tile's activity (R119–R121): its level, and whether the hold at BAND_LO has expired. -/
structure TileAct where
  level : Nat
  expired : Bool
deriving DecidableEq, Repr

/-- The gang engines: operations in progress and parked, by partition (each the 64 barrier contexts of R22), and
the activity of tile c × 16 + t. -/
structure GangSt where
  running : SMap (Option GangOp)
  parked : SMap (Option GangOp)
  act : SMap TileAct
deriving DecidableEq, Repr

/-! ## Mover commands (chapter 6) -/

/-- A mover channel's command (R233, R242), its wait, and what its chunk in flight has gathered. -/
structure ChanCmd where
  ref : RecRef
  src : BitVec 64
  dst : BitVec 64
  aux : BitVec 64
  c0 : BitVec 32
  c1 : BitVec 16
  c2 : BitVec 16
  srcS1 : BitVec 32
  srcS2 : BitVec 32
  dstS1 : BitVec 32
  dstS2 : BitVec 32
  done : BitVec 32
  outDone : BitVec 32
  mode : BitVec 16
  ctr : BitVec 16
  inc : BitVec 16
  tag : BitVec 16
  /-- MOV.CHn_STATUS.WAIT (R247). -/
  wait : BitVec 4
  /-- When the miss or page request now open was sent (R225, R228). -/
  since : BitVec 64
  /-- Host source bytes of the chunk at the resume point, where its read has completed. -/
  hostData : Option (List Byte)
  /-- Collisions of the chunk at the resume point (R179). -/
  collided : Nat
  /-- The page-table entry, by partition × 32768 + VPN, whose scrub holds the chunk (R222, R223). -/
  page : Option Nat
  /-- The remote write of the chunk at the resume point has been sent and waits for its CMPL (R362). -/
  sent : Bool
  /-- The completion tags still awaited. -/
  awaits : List (BitVec 40)
  /-- Beats of the chunk at the resume point whose tokens have been drawn (R232, R508). -/
  paid : Nat
  /-- The device address at which the chunk at the resume point last stopped (R489). -/
  failAt : Option (BitVec 64)
deriving DecidableEq, Repr

/-! ## Partitions and contexts (chapter 14) -/

/-- PART.STATUS.STATE (R501). -/
inductive PartSt where
  | free
  | active
  | resetting
deriving DecidableEq, Repr

/-- A cluster operation in progress (R503, R504). -/
structure CluOp where
  op : BitVec 2
  cluster : Fin 64
  expPart : Fin 64
deriving DecidableEq, Repr

/-- A post accepted and not yet landed (R527). -/
structure Post where
  addr : BitVec 64
  words : Nat
  landed : Nat
  /-- Requests of the next word that the HOST regulator has let start (R508): 512 B each. -/
  paid : Nat
  /-- The next word has been asked for. -/
  asked : Bool
deriving DecidableEq, Repr

/-- A partition. -/
structure Part where
  st : PartSt
  cluOp : Option CluOp
  cluErr : BitVec 4
  cluLast : BitVec 6
  /-- The counter clears that wait for a step boundary (R82), one bit per clear register. -/
  clears : BitVec 16
  releaseBusy : Bool
  runCtx : Option (BitVec 4)
  /-- R516: when the running context's quantum ends. -/
  quantumEnd : BitVec 64
  posts : List Post
  /-- R528: the ring's released count, and the lengths of its items, oldest first. -/
  released : BitVec 32
  items : List Nat
  /-- R527: the next word of the oldest post, read from host memory and not yet landed, and whether it failed. -/
  arrived : Option (List Byte × Bool)
  /-- R512: the clusters that the shares of the partition's regulators count. -/
  share : Nat
  /-- R531: a partition reset that waits for a cluster operation to complete. -/
  resetDue : Bool
  /-- R517: a switch of this quantum has been deferred for a collective. -/
  deferred : Bool
  /-- R516: how long the running context has been idle, in ns. -/
  idle : Nat
  /-- R39, R545: the partition has taken a unit fault that its queues have not recovered from. -/
  unitFault : Bool
deriving DecidableEq, Repr

/-- A context's state (R515). -/
inductive CtxSt where
  | free
  | running
  | saving
  | saved
  | restoring
  | suspended
  | lost
deriving DecidableEq, Repr

/-- A wait: where it is held, what for, and until when (R287–R291). -/
structure Wait where
  cluster : Nat
  part : Nat
  counter : Nat
  vid : BitVec 12
  target : BitVec 32
  /-- The deadline, or none for TIMEOUT 31 (R290). -/
  deadline : Option (BitVec 64)
  since : BitVec 64
  ref : RecRef
  prewait : Bool
deriving DecidableEq, Repr

/-- A tagged request held on a slot (R195), or one refused with TAG_BUSY that waits to be sent again. -/
structure TagReq where
  id : Nat
  cluster : Nat
  slot : Nat
  req : NocReq
  op : TagOp
  since : BitVec 64
deriving DecidableEq, Repr

/-- A local context (R514–R523), with what its save took (R517). -/
structure Ctx where
  st : CtxSt
  err : BitVec 4
  cfg : Word
  areas : Word
  set0 : Word
  set1 : Word
  suspendAfter : Bool
  /-- Saved waits with their remaining time in ns, where they have a deadline. -/
  waits : List (Wait × BitVec 64)
  /-- Withdrawn tagged requests. -/
  tags : List TagReq
  flights : List Flight
  /-- Its gang operations, closed as park closes: the one that was preempted, then the one that was parked. -/
  gangs : List GangOp
  chans : List (Nat × ChanCmd)
  /-- Whether its save area holds images of its save sets (R519). -/
  written : Bool
  /-- When its save or restore in progress began. -/
  since : BitVec 64
  /-- The quantum's remaining ns when it was saved early (R518). -/
  left : BitVec 64
deriving DecidableEq, Repr

/-- The partitions, cluster ownership and regulators. Clusters are keyed c (none: the device owns it),
contexts p × 16 + c, regulator tokens p × 5 + r. -/
structure Parts where
  part : SMap Part
  cluster : SMap (Option (Fin 64))
  ctx : SMap Ctx
  tokens : SMap Int
  oversub : BitVec 5
  /-- The µs of the device time base at the last refill (R508). -/
  refill : Nat
deriving DecidableEq, Repr

/-! ## Scratchpad (chapter 5) -/

/-- A bank-owner table entry's state (R183). -/
inductive BankSt where
  | settled
  | pending
  | wiping
  | failed
deriving DecidableEq, Repr

/-- A bank-owner table entry: its state, its owner (none: the device), and HOLE. -/
structure Bank where
  st : BankSt
  owner : Option (Fin 64)
  hole : Bool
  /-- R187 step 2: the former owner whose in-flight commands still touch the bank. -/
  former : Option (Fin 64)
deriving DecidableEq, Repr

/-- A row-map entry of one spare row (R173, R174). -/
structure RowEnt where
  used : Bool
  field : Bool
  bad : Bool
  row : BitVec 10
deriving DecidableEq, Repr

/-- A tier's retention state (R206). Times are when the transition ends. -/
inductive RetSt where
  | awake
  | entering (till : BitVec 64)
  | retained
  | waking (till : BitVec 64)
deriving DecidableEq, Repr

/-- A request held at a bank, tier or (R222) page. -/
structure HeldReq where
  req : NocReq
  op : NocOp
  since : BitVec 64
deriving DecidableEq, Repr

/-- A write refused with COLLIDE that waits to be retried (R179): how often it has collided, and when
it is sent again. -/
structure Retry where
  id : Nat
  req : NocReq
  data : List Byte
  inc : Option ArrInc
  collided : Nat
  due : BitVec 64
deriving DecidableEq, Repr

/-- An arrival increment whose write has landed (R201), on its way to the sync block. -/
structure IncMsg where
  id : Nat
  part : Nat
  cluster : Nat
  counter : Nat
  amount : BitVec 16
deriving DecidableEq, Repr

/-- The stacked scratchpad: bytes keyed by scratchpad address, poisoned words by address ÷ 8, banks by
global index, row-map entries bank × 16 + spare, wipe engines tile × 4 + tier, tiers region × 4 + tier,
tags cluster × 512 + slot (1 FULL). DESIGN CHOICE: assumption 11. -/
structure Pad where
  mem : SMap Byte
  poison : SMap Bool
  bank : SMap Bank
  rowMap : SMap RowEnt
  wipe : SMap (Option Nat)
  ret : SMap RetSt
  held : List HeldReq
  retries : List Retry
  incs : List IncMsg
  tags : SMap Bool
  tagHeld : List TagReq
  tagBusy : List TagReq
  nextId : Nat
  /-- What the latest read returned to its requester (the model's own output fields). -/
  readData : List Byte
  readTag : Bool
deriving DecidableEq, Repr

/-! ## Cellar and movers (chapter 6) -/

/-- A byte of the cellar as the stack holds it: the key it was written under (0: never written), and the
plain byte. -/
structure CelByte where
  key : Nat
  val : Byte
deriving DecidableEq, Repr

/-- A miss record (R225). -/
structure Miss where
  write : Bool
  part : Fin 64
  chan : Fin 512
  vpn : Fin 32768
deriving DecidableEq, Repr

/-- The cellar: bytes keyed by physical offset, poisoned 64 B units by offset ÷ 64, page-table entries
p × 32768 + vpn, keys by slot (64: the device's; 0: none), the key a page was last scrubbed under, miss
queue, mover channels cluster × 8 + channel, PRG indices in use, cached translations. -/
structure Cellar where
  mem : SMap CelByte
  poison : SMap Bool
  pte : SMap (BitVec 64)
  /-- R223: entries whose V has been cleared by a write that has not yet acted, with the value written. -/
  unmapping : SMap (Option (BitVec 64))
  keys : SMap Nat
  nextKey : Nat
  pageKey : SMap Nat
  misses : List Miss
  chans : SMap (Option ChanCmd)
  prg : SMap Bool
  atc : List (Fin 65 × Nat)
  /-- R229: invalidations that wait for the accesses using the dropped translations. -/
  inval : List (BitVec 5 × Fin 65 × Nat × Nat)
deriving DecidableEq, Repr

/-! ## Queue primitive (chapter 7) -/

/-- A queued word and its flags (R250). -/
structure QWord where
  data : List Byte
  eoi : Bool
  idle : Bool
  poison : Bool
  broken : Bool
deriving DecidableEq, Repr

/-- One queue instance (R251–R272). `used` is D less the producer's credits. -/
structure QueueSt where
  words : List QWord
  w : Nat
  rp : Nat
  used : Nat
  /-- The consumer has read the first word of an item and not its last. -/
  inRead : Bool
  /-- Words the producer has written of the item it is in. -/
  inWrite : Nat
  /-- A word of that item carries POISON, as its EOI word will (R267). -/
  taint : Bool
  /-- R263, R269, R271: the producer's words are discarded up to its EOI word. -/
  dropping : Bool
  /-- R263, R269: one further all-zero word with EOI and BROKEN is owed to the consumer. -/
  owed : Bool
  flushing : Bool
  wm : Bool
deriving DecidableEq, Repr

/-- The queue instances (keyed as Machine/Queue.lean numbers them) and the STALL_N pins (R266).
DESIGN CHOICE: assumption 11. -/
structure Queues where
  inst : SMap QueueSt
  /-- What the latest read delivered (the model's own output field). -/
  readWord : Option QWord
  stallDriven : BitVec 4
  stallSince : SMap (BitVec 64)
  stallSampled : BitVec 4
deriving DecidableEq, Repr

/-! ## Synchronisation (chapter 8) -/

/-- An add or set in a sync block's input queue (R294). -/
inductive SyncMsg where
  | add (part counter : Nat) (amount : BitVec 16) (ref : Option RecRef)
  | set (part counter : Nat) (value : BitVec 32) (ref : RecRef)
deriving DecidableEq, Repr

/-- Bramble's state for one partition (R299–R301); `quiet` in ns. -/
structure Bramble where
  quiet : Nat
  counted : Bool
  frozen : Bool
  ext : Bool
  frozenAt : BitVec 64
  heldAny : Bool
  heldWaits : List Wait
  heldTags : List TagReq
deriving DecidableEq, Repr

/-- Counters (cluster × 256 + n), translation entries (p × 4096 + vid), held waits, waits retrying after
WAIT_BUSY, late targets, input queues and Bramble. -/
structure Sync where
  count : SMap (BitVec 32)
  vmap : SMap (BitVec 32)
  waits : List Wait
  retrying : List Wait
  late : SMap (Option (BitVec 32))
  input : SMap (List SyncMsg)
  bramble : SMap Bramble
deriving DecidableEq, Repr

/-! ## Power, clocks, management bus and pins (chapter 17) -/

/-- A temperature sensor (R553, R604, R606): its last valid reading in 0.125 °C, whether it has had one, consecutive
discards, whether it has failed, and consecutive valid samples at its trip threshold. -/
structure Sensor where
  raw : BitVec 16
  valid : Bool
  discards : Nat
  failed : Bool
  hits : Nat
deriving DecidableEq, Repr

/-- Power (R592–R607). Powers are in 0.1 W; sensors are keyed as TEMP_SEL, rails as R592 orders them. -/
structure Pwr where
  /-- The skip ratio. -/
  k : Nat
  /-- A written BOARD_CAP that acts at the next evaluation (R621). -/
  boardCap : Option Word
  p10ms : BitVec 16
  p100us : BitVec 16
  pClk : BitVec 16
  /-- Evaluations of the controller since cold reset, one per µs. -/
  evals : Nat
  /-- When the thermal check last raised k, and when SAT last added a record. -/
  thermalAt : Option (BitVec 64)
  sat : Bool
  satAt : Option (BitVec 64)
  trip : Bool
  /-- THERM_N is low under R604. -/
  warn : Bool
  /-- PWR.ARRAY_REQ, whether it is PENDING and since when, and PWR.ARRAY_MEAS. -/
  req : BitVec 10
  reqPending : Bool
  reqAt : BitVec 64
  meas : BitVec 10
  railOk : BitVec 9
  railFault : BitVec 9
  /-- RAIL_DATA of each rail. -/
  rails : SMap Word
  /-- When VDD_AUX was last out of tolerance (R562, R598); it still is while its OK bit is 0. -/
  auxAt : Option (BitVec 64)
  sensors : SMap Sensor
deriving DecidableEq, Repr

/-- Clocks and the time base (R608–R612). -/
structure Clk where
  /-- Lost reference clocks: bit 0 SYS, 1 PCIE, 2 LINK. -/
  lost : BitVec 3
  locked : Bool
  armed : Option (BitVec 64)
  /-- The last error e, and the errors of the last 16 accepted edges, newest first, in ns. -/
  err : Int
  errs : List Int
  trim : BitVec 24
  /-- Consecutive accepted edges with |e| ≤ 20 ns, and consecutive ignored or missing ones. -/
  good : Nat
  bad : Nat
  lastEdge : Option (BitVec 64)
  /-- When the missing edge last counted was due. -/
  missFrom : Option (BitVec 64)
  /-- The correction that is spread over 1 ms: its size in ns, how much has been made, and how many ns have passed. -/
  slew : Int
  slewDone : Int
  slewNs : Nat
  /-- When TICK_OUT falls, while it is high, and when a repeated edge rises (R610). -/
  tickOutTill : Option (BitVec 64)
  tickOutAt : Option (BitVec 64)
deriving DecidableEq, Repr

/-- The states of the IEEE 1149.1 controller. -/
inductive TapSt where
  | reset | idle
  | drSelect | drCapture | drShift | drExit1 | drPause | drExit2 | drUpdate
  | irSelect | irCapture | irShift | irExit1 | irPause | irExit2 | irUpdate
deriving DecidableEq, Repr

/-- The test access port: its state, instruction, data register being shifted, boundary update register, and TDO (none:
high impedance). -/
structure Tap where
  st : TapSt
  instr : TapInstr
  dr : List Bool
  boundary : List Bool
  tdo : Option Bool
deriving DecidableEq, Repr

/-- The management block and the sideband pins (R613–R618, R623). DESIGN CHOICE: assumption 11. -/
structure Mgmt where
  /-- The command address of command 0x10. -/
  addr : Word
  /-- What the last transfer returned, and whether it was acknowledged (the model's own output fields). -/
  data : List Byte
  ack : Bool
  /-- When the management block answers again after a reset (R598, R616). -/
  upAt : BitVec 64
  /-- PIN_LEVEL. -/
  pins : BitVec 9
  tap : Tap
deriving DecidableEq, Repr

/-! ## Links and topology (chapter 10) -/

/-- A DATA flit that a receiver holds (R355): its sequence number, virtual channel, packet marks, body and the
member that carried it; `broken` ends a packet cut short (R389). -/
structure RxFlit where
  seq : BitVec 12
  vc : BitVec 3
  sop : Bool
  eop : Bool
  body : List Byte
  member : Fin 16
  /-- Reading the flit returns a credit of its member. -/
  credit : Bool
  broken : Bool
deriving DecidableEq, Repr

/-- A DATA flit in a replay buffer (R366): the flit, and the packet header it belongs to. -/
structure TxFlit where
  seq : BitVec 12
  flit : Flit
  pkt : BitVec 128
deriving DecidableEq, Repr

/-- A replay in progress (R369, R370): the SEQ of its first and last flits. -/
structure Replay where
  first : BitVec 12
  last : BitVec 12
deriving DecidableEq, Repr

/-- The identity of a peer's IDENT (R380, R381), the epoch in which it arrived, and when. -/
structure Ident where
  serial : BitVec 64
  phys : BitVec 14
  port : BitVec 4
  logical : BitVec 14
  dir : BitVec 3
  epoch : BitVec 8
  at_ : BitVec 64
deriving DecidableEq, Repr

/-- A link port (R356–R384). Credits are counted as those spent, by virtual channel; `owed` are those to return. -/
structure LinkSt where
  st : BitVec 4
  since : BitVec 64
  fails : Nat
  replay : Option Replay
  lastGood : BitVec 12
  discard : Bool
  held : List RxFlit
  buf : List TxFlit
  spent : SMap Nat
  owed : SMap Nat
  ackAt : BitVec 64
  ident : Option Ident
  identSent : Option (BitVec 64)
  result : BitVec 4
  other : BitVec 4
  /-- The link trains because of an epoch change (R382, R384); in QUARANTINED, an epoch change has come. -/
  epochTrain : Bool
  /-- When the link last entered QUINCE (R380). -/
  quinceAt : BitVec 64
deriving DecidableEq, Repr

/-- A packet that waits to be sent: its class and dateline, its header and what is left of its flit bodies. -/
structure OutPkt where
  vc : BitVec 3
  hdr : BitVec 128
  bodies : List (List Byte)
  first : Bool
deriving DecidableEq, Repr

/-- A logical port (R353–R388): state 0 DOWN, 1 ACTIVE, 2 RESYNC; the next SEQ to send and the last ACK applied; the
last SEQ delivered; packets that wait to be sent; delivered flits by virtual channel; the class served last. -/
structure PortSt where
  st : BitVec 4
  next : BitVec 12
  acked : BitVec 12
  delivered : Option (BitVec 12)
  txq : List OutPkt
  rx : SMap (List RxFlit)
  rr : Nat
  lastMember : Nat
  /-- An acknowledgement is due in the next outgoing flit (R367). -/
  ackDue : Bool
  resyncAt : BitVec 64
deriving DecidableEq, Repr

/-- A flood heard (R391): origin, identifier and when. -/
structure FloodSeen where
  origin : BitVec 14
  ident : BitVec 16
  at_ : BitVec 64
deriving DecidableEq, Repr

/-- The links: link ports, logical ports (6: packets that this device sends to itself), the coordinate map by
logical coordinate (the values in force and those staged), floods heard, and the flits sent, in order.
DESIGN CHOICE: assumption 11. -/
structure Links where
  link : SMap LinkSt
  port : SMap PortSt
  map : SMap Word
  mapStaged : SMap (Option Word)
  floods : List FloodSeen
  floodSeq : BitVec 16
  out : List (Fin 16 × Flit)
deriving DecidableEq, Repr

/-! ## Pipeline stage engine (chapter 9) -/

/-- A micro-batch ledger entry (R326). -/
structure LedgerEnt where
  tag : BitVec 16
  st : BitVec 4
  late : Bool
  spilled : Bool
  abandoned : Bool
  slot : BitVec 8
  gbuf : BitVec 8
  cslot : BitVec 16
  inWords : BitVec 32
  moveWords : BitVec 32
  gradWords : BitVec 32
  sentWords : BitVec 32
  step : BitVec 64
  tFwd : BitVec 64
  tBwd : BitVec 64
deriving DecidableEq, Repr

/-- The outstanding stage invocation (R315): its program (0 forward, 1 recompute, 2 backward, 3 update), its ledger
entry, and the number of its ring entry. -/
structure StgInv where
  prog : BitVec 2
  entry : Nat
  num : BitVec 17
deriving DecidableEq, Repr

/-- A gradient buffer in use (R316, R322): the backward sequence entry it serves, and the words captured. -/
structure GradBuf where
  pos : Nat
  words : Nat
  done : Bool
deriving DecidableEq, Repr

/-- A send in progress (R318): its ledger entry, the words handed to the queue, the words sent toward the peer, and
whether the program has completed. -/
structure StgSend where
  entry : Nat
  offered : Nat
  sent : Nat
  complete : Bool
deriving DecidableEq, Repr

/-- A spill or prefetch (R333, R334): its ledger entry, its cellar slot and the words moved. -/
structure StgMove where
  entry : Nat
  cslot : Nat
  words : Nat
deriving DecidableEq, Repr

/-- An item that the link path packs into words (R363): its tag, the bytes received, those not yet a whole word, and
whether a packet of it was lost. -/
structure StgAsm where
  tag : BitVec 16
  got : Nat
  bytes : List Byte
  broken : Bool
deriving DecidableEq, Repr

/-- A JOB_FAULT that waits to be handled (R344): cause, micro-batch, whether it fell inside the critical section
(R346), and whether a flood brought it. -/
structure JobFault where
  cause : BitVec 8
  mb : BitVec 12
  crit : Bool
  flood : Bool
deriving DecidableEq, Repr

/-- The stage engine. Maps by queue number (0 FWD_IN, 1 GRAD_IN, 2 FWD_OUT, 3 GRAD_OUT, 4 RECOMPUTE) or by direction
(0 forward, 1 gradient). -/
structure Stg where
  /-- STG.STATUS.STATE. -/
  st : BitVec 4
  entryErr : BitVec 4
  throttled : Bool
  stepsLeft : BitVec 16
  ledger : SMap LedgerEnt
  alloc : Nat
  cstash : SMap Word
  /-- Forward entries admitted and dispatched, backward entries dispatched and completed, in this step. -/
  admitted : Nat
  fwd : Nat
  bwd : Nat
  bwdDone : Nat
  /-- The backward entry that GRAD_IN capture takes next, the gradient buffer that it fills, and the backward entry
  last counted as late (R336). -/
  gradNext : Nat
  gcap : Option Nat
  lateAt : Option Nat
  inv : Option StgInv
  /-- Tags of the items in each queue, oldest first (R313). -/
  tags : SMap (List (BitVec 16))
  asm : SMap (Option StgAsm)
  /-- The ledger entry that FWD_IN capture fills, with the words taken. -/
  capture : Option (Nat × Nat)
  gbufs : SMap (Option GradBuf)
  send : SMap (Option StgSend)
  spill : Option StgMove
  prefetch : List StgMove
  /-- Stage credits held, and words that have left the receive queues since the last CREDIT (R363). -/
  credits : SMap Nat
  returned : SMap Nat
  /-- R341: commands of the update program are discarded up to and including CRIT_EXIT. -/
  skipping : Bool
  fault : JobFault
  pendingFault : Option JobFault
  /-- The copy of the invocation's ledger record that INFO names (R316), 64 B. -/
  info : List Byte
deriving DecidableEq, Repr

/-! ## Collective engine (chapter 11) -/

/-- What an UP_END carries (R407). -/
structure UpEnd where
  contrib : BitVec 32
  low : BitVec 16
  members : BitVec 16
  pip : Bool
  lossSum : BitVec 32
  lossCount : BitVec 64
deriving DecidableEq, Repr

/-- A child's up phase: the pieces of wire data by byte offset, its end, and whether it has been refused (R409). -/
structure CollChild where
  pieces : List (Nat × List Byte)
  fin : Option UpEnd
  refused : Bool
deriving DecidableEq, Repr

/-- A VERDICT_UP's contribution (R420). -/
structure VerdictUp where
  pip : Bool
  lossSum : BitVec 32
  lossCount : BitVec 64
deriving DecidableEq, Repr

/-- A verdict (R422): the four bits, the mean, the count. -/
structure Verdict where
  bits : BitVec 4
  mean : Option (BitVec 32)
  lossCount : BitVec 64
deriving DecidableEq, Repr

/-- A snapshot in progress (R429): when it started, each port's next SEQ then, and the last SEQ delivered before each
port's marker. -/
structure SnapSt where
  time : BitVec 64
  next : List (Nat × BitVec 12)
  last : List (Nat × BitVec 12)
deriving DecidableEq, Repr

/-- A collective command that runs at this device: its record, when it started and when its contribution was ready,
its pip bit and the carried count added to its own (R413), whether its acceptance set is fixed, its up phase sent. -/
structure CollRun where
  ref : RecRef
  start : BitVec 64
  ready : BitVec 64
  pip : Bool
  carried : BitVec 32
  fixed : Bool
  sentUp : Bool
  /-- The group's result has been written, and only the verdict round is left; with the group's pip bit, contributor
  count and loss values. -/
  landed : Bool
  groupPip : Bool
  groupContrib : BitVec 32
  lossSum : BitVec 32
  lossCount : BitVec 64
  /-- R411: this member was refused; the partial, pip bit and count that its carry area takes at commit. -/
  refused : Bool
  carry : Option (List (BitVec 32) × Bool × BitVec 32)
deriving DecidableEq, Repr

/-- What LATE_REQ is served from (R412): the SEQ of the last committed collective, its record, its wire result and its
contributor count. -/
structure CollLast where
  seq : BitVec 12
  wire : List Byte
  contrib : BitVec 32
deriving DecidableEq, Repr

/-- A collective context (R397–R429). Maps are by logical port. -/
structure CollCtx where
  seq : BitVec 12
  attempt : Bool
  commits : BitVec 64
  run : Option CollRun
  kids : SMap CollChild
  down : List (Nat × List Byte)
  downEnd : Option (BitVec 32)
  /-- A REFUSE has arrived and its command has not answered it yet. -/
  refuse : Bool
  last : Option CollLast
  lateReqs : List Nat
  vUps : SMap (Option VerdictUp)
  vSent : Bool
  vDown : Option Verdict
  barUps : List Nat
  barSent : Bool
  snap : Option SnapSt
deriving DecidableEq, Repr

/-- The collective engine: contexts by number, and the last verdict with SKIP that CRIT_ENTER reads (R424). -/
structure Coll where
  ctx : SMap CollCtx
  lastSkip : Bool
deriving DecidableEq, Repr

/-! ## Checkpoint engine (chapter 12) -/

/-- A shard of a checkpoint being sent (R441–R443): whether it has been sent, acknowledged, resent, and when its
SHARD_END went. -/
structure ShardTx where
  sent : Bool
  acked : Bool
  resent : Bool
  endAt : BitVec 64
deriving DecidableEq, Repr

/-- A manifest entry (R453's table): shard number, region, kind (1 bank), offset in the region, length, digest. -/
structure ManEnt where
  shard : BitVec 32
  region : BitVec 16
  bank : Bool
  offset : BitVec 64
  len : BitVec 32
  sha : BitVec 256
deriving DecidableEq, Repr

/-- A manifest: its header and entries. -/
structure Manifest where
  owner : BitVec 14
  cseq : BitVec 12
  step : BitVec 64
  scope : BitVec 256
  time : BitVec 64
  ents : List ManEnt
deriving DecidableEq, Repr

/-- A journal entry (R442): the shard, the plane-coded delta, and whether the slot existed before. -/
structure JournalEnt where
  shard : Nat
  coded : List Byte
  existed : Bool
  oldSha : BitVec 256
deriving DecidableEq, Repr

/-- A half of the buddy area (R440–R446): the committed manifest, the digests of the image slots, the journal, the
shard being received, the CSEQ that a full journal refuses, and the checkpoint number of what the journal holds. -/
structure BuddyHalf where
  committed : Option Manifest
  slots : SMap (Option (BitVec 256 × Nat))
  journal : List JournalEnt
  rx : SMap (List (Nat × List Byte))
  refuse : Option (BitVec 12)
  cseq : BitVec 12
deriving DecidableEq, Repr

/-- A restore's standing with one buddy (R448): whether it has begun to answer, when it last did, what has arrived of
the shards, which have matched, and which failed once. -/
structure PullSt where
  answered : Bool
  at_ : BitVec 64
  rx : SMap (List (Nat × List Byte))
  matched : List Nat
  failed : List Nat
deriving DecidableEq, Repr

/-- The checkpoint engine. -/
structure Ckpt where
  /-- CKPT.STATUS. -/
  st : BitVec 4
  err : BitVec 4
  cseq : BitVec 12
  take : Bool
  full : Bool
  restore : Bool
  toCommitted : Bool
  scope : SMap Word
  /-- R438: bank dirty bits, and the capture set. -/
  bankDirty : SMap Bool
  capture : List Nat
  tx : SMap ShardTx
  step : BitVec 64
  capturedAt : BitVec 64
  /-- Boundaries since the last capture, and what has been raised since (R436). -/
  boundaries : Nat
  warned : Bool
  selected : Bool
  prevFailed : Bool
  afterRestore : Bool
  /-- R341: the checkpoint of the previous boundary has been captured and not committed. -/
  uncommitted : Bool
  /-- Whether buddies A and B hold an image of this device (R438). -/
  holds : SMap Bool
  half : SMap BuddyHalf
  pull : SMap (Option PullSt)
  /-- Times of replays started (CKPT.WARN.REPLAY_RATE), newest first. -/
  replays : List (BitVec 64)
deriving DecidableEq, Repr

/-! ## The state -/

/-- The whole state of the block. -/
structure State where
  /-- The commands that wait, first in, first out. -/
  pending : List Instr
  sys : Sys
  bus : Bus
  host : HostIf
  err : Err
  sloe : Sloe
  fuse : Fuse
  region : SMap RegionPt
  pwr : Pwr
  clk : Clk
  mgmt : Mgmt
  fe : FrontEnd
  parts : Parts
  pad : Pad
  cel : Cellar
  que : Queues
  syn : Sync
  gang : GangSt
  lk : Links
  stg : Stg
  coll : Coll
  ckpt : Ckpt
deriving DecidableEq, Repr

/-! ## Reset -/

/-- The device-wide state while SYS_RESET_N is low (R35, R591). DESIGN CHOICE: assumptions 7, 9, 13. -/
def Sys.reset : Sys :=
  { started := false, phase := 1, bootErr := 0, stageMode := false, imageB := false, cellarCopy := false
    bootMode := 0, slotId := 0, lastReset := 0, flashRelease := false, sramDone := false, warm := none
    warmIgnored := 0, time := 0, imageVersion := 0, coldResets := 0, warmResets := 0, tenancyLock := false
    deviceKey := false, pcieHeld := true, pcieUp := false, freeCtr := 0 }

/-- The fuses and the flash of a grade-A device as shipped (R5, R557). Vendor, stepping and serial 0.
DESIGN CHOICE: assumption 12. -/
def Fuse.reset : Fuse :=
  { vendor := 0, stepping := 0, grade := 0, serial := 0, disabled := [], fusedOut := [], tileOut := []
    downgrades := 0, lowerings := 0, floorPs := 50, revoked := 0, revocations := 0, audit := [], auditSeq := 0
    auditBad := false, op := none, retiredPages := [], plan := [] }

/-- The host interface at reset (R566). PRESUMED: assumption 16. -/
def HostIf.reset : HostIf :=
  { config := [], vfEnable := false, numVFs := 0, msixPending := [], reads := [], nextRead := 0, aer := [], outbox := [] }

/-- The stage engine at reset (R348). DESIGN CHOICE: assumption 9. -/
def Stg.reset : Stg :=
  { st := 0, entryErr := 0, throttled := false, stepsLeft := 0, ledger := [], alloc := 0, cstash := [], admitted := 0
    fwd := 0, bwd := 0, bwdDone := 0, gradNext := 0, gcap := none, lateAt := none, inv := none, tags := [], asm := []
    capture := none, gbufs := [], send := [], spill := none, prefetch := [], credits := [], returned := []
    skipping := false, fault := ⟨0, 0xFFF, false, false⟩, pendingFault := none, info := [] }

/-- The checkpoint engine at reset (R455). DESIGN CHOICE: assumption 9. -/
def Ckpt.reset : Ckpt :=
  { st := 0, err := 0, cseq := 0, take := false, full := false, restore := false, toCommitted := false, scope := []
    bankDirty := [], capture := [], tx := [], step := 0, capturedAt := 0, boundaries := 0, warned := false
    selected := false, prevFailed := false, afterRestore := false, uncommitted := false, holds := [], half := []
    pull := [], replays := [] }

/-- Power at reset (R593, R602, R621): the rails hold within tolerance and `VDD_ARRAY` is at 800 mV.
DESIGN CHOICE: assumptions 9, 13. -/
def Pwr.reset : Pwr :=
  { k := 0, boardCap := none, p10ms := 0, p100us := 0, pClk := 0, evals := 0, thermalAt := none, sat := false
    satAt := none, trip := false, warn := false, req := 800, reqPending := false, reqAt := 0, meas := 0
    railOk := 0x1FF, railFault := 0, rails := [], auxAt := none, sensors := [] }

/-- Clocks at reset (R622). DESIGN CHOICE: assumptions 9, 13. -/
def Clk.reset : Clk :=
  { lost := 0, locked := false, armed := none, err := 0, errs := [], trim := 0, good := 0, bad := 0, lastEdge := none
    missFrom := none, slew := 0, slewDone := 0, slewNs := 0, tickOutTill := none, tickOutAt := none }

/-- The management block at reset (R615, R623). WARM_RESET_N and STALL_N high, the other pins low.
DESIGN CHOICE: assumption 13. -/
def Mgmt.reset : Mgmt :=
  { addr := 0, data := [], ack := false, upAt := 0, pins := 0x0F2
    tap := ⟨.reset, .idcode, [], List.replicate 35 false, none⟩ }

/-- The machine right after reset: SYS_RESET_N is low, and nothing has started (R35).
DESIGN CHOICE: assumption 9; DEDUCED: assumption 10. -/
def State.reset : State :=
  { pending := []
    sys := Sys.reset
    bus := { regs := [], staged := [], commits := [], latches := [], wbufs := [], readData := 0 }
    host := HostIf.reset
    err := { ring := [], first := none, device := false, tracker := [], ceTimes := [], retired := []
             cellarDegraded := false, decided := [], expiries := [] }
    sloe := { row := 0, patrolUnit := 0, last := 0 }
    fuse := Fuse.reset
    region := []
    pwr := Pwr.reset
    clk := Clk.reset
    mgmt := Mgmt.reset
    fe := { queues := [], handles := [], uses := [], halves := [], lastQueue := [], fillSeq := 0, flights := []
            gids := [], faultAreas := [] }
    parts := { part := [], cluster := [], ctx := [], tokens := [], oversub := 0, refill := 0 }
    pad := { mem := [], poison := [], bank := [], rowMap := [], wipe := [], ret := [], held := [], retries := []
             incs := [], tags := [], tagHeld := [], tagBusy := [], nextId := 0, readData := [], readTag := false }
    cel := { mem := [], poison := [], pte := [], unmapping := [], keys := [], nextKey := 1, pageKey := [], misses := []
             chans := [], prg := [], atc := [], inval := [] }
    que := { inst := [], readWord := none, stallDriven := 0, stallSince := [], stallSampled := 0 }
    syn := { count := [], vmap := [], waits := [], retrying := [], late := [], input := [], bramble := [] }
    gang := { running := [], parked := [], act := [] }
    lk := { link := [], port := [], map := [], mapStaged := [], floods := [], floodSeq := 0, out := [] }
    stg := Stg.reset
    coll := { ctx := [], lastSkip := false }
    ckpt := Ckpt.reset }

end Sys2Proof.Machine
end

