-- ==== Sys2Proof/Machine/Regs.lean ====
section
/-! DEFINITION. The register map: pages (R624, R625), register specifications (R626–R630, R646), and the
reset value, writable bits and field ranges of each register. -/

namespace Sys2Proof.Machine

/-- Page types (R624, R628). -/
inductive PageKind where
  | glb | pwr | clk | age | fuse | mgmt | err | sloe | cel | stg | coll | ckpt | route
  | lnk | port | fe | slot | part | htab | budget | clu | bot | sync | mov | vec
  | msixTable | msixPba
deriving DecidableEq, Repr

/-- A page: its type and instance number. -/
structure PageId where
  kind : PageKind
  inst : Nat
deriving DecidableEq, Repr

/-- The page at physical-function page index `n` (R624); none where the index is reserved. -/
def pageAt (n : Nat) : Option PageId :=
  if n < 13 then
    [PageKind.glb, .pwr, .clk, .age, .fuse, .mgmt, .err, .sloe, .cel, .stg, .coll, .ckpt, .route][n]?.map
      fun k => ⟨k, 0⟩
  else if 0x10 ≤ n ∧ n < 0x20 then some ⟨.lnk, n - 0x10⟩
  else if 0x20 ≤ n ∧ n < 0x26 then some ⟨.port, n - 0x20⟩
  else if 0x40 ≤ n ∧ n < 0x81 then some ⟨.fe, n - 0x40⟩
  else if 0x100 ≤ n ∧ n < 0x180 then some ⟨.slot, n - 0x100⟩
  else if 0x180 ≤ n ∧ n < 0x1C0 then some ⟨.part, n - 0x180⟩
  else if 0x1C0 ≤ n ∧ n < 0x200 then some ⟨.htab, n - 0x1C0⟩
  else if 0x200 ≤ n ∧ n < 0x240 then some ⟨.budget, n - 0x200⟩
  else if 0x240 ≤ n ∧ n < 0x280 then some ⟨.clu, n - 0x240⟩
  else if 0x280 ≤ n ∧ n < 0x2C0 then some ⟨.bot, n - 0x280⟩
  else if 0x2C0 ≤ n ∧ n < 0x300 then some ⟨.sync, n - 0x2C0⟩
  else if 0x300 ≤ n ∧ n < 0x340 then some ⟨.mov, n - 0x300⟩
  else if 0x340 ≤ n ∧ n < 0x380 then some ⟨.vec, n - 0x340⟩
  else if n = 0x3FFE then some ⟨.msixTable, 0⟩
  else if n = 0x3FFF then some ⟨.msixPba, 0⟩
  else none

/-- The physical-function page index of the first page of a type (R624). -/
def PageKind.index : PageKind → Nat
  | .glb => 0x00 | .pwr => 0x01 | .clk => 0x02 | .age => 0x03 | .fuse => 0x04 | .mgmt => 0x05
  | .err => 0x06 | .sloe => 0x07 | .cel => 0x08 | .stg => 0x09 | .coll => 0x0A | .ckpt => 0x0B
  | .route => 0x0C | .lnk => 0x10 | .port => 0x20 | .fe => 0x40 | .slot => 0x100 | .part => 0x180
  | .htab => 0x1C0 | .budget => 0x200 | .clu => 0x240 | .bot => 0x280 | .sync => 0x2C0
  | .mov => 0x300 | .vec => 0x340 | .msixTable => 0x3FFE | .msixPba => 0x3FFF

/-- The BAR0 byte offset of a page; the MSI-X table and pending bits of virtual function `n` (R567), which
the physical function's BAR does not show, are keyed above the BAR. -/
def PageId.base (p : PageId) : Nat :=
  match p.kind with
  | .msixTable => if p.inst = 0 then 0x3FFE000 else 0x4000000 + p.inst * 0x10000 + 0xE000
  | .msixPba => if p.inst = 0 then 0x3FFF000 else 0x4000000 + p.inst * 0x10000 + 0xF000
  | k => (k.index + p.inst) * 0x1000

/-- Access codes (R630). -/
inductive Acc where
  | ro | rw | rws | w1c | w1s | wo | rc | rwl
deriving DecidableEq, Repr

/-- A run of `n` registers at one offset: access, reset value, the bits that a write stores or acts on, and
the read-only bits that a write may carry without effect. Every other bit is reserved. -/
structure RegSpec where
  off : Nat
  n : Nat
  acc : Acc
  reset : Word
  wmask : Word
  ro : Word := 0
deriving DecidableEq, Repr

/-- The page type code of ID (R628). -/
def PageKind.typeCode : PageKind → BitVec 8
  | .glb => 0x01 | .pwr => 0x02 | .clk => 0x03 | .age => 0x04 | .fuse => 0x05 | .fe => 0x06
  | .slot => 0x07 | .part => 0x08 | .htab => 0x09 | .budget => 0x0A | .clu => 0x0B | .bot => 0x0C
  | .sync => 0x0D | .mov => 0x0E | .vec => 0x0F | .stg => 0x10 | .lnk => 0x11 | .port => 0x12
  | .route => 0x13 | .coll => 0x14 | .ckpt => 0x15 | .cel => 0x16 | .sloe => 0x17 | .err => 0x18
  | .mgmt => 0x19 | .msixTable => 0 | .msixPba => 0

/-- The defined bits of INT_STATUS (R642 and the page chapters). -/
def PageKind.intMask : PageKind → Word
  | .glb => 0x7 | .pwr => 0xF | .clk => 0x3 | .age => 0x3 | .fuse => 0x3 | .mgmt => 0x3 | .err => 0xF
  | .cel => 0x3 | .stg => 0xF | .coll => 0xF | .ckpt => 0xF | .route => 0x7 | .lnk => 0x7 | .port => 0x3
  | .fe => 0x7 | .part => 0xF | .budget => 0x1 | .clu => 0x3 | .bot => 0x7 | .sync => 0x1 | .mov => 0x1
  | _ => 0

/-- INT_ENABLE at reset (R626). -/
def PageKind.intEnableReset : PageKind → Word
  | .glb => 0x3 | .pwr => 0xE | .err => 0xC | _ => 0

/-- A queue register block (R274) at `base`; `depthLog2` is the instance's depth where its chapter fixes it (R249), and
0 where it is configured: Q_WM then holds 0 until it is written, and reads as three and one quarter of the depth. -/
def queueBlock (base : Nat) (depthLog2 : Nat) : List RegSpec :=
  let d := 2 ^ depthLog2
  [ ⟨base, 1, .rws, 0, 0xDF00FFFF, 0⟩,
    ⟨base + 4, 1, .rws, BitVec.ofNat 32 ((d * 3 / 4) * 65536 + d / 4), 0xFFFFFFFF, 0⟩,
    ⟨base + 8, 1, .ro, 0, 0, 0⟩, ⟨base + 0xC, 1, .wo, 0, 1, 0⟩, ⟨base + 0x10, 6, .ro, 0, 0, 0⟩ ]

/-- The 16 software-queue blocks of an FE page (R497). -/
def feQueueRegs : Nat → List RegSpec
  | 0 => []
  | n + 1 =>
    let b := 0x100 + 64 * n
    feQueueRegs n ++
    [ ⟨b, 1, .rws, 0, 0xCF000000, 0⟩, ⟨b + 0x04, 1, .rws, 0, 0x001F0FFF, 0⟩,
      ⟨b + 0x08, 1, .rws, 0, 0xFFFFFFFF, 0⟩, ⟨b + 0x0C, 1, .rws, 0, 0xFFFFFFFF, 0⟩,
      ⟨b + 0x10, 1, .rws, 0, 0x001F0FFF, 0⟩, ⟨b + 0x14, 1, .rws, 0, 0xFFFFFFFF, 0⟩,
      ⟨b + 0x18, 1, .rws, 0, 0xFFFFFFFF, 0⟩, ⟨b + 0x1C, 1, .wo, 0, 0x0001FFFF, 0⟩,
      ⟨b + 0x20, 2, .ro, 0, 0, 0⟩, ⟨b + 0x28, 1, .rw, 0, 0x0001FFFF, 0⟩,
      ⟨b + 0x2C, 1, .ro, 0, 0, 0⟩, ⟨b + 0x30, 1, .wo, 0, 0x3, 0⟩, ⟨b + 0x34, 1, .ro, 0, 0, 0⟩ ]

/-- The block registers of each page type (R646 and the page chapters), beside the common registers. A
common register that the page's chapter defines is listed here and found first. -/
def PageKind.regs : PageKind → List RegSpec
  | .glb => [⟨0x008, 1, .wo, 0, 0x8000FF03, 0⟩, ⟨0x040, 7, .ro, 0, 0, 0⟩, ⟨0x0C0, 1, .rwl, 0, 1, 0⟩]
  | .err => [⟨0x008, 1, .w1s, 0, 3, 0⟩, ⟨0x040, 1, .rws, 0x0A080000, 0xFFFF00FF, 0⟩,
      ⟨0x044, 2, .ro, 0, 0, 0⟩, ⟨0x050, 22, .ro, 0, 0, 0⟩, ⟨0x400, 32, .ro, 0, 0, 0⟩]
  | .age => [⟨0x040, 1, .rws, 0x1E0305DC, 0xFF0F07FF, 0⟩, ⟨0x044, 1, .ro, 0, 0, 0⟩,
      ⟨0x048, 1, .rw, 0, 0xF, 0⟩, ⟨0x04C, 5, .ro, 0, 0, 0⟩]
  | .fuse => [⟨0x040, 1, .rwl, 0, 0x80003F0F, 0⟩, ⟨0x044, 1, .rwl, 0, 1, 0⟩,
      ⟨0x048, 1, .rwl, 0, 0x80000007, 0⟩, ⟨0x04C, 1, .rw, 0, 0x3F, 0⟩, ⟨0x050, 8, .ro, 0, 0, 0⟩]
  | .sloe => [⟨0x040, 1, .rws, 0xC0000053, 0xC000FFFF, 0⟩, ⟨0x044, 3, .ro, 0, 0, 0⟩]
  | .pwr => [⟨0x040, 1, .rws, 0x0154012C, 0x01FF01FF, 0⟩, ⟨0x044, 1, .rws, 0x0000645F, 0xFFFF, 0⟩,
      ⟨0x048, 2, .ro, 0, 0, 0⟩, ⟨0x050, 1, .ro, 0x320, 0, 0⟩, ⟨0x054, 2, .ro, 0, 0, 0⟩,
      ⟨0x05C, 1, .rw, 0, 0xF, 0⟩, ⟨0x060, 1, .ro, 0, 0, 0⟩, ⟨0x064, 1, .rw, 0, 0x1F, 0⟩,
      ⟨0x068, 4, .ro, 0, 0, 0⟩, ⟨0x078, 1, .ro, 0x12C, 0, 0⟩, ⟨0x07C, 1, .ro, 0, 0, 0⟩]
  | .clk => [⟨0x040, 1, .rws, 0, 0x7, 0⟩, ⟨0x044, 2, .rw, 0, 0xFFFFFFFF, 0⟩, ⟨0x04C, 3, .ro, 0, 0, 0⟩,
      ⟨0x058, 1, .rw, 0, 0xF, 0⟩, ⟨0x05C, 1, .ro, 0, 0, 0⟩]
  | .mgmt => [⟨0x040, 6, .ro, 0, 0, 0⟩, ⟨0x100, 4, .rw, 0, 0xFFFFFFFF, 0⟩, ⟨0x110, 2, .ro, 0, 0, 0⟩]
  | .cel => [⟨0x040, 1, .rws, 0x10, 0x1F, 0⟩, ⟨0x044, 1, .rw, 0, 0x003F7FFF, 0⟩,
      ⟨0x048, 1, .rw, 0, 0xFFE00000, 0⟩, ⟨0x04C, 1, .rw, 0, 0xF000000F, 0x08000000⟩,
      ⟨0x050, 1, .ro, 0, 0, 0⟩, ⟨0x054, 1, .rc, 0, 0, 0⟩, ⟨0x058, 1, .wo, 0, 0x800001FF, 0⟩,
      ⟨0x05C, 5, .ro, 0, 0, 0⟩]
  | .fe => [⟨0x040, 1, .rws, 0, 0x8F07FFFF, 0⟩, ⟨0x044, 1, .rw, 0, 0x7F, 0⟩, ⟨0x048, 1, .ro, 0, 0, 0⟩,
      ⟨0x04C, 1, .wo, 0, 1, 0⟩, ⟨0x050, 1, .rws, 0x14, 0xFF, 0⟩, ⟨0x054, 4, .ro, 0, 0, 0⟩] ++ feQueueRegs 16
  | .htab => [⟨0x040, 1, .rw, 0, 0xFFF, 0⟩, ⟨0x044, 2, .ro, 0, 0, 0⟩, ⟨0x060, 8, .rws, 0, 0xFFFFFFFF, 0⟩]
  | .slot => [⟨0x040, 6, .ro, 0, 0, 0⟩]
  | .part => [⟨0x008, 1, .w1s, 0, 7, 0⟩, ⟨0x040, 2, .ro, 0, 0, 0⟩, ⟨0x048, 1, .wo, 0, 0xC03F003F, 0⟩,
      ⟨0x04C, 1, .ro, 0, 0, 0⟩, ⟨0x050, 1, .rw, 0, 0x1FFFF, 0⟩, ⟨0x054, 1, .rw, 0, 0x7FFF, 0⟩,
      ⟨0x058, 2, .ro, 0, 0, 0⟩, ⟨0x060, 1, .rw, 0, 0xF, 0⟩, ⟨0x064, 1, .rws, 0xFFFF0001, 0xFFFF03FF, 0⟩,
      ⟨0x068, 1, .rws, 0, 0xCFFF0FFF, 0⟩, ⟨0x06C, 2, .rws, 0, 0x8FFF8FFF, 0⟩, ⟨0x074, 1, .wo, 0, 7, 0⟩,
      ⟨0x078, 6, .ro, 0, 0, 0⟩, ⟨0x0A0, 10, .ro, 0, 0, 0⟩, ⟨0x0C8, 1, .wo, 0, 1, 0⟩,
      ⟨0x0D0, 1, .rws, 0x00010000, 0x800F0FFF, 0⟩, ⟨0x0D4, 1, .rws, 0, 0x0FFF0FFF, 0⟩,
      ⟨0x0D8, 1, .wo, 0, 0xFFFFFFFF, 0⟩, ⟨0x0DC, 1, .wo, 0, 0xFFF01FFF, 0⟩, ⟨0x0E0, 2, .ro, 0, 0, 0⟩] ++
      queueBlock 0x100 0 ++
      [⟨0x300, 6, .ro, 0, 0, 0⟩, ⟨0x318, 1, .wo, 0, 1, 0⟩, ⟨0x380, 8, .ro, 0, 0, 0⟩, ⟨0x3A0, 1, .wo, 0, 1, 0⟩,
      ⟨0x3C0, 1, .rws, 0x00140031, 0x00FF0071, 0⟩, ⟨0x3C4, 1, .rws, 0, 0x80000FFF, 0⟩,
      ⟨0x3C8, 6, .ro, 0, 0, 0⟩, ⟨0x3E0, 1, .wo, 0, 1, 0⟩, ⟨0x400, 1, .wo, 0, 0xFFF, 0⟩,
      ⟨0x404, 7, .ro, 0, 0, 0⟩, ⟨0x440, 6, .ro, 0, 0, 0⟩, ⟨0x458, 1, .wo, 0, 1, 0⟩,
      ⟨0x480, 1, .rws, 0x800000C8, 0x8001FFFF, 0⟩, ⟨0x484, 1, .wo, 0, 0x0FFFFFFF, 0⟩,
      ⟨0x488, 1, .rw, 0, 0xFFF, 0x80000000⟩, ⟨0x48C, 1, .ro, 0, 0, 0⟩, ⟨0x490, 1, .rw, 0, 0xFFF, 0⟩,
      ⟨0x494, 1, .rw, 0, 0xE0003FFF, 0⟩, ⟨0x498, 7, .ro, 0, 0, 0⟩, ⟨0x4B4, 1, .wo, 0, 1, 0⟩,
      ⟨0x4C0, 6, .ro, 0, 0, 0⟩, ⟨0x4D8, 1, .wo, 0, 1, 0⟩, ⟨0x500, 5, .ro, 0, 0, 0⟩, ⟨0x514, 1, .wo, 0, 1, 0⟩]
  | .budget => [⟨0x040, 5, .rws, 0, 0xFFFFFFFF, 0⟩, ⟨0x060, 10, .ro, 0, 0, 0⟩, ⟨0x088, 1, .wo, 0, 1, 0⟩]
  | .clu => [⟨0x200, 20, .ro, 0, 0, 0⟩, ⟨0x300, 1, .ro, 0, 0, 0⟩, ⟨0x304, 1, .rws, 0x17764001, 0xFFFFC001, 0⟩,
      ⟨0x310, 16, .ro, 0, 0, 0⟩, ⟨0x400, 4, .ro, 0, 0, 0⟩, ⟨0x500, 13, .ro, 0, 0, 0⟩,
      ⟨0x534, 1, .rw, 0, 0x3FFF, 0⟩, ⟨0x538, 1, .ro, 0, 0, 0⟩, ⟨0x53C, 1, .rws, 0x70000000, 0xF0000FFF, 0⟩,
      ⟨0x540, 1, .ro, 0, 0, 0⟩, ⟨0x544, 1, .wo, 0, 1, 0⟩]
  | .bot => [⟨0x040, 7, .ro, 0, 0, 0⟩, ⟨0x800, 512, .rw, 0x00800080, 0xFFBFFFBF, 0⟩]
  | .sync => [⟨0x040, 7, .ro, 0, 0, 0⟩, ⟨0x400, 256, .ro, 0, 0, 0⟩]
  | .mov => [⟨0x040, 20, .ro, 0, 0, 0⟩]
  | .vec => [⟨0x040, 7, .ro, 0, 0, 0⟩]
  | .stg => [⟨0x008, 1, .rw, 0, 0x3, 0⟩, ⟨0x040, 1, .rws, 0, 0xF0FFFFFF, 0⟩, ⟨0x044, 1, .rws, 0, 0x0FFF0FFF, 0⟩,
      ⟨0x048, 1, .rws, 0, 0xFF3F0FFF, 0⟩, ⟨0x04C, 1, .rws, 0, 0x000FFFFF, 0⟩, ⟨0x050, 3, .rws, 0, 0x0FFF0FFF, 0⟩,
      ⟨0x05C, 1, .rws, 0, 0x1FFF0FFF, 0⟩, ⟨0x060, 1, .rws, 0, 0xBFFFBFFF, 0⟩, ⟨0x064, 1, .rws, 0, 0xFFF, 0⟩,
      ⟨0x068, 1, .rws, 0, 0xFFFFF, 0⟩, ⟨0x06C, 1, .wo, 0, 0xFFFF, 0⟩, ⟨0x070, 2, .rw, 0, 0xFFFFFFFF, 0⟩,
      ⟨0x080, 12, .ro, 0, 0, 0⟩, ⟨0x0B0, 1, .rw, 0, 0x3FF, 0⟩, ⟨0x0B4, 1, .ro, 0, 0, 0⟩, ⟨0x0B8, 1, .rw, 0, 0xFFF, 0⟩,
      ⟨0x0BC, 1, .ro, 0, 0, 0⟩, ⟨0x0C0, 1, .ro, 0xFFF, 0, 0⟩, ⟨0x0C4, 1, .wo, 0, 1, 0⟩] ++
      queueBlock 0x100 0 ++ queueBlock 0x140 0 ++ queueBlock 0x180 0 ++ queueBlock 0x1C0 0 ++ queueBlock 0x200 0
  | .coll => [⟨0x040, 1, .rws, 0x0C2007D0, 0xFFE0FFFF, 0⟩, ⟨0x044, 1, .rw, 0x3F800000, 0xFFFFFFFF, 0⟩,
      ⟨0x048, 1, .rws, 0x3F800000, 0xFFFFFFFF, 0⟩, ⟨0x04C, 1, .rws, 0x4B800000, 0xFFFFFFFF, 0⟩,
      ⟨0x050, 1, .rws, 0x40C00000, 0xFFFFFFFF, 0⟩, ⟨0x054, 1, .rws, 0x64, 0xFFFF, 0⟩,
      ⟨0x058, 4, .rw, 0, 0xFFFFFFFF, 0⟩, ⟨0x068, 1, .ro, 0, 0, 0⟩, ⟨0x080, 11, .ro, 0, 0, 0⟩,
      ⟨0x0AC, 1, .wo, 0, 1, 0⟩, ⟨0x100, 16, .rws, 0, 0xE000003F, 0⟩, ⟨0x140, 16, .rws, 0, 0x3FFF3FFF, 0⟩] ++
      (List.range 32).flatMap fun n => queueBlock (0x800 + 64 * n) 10
  | .ckpt => [⟨0x008, 1, .rw, 0, 0xF, 0⟩, ⟨0x040, 1, .rws, 0x00010000, 0x8FFFFFFF, 0⟩,
      ⟨0x044, 1, .rws, 0xF010105F, 0xF0FFFFFF, 0⟩, ⟨0x048, 1, .rws, 0x64, 0xFF, 0⟩,
      ⟨0x04C, 2, .rws, 0, 0xBFFFBFFF, 0⟩, ⟨0x054, 1, .rw, 0, 0xF, 0⟩, ⟨0x058, 1, .rws, 0, 0x8FFFFFFF, 0⟩,
      ⟨0x060, 12, .ro, 0, 0, 0⟩, ⟨0x090, 1, .wo, 0, 1, 0⟩]
  | .route => [⟨0x040, 1, .rws, 0, 0x3FFF3FFF, 0⟩, ⟨0x044, 1, .rws, 0, 0x00073FFF, 0⟩,
      ⟨0x048, 1, .rws, 0, 0xFF00, 0xFF⟩, ⟨0x04C, 1, .rw, 0, 0x3FFF, 0⟩, ⟨0x050, 1, .rws, 0, 0x80003FFF, 0⟩,
      ⟨0x054, 2, .rws, 0, 0xF800003F, 0⟩, ⟨0x05C, 1, .rw, 0, 0x80000000, 0⟩, ⟨0x060, 64, .rw, 0, 0xC000003F, 0⟩,
      ⟨0x160, 3, .ro, 0, 0, 0⟩]
  | .lnk => [⟨0x040, 1, .rws, 0, 0xFF000000, 0⟩, ⟨0x044, 1, .ro, 0x00F00000, 0, 0⟩, ⟨0x048, 4, .ro, 0, 0, 0⟩,
      ⟨0x058, 1, .rws, 0, 0xFFFF000F, 0⟩, ⟨0x05C, 2, .rws, 0, 0xFFFFFFFF, 0⟩, ⟨0x064, 12, .ro, 0, 0, 0⟩,
      ⟨0x094, 1, .wo, 0, 1, 0⟩] ++ queueBlock 0x100 10
  | .port => [⟨0x040, 1, .rws, 0, 0xF000FFFF, 0⟩, ⟨0x044, 9, .ro, 0, 0, 0⟩]
  | .msixTable => [⟨0, 1024, .rw, 0, 0xFFFFFFFF, 0⟩]
  | .msixPba => [⟨0, 8, .ro, 0, 0, 0⟩]

/-- The common registers of a page (R626). -/
def PageKind.common (k : PageKind) : List RegSpec :=
  [ ⟨0x000, 2, .ro, 0, 0, 0⟩, ⟨0x008, 1, .rw, 0, 0, 0⟩, ⟨0x00C, 1, .ro, 0, 0, 0⟩,
    ⟨0x010, 1, .w1c, 0, k.intMask, 0⟩, ⟨0x014, 1, .rw, k.intEnableReset, k.intMask, 0⟩,
    ⟨0x018, 1, .wo, 0, k.intMask, 0⟩, ⟨0x01C, 1, .rc, 0, 0, 0⟩, ⟨0x020, 1, .wo, 0, 3, 0xF000FFFC⟩ ]

/-- The specification of the register at page offset `off`, if the page has one there. -/
def PageKind.spec (k : PageKind) (off : Nat) : Option RegSpec :=
  (k.regs ++ match k with | .msixTable => [] | .msixPba => [] | k => k.common).find?
    fun r => decide (r.off ≤ off ∧ off < r.off + 4 * r.n ∧ off % 4 = 0)

/-- The specification of the register at an offset of one page: a virtual function's MSI-X table has 16 vectors, and its
pending bits one word pair (R567). -/
def PageId.spec (p : PageId) (off : Nat) : Option RegSpec :=
  if p.inst ≠ 0 ∧ ((p.kind = .msixTable ∧ 0x100 ≤ off) ∨ (p.kind = .msixPba ∧ 8 ≤ off)) then none else p.kind.spec off

/-- Bits that reject a write when they are set (R630). -/
def RegSpec.reserved (r : RegSpec) : Word :=
  match r.acc with
  | .w1c => 0
  | _ => ~~~(r.wmask ||| r.ro)

/-- The page index and page offset of a key of the register file. -/
def keyPage (key : Nat) : Option PageId :=
  if key < 0x4000000 then pageAt (key / 0x1000)
  else if (key % 0x10000) / 0x1000 = 0xE then some ⟨.msixTable, (key - 0x4000000) / 0x10000⟩
  else if (key % 0x10000) / 0x1000 = 0xF then some ⟨.msixPba, (key - 0x4000000) / 0x10000⟩
  else none

/-- What a register holds at reset (R626, R646); an MSI-X vector control word holds the mask bit.
DEDUCED: assumption 8; DESIGN CHOICE: assumptions 9, 94; PRESUMED: assumption 15. -/
def regReset (key : Nat) : Word :=
  match keyPage key with
  | none => 0
  | some p =>
    if p.kind = .msixTable ∧ key % 16 = 12 then 1
    else match p.kind.spec (key % 0x1000) with
      | some r => r.reset
      | none => 0

/-- Whether `key` is the low half of a 64-bit register pair (R632). -/
def pairLow (k : PageKind) (off : Nat) : Bool :=
  match k with
  | .glb => off = 0x40 || off = 0x48
  | .pwr => off = 0x70
  | .clk => off = 0x44
  | .cel => off = 0x48 || off = 0x60
  | .stg => off = 0x70 || off = 0x98 || off = 0xA0 || off = 0xA8
  | .coll => off = 0x80
  | .ckpt => off = 0x60 || off = 0x70 || off = 0x78
  | .lnk => off = 0x4C || off = 0x5C || off = 0x64 || off = 0x6C
  | .port => off = 0x58 || off = 0x60
  | .fe => off = 0x54 || (decide (0x100 ≤ off ∧ off < 0x500) && (off % 64 = 8 || off % 64 = 0x14))
  | .part => [0x40, 0x88, 0xA0, 0xA8, 0xB0, 0xB8, 0xC0, 0xD8, 0x300, 0x380, 0x388, 0x390, 0x398, 0x3C8, 0x3D8,
      0x408, 0x440, 0x4C0, 0x4C8].contains off
  | .budget => [0x60, 0x68, 0x70, 0x78, 0x80].contains off
  | .clu => [0x310, 0x318, 0x320, 0x328, 0x330, 0x338, 0x340, 0x348, 0x400].contains off
  | .bot => off = 0x50
  | .sync => off = 0x50
  | .mov => [0x60, 0x68, 0x80, 0x88].contains off
  | .vec => [0x40, 0x48, 0x50].contains off
  | .slot => off = 0x48
  | _ => false

end Sys2Proof.Machine
end

