-- ==== Sys2Proof/Machine/Ops.lean ====
section
/-! DEFINITION. The named operations on the state that every family shares: registers and counters,
error records, interrupts, messages to the host, access rejections, and views of each sparse array. -/

namespace Sys2Proof

/-- The accessor number that keys latches and write buffers (R632). -/
def Fn.num : Fn → Nat
  | .pf => 0
  | .spenor => 1
  | .smb => 2
  | .vf p => 3 + p.val

/-- Whether an access comes through a virtual function. -/
def Fn.isVf : Fn → Bool
  | .vf _ => true
  | _ => false

/-- The owner of an address space request as a partition number; none: the device. -/
def Owner.part? : Owner → Option (Fin 64)
  | .part p => some p
  | .dev => none

end Sys2Proof

namespace Sys2Proof.Machine

/-- What a command's meaning answers. -/
abbrev Out := Host.Outcome State Fault Refusal

/-! ## Registers and counters -/

/-- The stored value of the register with key `key`. DEDUCED: assumption 8. -/
def State.reg (s : State) (key : Nat) : Word := s.bus.regs.get (regReset key) key

/-- Store a register. -/
def State.setReg (s : State) (key : Nat) (v : Word) : State :=
  { s with bus := { s.bus with regs := s.bus.regs.put (regReset key) key v } }

/-- The key of a register of page `k`, instance `i`. DEDUCED: assumption 8. -/
def rk (k : PageKind) (i off : Nat) : Nat := (PageId.mk k i).base + off

/-- The stored value of a page register. -/
def State.pr (s : State) (k : PageKind) (i off : Nat) : Word := s.reg (rk k i off)

/-- Store a page register. -/
def State.setPr (s : State) (k : PageKind) (i off : Nat) (v : Word) : State := s.setReg (rk k i off) v

/-- A 32-bit saturating sum (R79, R591: counters saturate at all ones). -/
def satAdd32 (v : Word) (n : Nat) : Word := if v.toNat + n < 2 ^ 32 then v + BitVec.ofNat 32 n else BitVec.allOnes 32

/-- Add `n` to a 32-bit saturating counter. -/
def State.bump (s : State) (k : PageKind) (i off : Nat) (n : Nat := 1) : State :=
  s.setPr k i off (satAdd32 (s.pr k i off) n)

/-- The 64-bit value of a register pair. -/
def State.pr64 (s : State) (k : PageKind) (i off : Nat) : BitVec 64 := s.pr k i (off + 4) ++ s.pr k i off

/-- Store a 64-bit register pair. -/
def State.setPr64 (s : State) (k : PageKind) (i off : Nat) (v : BitVec 64) : State :=
  (s.setPr k i off (v.truncate 32)).setPr k i (off + 4) (v.extractLsb' 32 32)

/-- Add `n` to a 64-bit saturating counter held in a pair. -/
def State.bump64 (s : State) (k : PageKind) (i off : Nat) (n : Nat) : State :=
  let v := (s.pr64 k i off).toNat + n
  s.setPr64 k i off (if v < 2 ^ 64 then BitVec.ofNat 64 v else BitVec.allOnes 64)

/-- Return the registers of a page from `lo` up to, but without, `hi` to their reset values. -/
def State.clearRegs (s : State) (k : PageKind) (i lo hi : Nat) : State :=
  let b := (PageId.mk k i).base
  { s with bus := { s.bus with regs := s.bus.regs.keep fun key _ => !(b + lo ≤ key && key < b + hi) } }

/-- Return every register of a page, its staged values and its commit state to reset. -/
def State.resetPage (s : State) (k : PageKind) (i : Nat) : State :=
  let b := (PageId.mk k i).base
  let out := fun key => !(b ≤ key && key < b + 0x1000)
  { s with bus := { s.bus with
      regs := s.bus.regs.keep fun key _ => out key
      staged := s.bus.staged.keep fun key _ => out key
      commits := s.bus.commits.keep fun key _ => key ≠ b } }

/-! ## Views of the sparse arrays -/

/-- A partition that is not configured. -/
def Part.init : Part :=
  { st := .free, cluOp := none, cluErr := 0, cluLast := 0, clears := 0, releaseBusy := false,
    runCtx := some 0, quantumEnd := 0, posts := [], released := 0, items := [], arrived := none, share := 0,
    resetDue := false, deferred := false, idle := 0, unitFault := false }

/-- A queue that is FREE. -/
def SwQueue.init : SwQueue :=
  { st := .free, gid := 0, err := 0, head := 0, tail := 0, cplTail := 0, started := 0, entries := [],
    faultCpl := false, abandoned := 0 }

/-- A handle with V = 0. -/
def Handle.init : Handle := { base := 0, dev := 0, size := 0, rights := 0, fmt := 0, scale := 0 }

/-- An empty slot half. -/
def Half.init : Half := { recs := [], filled := 0, since := none, bankWait := none }

/-- Context `c` while it is FREE, with the reset values of its registers (R535). -/
def Ctx.init (c : Nat) : Ctx :=
  { st := .free, err := 0, cfg := if c = 0 then 0xFFFF0001 else 0x00000001, areas := 0, set0 := 0, set1 := 0
    suspendAfter := false, waits := [], tags := [], flights := [], gangs := [], chans := [], written := false
    since := 0, left := 0 }

/-- A fault area with nothing written. -/
def FaultArea.init : FaultArea := { wr := 0, lost := 0, snap := false }

/-- A settled device-owned bank (R183). -/
def Bank.init : Bank := { st := .settled, owner := none, hole := false, former := none }

/-- An unused row-map entry. -/
def RowEnt.init : RowEnt := { used := false, field := false, bad := false, row := 0 }

/-- A byte of the cellar that nothing has written. -/
def CelByte.init : CelByte := { key := 0, val := 0 }

/-- An empty queue instance. -/
def QueueSt.init : QueueSt :=
  { words := [], w := 0, rp := 0, used := 0, inRead := false, inWrite := 0, taint := false, dropping := false,
    owed := false, flushing := false, wm := false }

/-- Bramble with no quiet time. -/
def Bramble.init : Bramble :=
  { quiet := 0, counted := false, frozen := false, ext := false, frozenAt := 0, heldAny := false, heldWaits := [],
    heldTags := [] }

/-- A function's configuration space at reset: no Bus Master Enable, D0, MSI-X off. PRESUMED: assumption 16. -/
def FnConfig.init : FnConfig := { busMaster := false, d3hot := false, msixEnable := false, msixMask := false }

/-- A region at its nominal point (R18: 1.5 GHz). -/
def RegionPt.init : RegionPt :=
  { mhz := 1500, mv := 800, runMhz := 1500, runMv := 800, slack := 0, atMhz := 1500, atMv := 800, drift := 0
    guardPs := 0, kv := 0, out := false, pending := none, railWait := false, due := true, planAt := 0, discards := [] }

/-- A sensor that has not been read. -/
def Sensor.init : Sensor := { raw := 0, valid := false, discards := 0, failed := false, hits := 0 }

def State.partOf (s : State) (p : Nat) : Part := s.parts.part.get Part.init p

def State.setPart (s : State) (p : Nat) (v : Part) : State :=
  { s with parts := { s.parts with part := s.parts.part.put Part.init p v } }

def State.queueOf (s : State) (p q : Nat) : SwQueue := s.fe.queues.get SwQueue.init (p * 16 + q)

def State.setQueue (s : State) (p q : Nat) (v : SwQueue) : State :=
  { s with fe := { s.fe with queues := s.fe.queues.put SwQueue.init (p * 16 + q) v } }

def State.handleOf (s : State) (p h : Nat) : Handle := s.fe.handles.get Handle.init (p * 4096 + h)

def State.setHandle (s : State) (p h : Nat) (v : Handle) : State :=
  { s with fe := { s.fe with handles := s.fe.handles.put Handle.init (p * 4096 + h) v } }

def State.useOf (s : State) (p h : Nat) : Nat := s.fe.uses.get 0 (p * 4096 + h)

def State.setUse (s : State) (p h n : Nat) : State :=
  { s with fe := { s.fe with uses := s.fe.uses.put 0 (p * 4096 + h) n } }

def State.halfOf (s : State) (slot : Nat) (h : Bool) : Half := s.fe.halves.get Half.init (slot * 2 + h.toNat)

def State.setHalf (s : State) (slot : Nat) (h : Bool) (v : Half) : State :=
  { s with fe := { s.fe with halves := s.fe.halves.put Half.init (slot * 2 + h.toNat) v } }

def State.ctxOf (s : State) (p c : Nat) : Ctx := s.parts.ctx.get (Ctx.init c) (p * 16 + c)

def State.setCtx (s : State) (p c : Nat) (v : Ctx) : State :=
  { s with parts := { s.parts with ctx := s.parts.ctx.put (Ctx.init c) (p * 16 + c) v } }

/-- The partition that owns a cluster; none: the device. -/
def State.clusterOwner (s : State) (c : Nat) : Option (Fin 64) := s.parts.cluster.get none c

def State.bankOf (s : State) (b : Nat) : Bank := s.pad.bank.get Bank.init b

def State.setBank (s : State) (b : Nat) (v : Bank) : State :=
  { s with pad := { s.pad with bank := s.pad.bank.put Bank.init b v } }

def State.tierOf (s : State) (region tier : Nat) : RetSt := s.pad.ret.get .awake (region * 4 + tier)

def State.setTier (s : State) (region tier : Nat) (v : RetSt) : State :=
  { s with pad := { s.pad with ret := s.pad.ret.put .awake (region * 4 + tier) v } }

def State.chanOf (s : State) (n : Nat) : Option ChanCmd := s.cel.chans.get none n

def State.setChan (s : State) (n : Nat) (v : Option ChanCmd) : State :=
  { s with cel := { s.cel with chans := s.cel.chans.put none n v } }

def State.pteOf (s : State) (p vpn : Nat) : BitVec 64 := s.cel.pte.get 0 (p * 32768 + vpn)

def State.setPte (s : State) (p vpn : Nat) (v : BitVec 64) : State :=
  { s with cel := { s.cel with pte := s.cel.pte.put 0 (p * 32768 + vpn) v } }

/-- The value of physical counter `n` of cluster `c`. -/
def State.countOf (s : State) (c n : Nat) : BitVec 32 := s.syn.count.get 0 (c * 256 + n)

def State.setCount (s : State) (c n : Nat) (v : BitVec 32) : State :=
  { s with syn := { s.syn with count := s.syn.count.put 0 (c * 256 + n) v } }

/-- A partition's translation entry (R283). -/
def State.vmapOf (s : State) (p vid : Nat) : BitVec 32 := s.syn.vmap.get 0 (p * 4096 + vid)

def State.brambleOf (s : State) (p : Nat) : Bramble := s.syn.bramble.get Bramble.init p

def State.setBramble (s : State) (p : Nat) (v : Bramble) : State :=
  { s with syn := { s.syn with bramble := s.syn.bramble.put Bramble.init p v } }

def State.regionOf (s : State) (r : Nat) : RegionPt := s.region.get RegionPt.init r

def State.setRegion (s : State) (r : Nat) (v : RegionPt) : State :=
  { s with region := s.region.put RegionPt.init r v }

/-- A function's configuration; key 0 is the physical function, p + 1 virtual function p + 1. -/
def State.configOf (s : State) (f : Nat) : FnConfig := s.host.config.get FnConfig.init f

/-- The region of a cluster (R19: 16 regions of four clusters). -/
def regionOfCluster (c : Nat) : Nat := c / 4

/-- Whether no pass issues in a cluster: after a trip (R606), or while its region is out of service (R39). -/
def State.clkStopped (s : State) (c : Nat) : Bool := s.pwr.trip || (s.regionOf (regionOfCluster c)).out

/-- A free value, and the state that has used it. DESIGN CHOICE: assumption 7. -/
def State.free (s : State) : BitVec 64 × State :=
  (Config.freeWord s.sys.freeCtr, { s with sys := { s.sys with freeCtr := s.sys.freeCtr + 1 } })

/-! ## Interrupts and messages to the host (R572–R575, R641) -/

/-- Whether function `f` exists (R569); the physical function always does. -/
def State.fnExists (s : State) (f : Nat) : Bool :=
  f == 0 || (s.host.vfEnable && decide (f ≤ s.host.numVFs.toNat))

/-- Whether the device may issue requests for function `f` (R572). -/
def State.mayRequest (s : State) (f : Nat) : Bool :=
  s.fnExists f && (s.configOf f).busMaster && !(s.configOf f).d3hot && !(s.configOf 0).d3hot

/-- Append a message to what the device sends to the host. DESIGN CHOICE: assumption 6. -/
def State.emit (s : State) (m : HostMsg) : State :=
  { s with host := { s.host with outbox := s.host.outbox ++ [m] } }

/-- Send MSI-X vector `v` of function `f` (R572, R573): a masked vector, or a function that may issue no
request, sets its pending bit instead. PRESUMED: assumption 15. -/
def State.sendMsix (s : State) (f : Nat) (v : BitVec 11) : State :=
  let vc := s.pr .msixTable f (v.toNat * 16 + 12)
  if !s.fnExists f then s
  else if s.mayRequest f && (s.configOf f).msixEnable && !(s.configOf f).msixMask && !vc.getLsbD 0 then
    s.emit (.msix (Fin.ofNat 65 f) v)
  else { s with host := { s.host with msixPending := s.host.msixPending.put false (f * 256 + v.toNat) true } }

/-- Where a page's interrupt goes (R574, R575): function, vector, and whether INT_ENABLE gates it.
DESIGN CHOICE: assumption 40. -/
def State.intTargets (s : State) (p : PageId) : List (Nat × BitVec 11 × Bool) :=
  let vf1 : List (Nat × BitVec 11 × Bool) := if s.sys.stageMode then [(1, 15, true)] else []
  let n (b : Nat) : BitVec 11 := BitVec.ofNat 11 b
  match p.kind with
  | .glb => [(0, 16, true)]
  | .stg => (0, 17, true) :: vf1
  | .ckpt => (0, 18, true) :: vf1
  | .coll => (0, 19, true) :: vf1
  | .cel => [(0, 20, true)]
  | .mgmt | .pwr | .clk | .age | .fuse => [(0, 21, true)]
  | .lnk => [(0, n (32 + p.inst), true)]
  | .port => [(0, n (48 + p.inst), true)]
  | .bot => [(0, n (64 + p.inst), true)]
  | .part => [(0, n (128 + p.inst), false), (p.inst + 1, 15, true)]
  | .budget => [(0, n (128 + p.inst), true)]
  | .clu | .sync | .mov => [(0, n (192 + p.inst), true)]
  | .err => [(0, (s.pr .err 0 0x40).truncate 8 |>.zeroExtend 11, true)]
  | .fe =>
    let v : BitVec 11 := ((s.pr .fe p.inst 0x40).extractLsb' 24 4).zeroExtend 11
    [(if p.inst = 64 then 0 else p.inst + 1, v, true)]
  | _ => []

/-- Send a page's interrupt for the bits of `rising` (status) that are enabled. -/
def State.announce (s : State) (p : PageId) (rising enabled : Word) : State :=
  (s.intTargets p).foldl
    (fun s t => if (if t.2.2 then enabled else rising) ≠ 0 then s.sendMsix t.1 t.2.1 else s) s

/-- Set INT_STATUS bits of a page (R573, R641); each bit that rises is announced once. -/
def State.raise (s : State) (k : PageKind) (i : Nat) (bits : Word) : State :=
  let old := s.pr k i 0x10
  let rising := bits &&& ~~~old
  let s := s.setPr k i 0x10 (old ||| bits)
  s.announce ⟨k, i⟩ rising (rising &&& s.pr k i 0x14)

/-! ## Error records (R538–R541) -/

/-- The severities of R538. -/
abbrev sevInfo : BitVec 2 := 0
abbrev sevCorrected : BitVec 2 := 1
abbrev sevContained : BitVec 2 := 2
abbrev sevDevice : BitVec 2 := 3

/-- SOURCE (R539): level and instance. -/
def srcOf (level : BitVec 4) (inst : Nat) : BitVec 16 := level ++ BitVec.ofNat 12 inst

/-- OWNER (R539) of a unit that a partition, or the device, owned. -/
def ownerByte : Option (Fin 64) → BitVec 8
  | some p => 0x80 ||| BitVec.ofNat 8 p.val
  | none => 0x40

/-- A record of one event, with nothing in its optional fields. -/
def ErrRec.mk0 (cls : BitVec 8) (sev : BitVec 2) (source : BitVec 16) : ErrRec :=
  { time := 0, cls := cls, sev := sev, source := source, owner := 0, flags := 0, count := 1, location := 0,
    cause := 0, syndrome := 0, detail := 0, seen := false }

/-- Whether `r` coalesces into the newest record `n` (R540). DEDUCED: assumption 134. -/
def ErrRec.coalesces (now : BitVec 64) (n r : ErrRec) : Bool :=
  decide (r.sev = sevInfo ∨ r.sev = sevCorrected) && n.cls == r.cls && n.source == r.source &&
  n.location == r.location && !n.seen && decide ((now - n.time).toNat < 1000000000)

/-- Drop the oldest INFO or CORRECTED record of the ring; none where the ring holds none. DEDUCED: assumption 134. -/
def dropOldestMinor : List ErrRec → Option (List ErrRec)
  | [] => none
  | r :: rs =>
    if r.sev = sevInfo ∨ r.sev = sevCorrected then some rs
    else (dropOldestMinor rs).map fun t => r :: t

/-- Replace the last element of a list. -/
def replaceLast {α : Type} : List α → α → List α
  | [], _ => []
  | [_], y => [y]
  | x :: x' :: xs, y => x :: replaceLast (x' :: xs) y

/-- Raise a checkpoint warning (R436) where its enable bit in CKPT.WARN is 1. -/
def State.ckptWarn (s : State) (bit : Nat) (on : Bool) : State :=
  if on && (s.pr .ckpt 0 0x44).getLsbD bit then { s with ckpt := { s.ckpt with warned := true } } else s

/-- Record an event (R538–R541): count its class, coalesce it or write it to the ring, hold the first DEVICE
record, and raise the bit of its severity. DEDUCED: assumption 134. -/
def State.record (s : State) (r : ErrRec) : State :=
  let r := { r with time := s.sys.time }
  let s := if r.cls.toNat ≤ 0x16 then s.bump .err 0 (0x4C + 4 * r.cls.toNat) else s
  let s := if r.cls ∈ ([0x01, 0x05, 0x07] : List (BitVec 8)) then
      let ts := (s.sys.time :: s.err.ceTimes).filter fun t => decide ((s.sys.time - t).toNat < 1000000000)
      ({ s with err := { s.err with ceTimes := ts } }).ckptWarn 31
        (decide (((s.pr .ckpt 0 0x44).extractLsb' 16 8).toNat * 16 < ts.length))
    else s
  let isDev := r.sev == sevDevice
  let takesFirst := isDev && s.err.first.isNone
  let r := if takesFirst then { r with flags := r.flags ||| 0x80 } else r
  let s := if isDev then
      { s with err := { s.err with device := true, first := if takesFirst then some r else s.err.first } } else s
  let put (s : State) (ring : List ErrRec) : State :=
    ({ s with err := { s.err with ring := ring ++ [r] } }).raise .err 0 (1#32 <<< r.sev.toNat)
  match s.err.ring.getLast? with
  | some n =>
    if n.coalesces s.sys.time r then
      let c := if n.count.toNat + 1 < 65536 then n.count + 1 else n.count
      { s with err := { s.err with ring := replaceLast s.err.ring { n with count := c, flags := n.flags ||| 0x40 } } }
    else if s.err.ring.length < 512 then put s s.err.ring
    else if r.sev = sevInfo ∨ r.sev = sevCorrected then s.bump .err 0 0x44
    else match dropOldestMinor s.err.ring with
      | some ring => put (s.bump .err 0 0x44) ring
      | none => s.bump .err 0 0x44
  | none => put s []

/-! ## Rejected accesses (R554, R647) -/

/-- Log a rejected access in `ERR_LOG` of page `p` and as a REG_REJECT record; `at_` is the offset in the
page and `loc` the physical-function BAR0 offset of the access. The MSI-X pages hold no ERR_LOG: GLB's, or the PART
page's of the function, takes theirs. -/
def State.rejectAt (s : State) (f : Fn) (p : PageId) (at_ : Nat) (loc : Nat) (reason : BitVec 3) : State :=
  let p : PageId :=
    if p.kind = .msixTable ∨ p.kind = .msixPba then (if p.inst = 0 then ⟨.glb, 0⟩ else ⟨.part, p.inst - 1⟩) else p
  let old := s.pr p.kind p.inst 0x1C
  let v : Word := 0x80000000 ||| (if old.getLsbD 31 then 0x40000000 else 0) |||
    (if f.isVf then 0x20000000 else 0) ||| (reason.zeroExtend 32 <<< 26) ||| BitVec.ofNat 32 (at_ % 0x1000)
  let s := s.setPr p.kind p.inst 0x1C v
  s.record { ErrRec.mk0 0x0F sevInfo (srcOf 7 0) with
    location := BitVec.ofNat 64 loc, detail := v.zeroExtend 256 }

/-- Log a rejected access to a register of page `p`. -/
def State.reject (s : State) (f : Fn) (p : PageId) (off : Nat) (reason : BitVec 3) : State :=
  s.rejectAt f p off (p.base + off) reason

/-! ## Clusters and partitions -/

/-- The counters that each clear register of a PART page clears, by bit of `Part.clears`: the partition's own
(R81, R132, R169, R212, R248, R306, R395, R431, R535) and those of its clusters. -/
def clearRanges : List (List (Nat × Nat) × List (Nat × Nat)) :=
  [ ([], [(0x200, 0x250)]), ([(0x380, 0x3A0)], [(0x310, 0x350)]), ([(0x3C8, 0x3E0), (0x404, 0x420)], [(0x400, 0x410)]),
    ([(0x440, 0x458)], []), ([(0x498, 0x4B4)], []), ([(0x4C0, 0x4D8)], []), ([(0x500, 0x510)], []),
    ([(0x0A0, 0x0C8)], []) ]

/-- The counters of the STG, COLL and CKPT pages that their CNT_CLR clears: bits 8–10 of partition 0's `clears`. -/
def clearPages : List (PageKind × Nat × Nat) := [(.stg, 0x080, 0x0B0), (.coll, 0x080, 0x0AC), (.ckpt, 0x060, 0x090)]

/-- The clusters a partition owns, in ascending number (R110: a cluster's rank is its place in this list). -/
def State.clustersOf (s : State) (p : Nat) : List Nat :=
  (List.range 64).filter fun c => decide ((s.clusterOwner c).map Fin.val = some p)

/-- The rank of a cluster among its partition's clusters (R110). -/
def State.rankOf (s : State) (p c : Nat) : Nat := ((s.clustersOf p).takeWhile (· ≠ c)).length

/-- Act on the counter clears of a partition that wait for a step boundary (R82). DEDUCED: assumptions 37, 81. -/
def State.applyClears (s : State) (p : Nat) : State :=
  let pt := s.partOf p
  if pt.clears = 0 then s
  else
    let s := (List.range clearRanges.length).foldl (fun s b =>
      if pt.clears.getLsbD b then
        let r := clearRanges.getD b ([], [])
        let s := r.1.foldl (fun s x => s.clearRegs .part p x.1 x.2) s
        (s.clustersOf p).foldl (fun s c => r.2.foldl (fun s x => s.clearRegs .clu c x.1 x.2) s) s
      else s) s
    let s := (List.range clearPages.length).foldl (fun s b =>
      match clearPages[b]? with
      | some x => if pt.clears.getLsbD (8 + b) then s.clearRegs x.1 0 x.2.1 x.2.2 else s
      | none => s) s
    s.setPart p { s.partOf p with clears := 0 }

/-- The banks whose entry names partition `p`, counting every state but failed (R186). -/
def State.banksOwned (s : State) (p : Nat) : Nat :=
  (s.pad.bank.filter fun e => decide (e.2.owner.map Fin.val = some p ∧ e.2.st ≠ .failed)).length

/-- The banks a partition owns and that are settled (PART.BANK_STATUS.OWNED). -/
def State.banksSettled (s : State) (p : Nat) : Nat :=
  (s.pad.bank.filter fun e => decide (e.2.owner.map Fin.val = some p ∧ e.2.st = .settled)).length

/-- The pages a partition has mapped (PART.CELLAR_USED). -/
def State.pagesMapped (s : State) (p : Nat) : Nat :=
  (s.cel.pte.filter fun e => decide (e.1 / 32768 = p) && e.2.getLsbD 63).length

/-- A partition is configured while it is ACTIVE or RESETTING (R501). -/
def State.configured (s : State) (p : Nat) : Bool := decide ((s.partOf p).st ≠ .free)

end Sys2Proof.Machine
end

