-- ==== Sys2Proof/Machine/Bus.lean ====
section
/-! DEFINITION. The register front door (R630–R640, R647): which register an access reaches, which writes
are rejected and why, staged values, commit groups, and the 64-bit pair buffers. What an accepted write does
is in the families' files and in Machine/Access.lean. -/

namespace Sys2Proof.Machine

/-- The register an access reaches. -/
structure Target where
  page : PageId
  off : Nat
deriving DecidableEq, Repr

def Target.key (t : Target) : Nat := t.page.base + t.off

/-- Whether register accesses are served at all (R635, R581, R606): only once READY, with no warm reset in
progress and no trip; a failed start serves three pages to the physical function. DESIGN CHOICE: assumption 27. -/
def State.served (s : State) (f : Fn) (offset : Nat) : Bool :=
  match f with
  | .smb => true
  | .vf p => !s.pwr.trip && s.sys.phase == 0x7 && s.sys.warm.isNone && s.fnExists (p.val + 1)
  | _ =>
    !s.pwr.trip && (s.sys.phase == 0x7 && s.sys.warm.isNone) ||
    (s.sys.phase == 0xF && f == .pf && [0x0000, 0x4000, 0x6000].contains (offset / 0x1000 * 0x1000))

/-- All the bits of an access of a width. DESIGN CHOICE: assumption 27. -/
def allOnesOf : Width → BitVec 64
  | .w8 => 0xFF
  | .w16 => 0xFFFF
  | .w32 => 0xFFFFFFFF
  | .w64 => BitVec.allOnes 64

/-- What a read that is not served returns: 0 outside the three pages of a failed start (R581), all ones elsewhere
(R635). DESIGN CHOICE: assumption 27. -/
def State.unserved (s : State) (f : Fn) (w : Width) : BitVec 64 :=
  if s.sys.phase == 0xF && f == .pf && !s.pwr.trip then 0 else allOnesOf w

/-- The page a function's BAR0 offset reaches (R624, R625). DEDUCED: assumption 112. -/
def State.resolve (s : State) (f : Fn) (offset : Nat) : Option Target :=
  let off := offset % 0x1000
  match f with
  | .vf p =>
    let stage := s.sys.stageMode && p.val == 0
    let pg : Option PageId := match offset / 0x1000 with
      | 0 => some ⟨.part, p.val⟩
      | 1 => some ⟨.fe, p.val⟩
      | 2 => some ⟨.htab, p.val⟩
      | 3 => if stage then some ⟨.stg, 0⟩ else none
      | 4 => if stage then some ⟨.coll, 0⟩ else none
      | 5 => if stage then some ⟨.ckpt, 0⟩ else none
      | 0xE => some ⟨.msixTable, p.val + 1⟩
      | 0xF => some ⟨.msixPba, p.val + 1⟩
      | _ => none
    pg.map fun k => ⟨k, off⟩
  | _ => (pageAt (offset / 0x1000)).map fun k => ⟨k, off⟩

/-- Where an access to no page is logged (R624, R625): GLB, or the function's own PART page. -/
def logPage : Fn → PageId
  | .vf p => ⟨.part, p.val⟩
  | _ => ⟨.glb, 0⟩

/-- The registers of a PART page that its virtual function may write (R81, R306, R535 and the page's other
chapters); the rest are the physical function's. DEDUCED: assumption 112. -/
def partVfWrites (off : Nat) : Bool :=
  !([0x008, 0x048, 0x050, 0x054, 0x490, 0x494].contains off)

/-- Whether function `f` has the right to write register `off` of page `k`. DEDUCED: assumption 112. -/
def writeRight (f : Fn) (k : PageKind) (off : Nat) : Bool :=
  match f with
  | .pf => true
  | .spenor =>
    match k with
    | .glb => off ≠ 0x0C0 && off ≠ 0x008
    | .fuse => !(0x040 ≤ off && off < 0x04C)
    | .part => partVfWrites off || off == 0x490 || off == 0x494
    | .cel => !(0x044 ≤ off && off < 0x050)
    | .ckpt => off ≠ 0x04C && off ≠ 0x050
    | .coll => !(0x100 ≤ off && off < 0x180)
    | .pwr => off ≠ 0x078
    | _ => true
  | .smb => false
  | .vf _ =>
    match k with
    | .part => partVfWrites off
    | .ckpt => off ≠ 0x04C && off ≠ 0x050
    | .coll => !(0x100 ≤ off && off < 0x180)
    | _ => true

/-- Whether the fields of Q_CFG and Q_WM, at offsets 0 and 4 of a queue block, lie in their ranges for a depth of at
most `d` words (R274, R275). -/
def queueFieldsOk (d o : Nat) (v : Word) : Bool :=
  let hi := (v.extractLsb' 16 16).toNat
  let lo := (v.extractLsb' 0 16).toNat
  if o = 0 then decide (lo ≤ d) else if o = 4 then decide (1 ≤ hi ∧ hi ≤ d ∧ lo < d) else true

/-- Whether the fields of a whole register value lie in their ranges (R553); reserved bits are checked apart. -/
def fieldsOk (k : PageKind) (inst off : Nat) (v : Word) : Bool :=
  let f (lo n : Nat) : Nat := (v.extractLsb' lo n).toNat
  (off ≠ 0x020 || k == .msixTable || decide (f 0 2 ≠ 3)) && match k with
  | .glb =>
    if off = 0x008 then
      (if v.getLsbD 31 then decide (f 8 8 = 0x5A) else decide (f 8 8 = 0)) && decide (f 0 2 ≠ 3)
    else if off = 0x0C0 then v.getLsbD 0
    else true
  | .err => if off = 0x040 then decide (1 ≤ f 24 8 ∧ f 24 8 ≤ 100 ∧ 1 ≤ f 16 8) else true
  | .age => if off = 0x040 then decide (1 ≤ f 24 8 ∧ 1 ≤ f 16 4 ∧ 1100 ≤ f 0 11 ∧ f 0 11 ≤ 1700) else true
  | .fuse => if off = 0x048 then decide (f 0 3 ≤ 4) else true
  | .sloe => if off = 0x040 then decide (1 ≤ f 0 16) else true
  | .cel =>
    if off = 0x040 then decide (f 0 5 ≤ 24) else true
  | .fe =>
    if off = 0x040 then decide (1 ≤ f 12 7 ∧ f 12 7 ≤ 64)
    else if off = 0x050 then decide (1 ≤ f 0 8)
    else if 0x100 ≤ off ∧ (off % 64 = 4 ∨ off % 64 = 0x10) then decide (4 ≤ f 16 5 ∧ f 16 5 ≤ 16)
    else true
  | .part =>
    if off = 0x048 then decide (f 30 2 ≠ 0) && (decide (f 30 2 = 3) || decide (f 16 6 = 0))
    else if off = 0x050 then decide (f 0 17 ≤ 65536)
    else if off = 0x054 then decide (f 0 15 ≤ 24320)
    else if off = 0x064 then decide (1 ≤ f 0 10 ∧ f 0 10 ≤ 1000)
    else if off = 0x074 then decide (1 ≤ f 0 3 ∧ f 0 3 ≤ 4)
    else if off = 0x0D0 then decide (1 ≤ f 16 4)
    else if 0x100 ≤ off ∧ off < 0x140 then queueFieldsOk 32768 (off % 64) v
    else if off = 0x480 then decide (1 ≤ f 0 17 ∧ f 0 17 ≤ 100000)
    else if off = 0x484 then decide (f 12 16 ≠ 0)
    else if off = 0x3C0 then decide (1 ≤ f 16 8 ∧ 1 ≤ f 4 3)
    else true
  | .clu =>
    if off = 0x53C then decide (f 28 4 ≤ 13) else if off = 0x304 then decide (f 16 4 ≤ 8) else true
  | .bot =>
    if 0x800 ≤ off then
      let half (h : BitVec 16) : Bool :=
        !h.getLsbD 15 ||
        (!h.getLsbD 6 && (!h.getLsbD 14 || (h.extractLsb' 8 6 == 0)) && (!h.getLsbD 7 || (h.extractLsb' 0 6 == 0)))
      half (v.extractLsb' 0 16) && half (v.extractLsb' 16 16)
    else true
  | .stg =>
    if off = 0x040 then decide (f 30 2 ≠ 3 ∧ 1 ≤ f 12 12)
    else if off = 0x044 then decide (1 ≤ f 0 12)
    else if off = 0x048 then decide (1 ≤ f 28 4 ∧ f 28 4 ≤ 8 ∧ f 24 4 ≤ 4 ∧ 1 ≤ f 16 6 ∧ f 16 6 ≤ 60)
    else if off = 0x04C then decide (1 ≤ f 0 16 ∧ f 0 16 ≤ 32768)
    else if 0x050 ≤ off ∧ off ≤ 0x05C then decide (f 16 12 ≤ 4079 ∧ f 0 12 ≤ 4079)
    else if off = 0x068 then decide (1 ≤ f 0 4 ∧ 1 ≤ f 4 4 ∧ 1 ≤ f 8 4 ∧ 1 ≤ f 12 4 ∧ 1 ≤ f 16 4)
    else if off = 0x06C then decide (1 ≤ f 0 16)
    else if off = 0x0B8 then decide (f 0 12 ≤ 4094)
    else if 0x100 ≤ off ∧ off < 0x240 then queueFieldsOk 32768 (off % 64) v
    else true
  | .coll =>
    if off = 0x040 then decide (1 ≤ f 25 4 ∧ 1 ≤ f 21 4 ∧ f 21 4 ≤ 8)
    else if 0x140 ≤ off ∧ off < 0x180 then decide (f 0 14 ≤ f 16 14)
    else if 0x800 ≤ off then queueFieldsOk 1024 (off % 64) v
    else true
  | .ckpt =>
    if off = 0x044 then decide (1 ≤ f 16 8 ∧ 1 ≤ f 8 8 ∧ 60 ≤ f 0 8 ∧ f 0 8 ≤ 104)
    else if off = 0x048 then decide (1 ≤ f 0 8 ∧ f 0 8 ≤ 200)
    else if off = 0x058 then decide (f 0 12 ≤ 4079)
    else true
  | .port =>
    if off = 0x040 then
      let n := ((List.range 16).filter fun l => v.getLsbD l).length
      decide (f 28 3 ≤ 5) && (!v.getLsbD 31 || decide (1 ≤ n ∧ n ≤ 8))
    else true
  | .lnk => if 0x100 ≤ off ∧ off < 0x140 then queueFieldsOk 1024 (off % 64) v else true
  | .route => if off = 0x054 ∨ off = 0x058 then decide (f 27 3 ≤ 5) else true
  | .clk => if off = 0x040 then decide (f 0 2 ≠ 3) else true
  | .pwr =>
    if off = 0x040 then decide (300 ≤ f 16 9 ∧ f 16 9 ≤ 360 ∧ 150 ≤ f 0 9 ∧ f 0 9 ≤ 300)
    else if off = 0x044 then decide (60 ≤ f 8 8 ∧ f 8 8 ≤ 105 ∧ 60 ≤ f 0 8 ∧ f 0 8 ≤ 104)
    else if off = 0x05C then decide (f 0 4 ≤ 8)
    else if off = 0x064 then decide (f 0 5 ≤ 19)
    else decide (inst = 0)
  | _ => true

/-- The commit group of a staged register (R638); group 0 stands for registers that a STAGE_COMMIT write
does not take (FE queue blocks). DEDUCED: assumption 31. -/
def groupOf (k : PageKind) (off : Nat) : Nat :=
  match k with
  | .clu => if off = 0x304 then 1 else 2
  | .part =>
    if off = 0x3C0 ∨ off = 0x3C4 then 1 else if off = 0x480 then 2 else if off < 0x0D0 then 3
    else if off < 0x100 then 4 else 5
  | .fe => if off < 0x100 then 1 else 0
  | .coll => if off < 0x180 then 1 else 32 + (off - 0x800) / 64
  | .lnk => if off < 0x100 then 1 else 2
  | .budget => 1 + (off - 0x40) / 4
  | _ => 1

/-- The register index of the last register of each page that a commit of the page takes, by group. -/
def State.commitOf (s : State) (p : PageId) : CommitState := s.bus.commits.get default p.base

def State.setCommit (s : State) (p : PageId) (c : CommitState) : State :=
  { s with bus := { s.bus with commits := s.bus.commits.put default p.base c } }

/-- The staged value of the register with key `key`. -/
def State.stagedOf (s : State) (key : Nat) : Option Word := s.bus.staged.get none key

def State.stage (s : State) (key : Nat) (v : Option Word) : State :=
  { s with bus := { s.bus with staged := s.bus.staged.put none key v } }

/-- The keys of a page that hold a staged value, in ascending order. -/
def State.stagedKeys (s : State) (p : PageId) : List Nat :=
  s.bus.staged.keys.filter fun k => decide (p.base ≤ k ∧ k < p.base + 0x1000)

/-- The staged keys of one group of a page. -/
def State.stagedIn (s : State) (p : PageId) (g : Nat) : List Nat :=
  (s.stagedKeys p).filter fun k => groupOf p.kind (k - p.base) == g

/-- The value a register would have after the commit of its page: the staged value, or the one in force. -/
def State.nextVal (s : State) (key : Nat) : Word := (s.stagedOf key).getD (s.reg key)

/-- The groups of a page that hold a staged value, in ascending order and without repeats. -/
def State.stagedGroups (s : State) (p : PageId) : List Nat :=
  ((s.stagedKeys p).map fun k => groupOf p.kind (k - p.base)).foldl
    (fun gs g => if g = 0 ∨ gs.contains g then gs else gs ++ [g]) []

/-- Move the staged values of a group into force (R637). -/
def State.applyStaged (s : State) (p : PageId) (g : Nat) : State :=
  (s.stagedIn p g).foldl
    (fun s k => match s.stagedOf k with
      | some v => (s.setReg k v).stage k none
      | none => s) s

/-- One group of the page's waiting commit has acted: applied or rejected (R637). When the last has, LAST and APPLIED
show it. -/
def State.settleGroup (s : State) (p : PageId) (g : Nat) (ok : Bool) : State :=
  let c := s.commitOf p
  let s := if ok then s.applyStaged p g else s
  let rest := c.groups.filter (· ≠ g)
  let applied := c.anyApplied || ok
  let rejected := c.anyRejected || !ok
  if rest.isEmpty then
    s.setCommit p { c with
      waiting := false, groups := [], anyApplied := false, anyRejected := false
      last := if rejected then 2 else 1, applied := if applied then c.applied + 1 else c.applied }
  else s.setCommit p { c with groups := rest, anyApplied := applied, anyRejected := rejected }

/-- A group's safe point has come (R638): a commit that waits for it acts. -/
def State.safePoint (s : State) (p : PageId) (g : Nat) : State :=
  let c := s.commitOf p
  if c.waiting && c.groups.contains g then s.settleGroup p g true else s

/-- The safe point of every group of a page. -/
def State.safePoints (s : State) (p : PageId) : State :=
  (s.commitOf p).groups.foldl (fun s g => s.safePoint p g) s

/-- Checks of a single 32-bit register write (R630, R647): rights, access code, reserved fields, ranges. The
answer is the specification, or the REASON of the rejection. -/
def writeCheck (f : Fn) (t : Target) (v : Word) : Except (BitVec 3) RegSpec :=
  match t.page.spec t.off with
  | none => .error 4
  | some r =>
    if r.acc = .ro ∨ r.acc = .rc then .error 4
    else if !writeRight f t.page.kind t.off then .error 4
    else if v &&& r.reserved ≠ 0 then .error 1
    else if !fieldsOk t.page.kind t.page.inst t.off v then .error 1
    else .ok r

/-- Whether a partition's own function may act on the partition now (R42, R502): the partition is configured,
and stage mode leaves functions 2–64 nothing. -/
def State.tenantOk (s : State) (f : Fn) : Bool :=
  match f with
  | .vf p => s.configured p.val && !(s.sys.stageMode && p.val ≠ 0)
  | _ => true

/-- The front door of one aligned 32-bit write: the register and its specification, or the state with the
write discarded, and logged where R635 does not forbid it. DEDUCED: assumption 28. -/
def State.openWrite (s : State) (f : Fn) (offset size : Nat) (v : Word) : Except State (Target × RegSpec) :=
  if !s.served f offset then .error s
  else
    let aligned := decide (4 ≤ size ∧ offset % size = 0)
    match s.resolve f offset with
    | none =>
      let p := logPage f
      .error (s.rejectAt f p offset (if f.isVf then p.base + offset % 0x1000 else offset) (if aligned then 4 else 2))
    | some t =>
      if !aligned then .error (s.reject f t.page t.off 2)
      else match writeCheck f t v with
        | .error r => .error (s.reject f t.page t.off r)
        | .ok r => if s.tenantOk f then .ok (t, r) else .error (s.reject f t.page t.off 5)

/-- Whether a function's BAR0 shows register `off` of page `p` (R624, R625). DEDUCED: assumption 112. -/
def State.reaches (s : State) (f : Fn) (p : PageId) (off : Nat) : Bool :=
  match f with
  | .vf n => s.resolve f (match p.kind with
      | .part => off | .fe => 0x1000 + off | .htab => 0x2000 + off | .stg => 0x3000 + off
      | .coll => 0x4000 + off | .ckpt => 0x5000 + off | _ => 0x6000) == some ⟨p, off⟩ && decide (n.val < 64)
  | _ => true

/-- Whether an access of register `off` of page `p` is served. -/
def State.servedAt (s : State) (f : Fn) (p : PageId) (off : Nat) : Bool :=
  s.served f (match f with | .vf _ => 0 | _ => p.base + off)

/-- The same, for a command that names its register by page and page offset. DEDUCED: assumption 28. -/
def State.openAt (s : State) (f : Fn) (p : PageId) (off : Nat) (v : Word) : Except State Target :=
  if !s.servedAt f p off then .error s
  else if !s.reaches f p off then .error (s.rejectAt f (logPage f) off ((logPage f).base + off) 4)
  else match writeCheck f ⟨p, off⟩ v with
    | .error r => .error (s.reject f p off r)
    | .ok _ => if s.tenantOk f then .ok ⟨p, off⟩ else .error (s.reject f p off 5)

/-- Whether a write reaches a register that the function may write (R630), so that a rejection is of its value or of the
state. DEDUCED: assumption 29. -/
def State.mayWriteAt (s : State) (f : Fn) (p : PageId) (off : Nat) : Bool :=
  s.servedAt f p off && s.reaches f p off && writeRight f p.kind off

/-- Whether the selector at a register may move (R640): no data register of its selection holds a staged
value. -/
def State.selectorFree (s : State) (t : Target) : Bool :=
  let none_ (ks : List Nat) : Bool := ks.all fun o => (s.stagedOf (t.page.base + o)).isNone
  match t.page.kind with
  | .htab => t.off ≠ 0x040 || none_ [0x60, 0x64, 0x68, 0x6C, 0x70, 0x74, 0x78, 0x7C]
  | .part => t.off ≠ 0x060 || none_ [0x64, 0x68, 0x6C, 0x70]
  | .ckpt => t.off ≠ 0x054 || none_ [0x058]
  | _ => true

/-- Stage a value (R637), unless the group waits for its safe point (R639). -/
def State.stageWrite (s : State) (f : Fn) (t : Target) (v : Word) : State :=
  let c := s.commitOf t.page
  if c.waiting && c.groups.contains (groupOf t.page.kind t.off) then s.reject f t.page t.off 5
  else s.stage t.key (some v)

/-- Clear the bits a W1C write names. -/
def State.writeOneClear (s : State) (t : Target) (v : Word) : State :=
  s.setReg t.key (s.reg t.key &&& ~~~v)

/-- The key of a function's latch or write buffer for a page (R632). -/
def bufKey (f : Fn) (p : PageId) : Nat := f.num * 0x8000 + p.base / 0x1000

/-- DEDUCED: assumption 30. -/
def State.wbufOf (s : State) (f : Fn) (p : PageId) : Option HeldHalf := s.bus.wbufs.get none (bufKey f p)

def State.setWbuf (s : State) (f : Fn) (p : PageId) (h : Option HeldHalf) : State :=
  { s with bus := { s.bus with wbufs := s.bus.wbufs.put none (bufKey f p) h } }

/-- DEDUCED: assumption 30. -/
def State.latchOf (s : State) (f : Fn) (p : PageId) : Option HeldHalf := s.bus.latches.get none (bufKey f p)

def State.setLatch (s : State) (f : Fn) (p : PageId) (h : Option HeldHalf) : State :=
  { s with bus := { s.bus with latches := s.bus.latches.put none (bufKey f p) h } }

/-- Return data to the reader. -/
def State.answer (s : State) (v : BitVec 64) : State := { s with bus := { s.bus with readData := v } }

/-- What an accepted write answers where its own conditions fail, in the model's own words: rejected with
REASON 5, wrong state. -/
def State.rejectState (s : State) (f : Fn) (t : Target) : State := s.reject f t.page t.off 5

end Sys2Proof.Machine
end

