-- ==== Sys2Proof/Machine/Mem.lean ====
section
/-! DEFINITION. The device address map (R29–R34), the bytes of the scratchpad and of the cellar, the
cellar's encryption as reads and writes see it, and translation through a partition's page table. -/

namespace Sys2Proof.Machine

/-- The windows of the device address map (R29). -/
inductive Window where
  | pad | celPhys | celView | regs | remote | host | hole
deriving DecidableEq, Repr

/-- The window of a device address (R29). -/
def windowOf (a : BitVec 64) : Window :=
  let n := a.toNat
  if n < 0x200000000 then .pad
  else if 0x1000000000 ≤ n ∧ n < 0x1C00000000 then .celPhys
  else if 0x4000000000 ≤ n ∧ n < 0x5000000000 then .celView
  else if 0xF000000000 ≤ n ∧ n < 0xF004000000 then .regs
  else if 0x8000000000000000 ≤ n then .host
  else if 0x4000000000000000 ≤ n then .remote
  else .hole

/-- Where the model places the copy that INFO names (R316): the 64 B after the register window, a hole that only the
binding of handle 4,083 reaches. DESIGN CHOICE: assumption 86. -/
def infoBase : Nat := 0xF004000000

/-! ## Scratchpad address fields (R34, R176) -/

def padCluster (a : Nat) : Nat := a / 0x8000000
def padTile (a : Nat) : Nat := a / 0x800000 % 16
def padTier (a : Nat) : Nat := a / 0x200000 % 4
/-- The global bank index (R176). -/
def padBank (a : Nat) : Nat := a / 0x20000
def padRow (a : Nat) : Nat := a / 0x80 % 1024

/-- The cluster of a global bank index. -/
def bankCluster (b : Nat) : Nat := b / 1024
def bankTile (b : Nat) : Nat := b / 64 % 16
def bankTier (b : Nat) : Nat := b / 16 % 4

/-- How many tiles a cluster has enabled (R13, R5). -/
def State.tilesEnabled (s : State) (c : Nat) : Nat :=
  ((List.range 16).filter fun i => !(s.fuse.disabled.get 0 c).getLsbD i).length

/-- Whether logical tile `t` of cluster `c` is enabled and not mapped out (R13). -/
def State.tileLive (s : State) (c t : Nat) : Bool :=
  decide (t < s.tilesEnabled c) && !(s.fuse.tileOut.get false (c * 16 + t))

/-- Whether a bank is a hole (R30, R175, R183). -/
def State.bankHole (s : State) (b : Nat) : Bool :=
  (s.bankOf b).hole || !s.tileLive (bankCluster b) (bankTile b)

/-! ## Bytes of the scratchpad -/

/-- DEDUCED: assumption 14. -/
def State.padByte (s : State) (a : Nat) : Byte := s.pad.mem.get 0 a

/-- Read `n` bytes from scratchpad address `a`. -/
def State.padRead (s : State) (a : Nat) : Nat → List Byte
  | 0 => []
  | n + 1 => s.padByte a :: State.padRead s (a + 1) n

/-- Write bytes into a byte map. -/
def putBytes (m : SMap Byte) (a : Nat) : List Byte → SMap Byte
  | [] => m
  | b :: bs => putBytes (m.put 0 a b) (a + 1) bs

/-- Write bytes at scratchpad address `a`, with no check; each bank written is marked dirty (R438). -/
def State.padWrite (s : State) (a : Nat) (data : List Byte) : State :=
  let banks := if data.isEmpty then [] else
    (List.range ((a + data.length - 1) / 0x20000 - a / 0x20000 + 1)).map (· + a / 0x20000)
  { s with
    pad := { s.pad with mem := putBytes s.pad.mem a data }
    ckpt := { s.ckpt with bankDirty := banks.foldl (fun m b => m.put false b true) s.ckpt.bankDirty } }

/-- The ECC words (8 B) that a range of `n` bytes at `a` touches (R172). -/
def wordsOf (a n : Nat) : List Nat :=
  if n = 0 then [] else (List.range ((a + n - 1) / 8 - a / 8 + 1)).map (· + a / 8)

/-- Whether the range covers ECC word `w` whole. -/
def coversWord (a n w : Nat) : Bool := decide (a ≤ 8 * w ∧ 8 * w + 8 ≤ a + n)

/-- The rows (128 B) that a range touches. -/
def rowsOf (a n : Nat) : List Nat :=
  if n = 0 then [] else (List.range ((a + n - 1) / 128 - a / 128 + 1)).map (· + a / 128)

/-- Whether some word of the range is poisoned (R543). -/
def State.poisoned (s : State) (a n : Nat) : Bool := (wordsOf a n).any fun w => s.pad.poison.get false w

/-- Rows of the range in which the write covers an ECC word only partly: each costs a read-modify-write
(R172, R204). DEDUCED: assumption 41. -/
def rmwRows (a n : Nat) : Nat :=
  ((rowsOf a n).filter fun r => (wordsOf a n).any fun w => w / 16 == r && !coversWord a n w).length

/-- The first byte of a range that lies in a poisoned word. -/
def State.poisonAt (s : State) (a n : Nat) : BitVec 64 :=
  BitVec.ofNat 64 (max a (8 * ((wordsOf a n).find? fun w => s.pad.poison.get false w).getD 0))

/-- The 128 B windows in which a range is read or written at a bank's port (R203, R204): from its first byte on.
DEDUCED: assumption 41. -/
def padWindows (a n : Nat) : List (Nat × Nat) :=
  (List.range ((n + 127) / 128)).map fun i => (a + 128 * i, min 128 (n - 128 * i))

/-- Count the second row accesses and the read-modify-writes of a NoC-port request, for the partition it is made for
(R203–R205). DEDUCED: assumption 41. -/
def State.countRows (s : State) (p : Option Nat) (a n : Nat) (wr : Bool) : State :=
  let ws := padWindows a n
  let rot := (ws.map fun w => (rowsOf w.1 w.2).length - 1).sum
  let rmw := if wr then (ws.map fun w => rmwRows w.1 w.2).sum else 0
  let s := (s.bump .clu (padCluster a) 0x528 rot).bump .clu (padCluster a) 0x524 rmw
  match p with
  | some p => if p < 64 then (s.bump .part p 0x418 rot).bump .part p 0x414 rmw else s
  | none => s

/-- The error record of an uncorrectable word (R538, R543). -/
def State.sramUe (s : State) (a : Nat) : ErrRec :=
  { ErrRec.mk0 0x02 sevContained (srcOf 0 (padCluster a * 16 + padTile a)) with
    owner := ownerByte (s.bankOf (padBank a)).owner, flags := 0x20, location := BitVec.ofNat 64 (a / 128 * 128),
    syndrome := BitVec.ofNat 32 (a / 8 % 16) }

/-- Decide on a map-out of a row (R544); a decision that zeros replace the row stands over one that copies it.
DEDUCED: assumption 47. -/
def State.decideRow (s : State) (bank row : Nat) (zero : Bool) : State :=
  { s with err := { s.err with
      decided := s.err.decided.modify none (bank * 1024 + row) fun d => some (zero || d.getD false) } }

/-- Feed the row tracker (R544): add `n` to a row's count, most recently updated first, at most 4,096 entries. A count
that reaches ROW_CE_LIMIT decides on a map-out. -/
def State.track (s : State) (bank row n : Nat) : State :=
  let old := (s.err.tracker.find? fun e => e.bank == bank && e.row == row).map (·.count) |>.getD 0
  let rest := s.err.tracker.filter fun e => !(e.bank == bank && e.row == row)
  let s := { s with err := { s.err with tracker := (⟨bank, row, old + n⟩ :: rest).take 4096 } }
  if ((s.pr .err 0 0x40).extractLsb' 16 8).toNat ≤ old + n then s.decideRow bank row false else s

/-- An uncorrectable word of the scratchpad has been decoded (R543, R544): recorded, tracked, its row's map-out
decided. DEDUCED: assumption 44. -/
def State.foundUe (s : State) (a : Nat) : State :=
  ((s.record (s.sramUe a)).track (padBank a) (padRow a) 1).decideRow (padBank a) (padRow a) true

/-- Record each poisoned word of a range that a read decodes (R543). DEDUCED: assumption 44. -/
def State.notePoison (s : State) (a n : Nat) : State :=
  ((wordsOf a n).filter fun w => s.pad.poison.get false w).foldl
    (fun s w => s.foundUe (8 * w)) s

/-- Write bytes as a bank does (R172, R543): a word covered whole loses its poison; a word covered partly
keeps it, and the read half of the read-modify-write records it. DEDUCED: assumption 45. -/
def State.bankWrite (s : State) (a : Nat) (data : List Byte) : State :=
  let n := data.length
  let ws := wordsOf a n
  let s := (ws.filter fun w => !coversWord a n w && s.pad.poison.get false w).foldl
    (fun s w => s.foundUe (8 * w)) s
  let s := s.padWrite a data
  { s with pad := { s.pad with
      poison := (ws.filter (coversWord a n)).foldl (fun m w => m.put false w false) s.pad.poison } }

/-! ## Bytes of the cellar (R213–R224) -/

/-- The key slot's key; 0 where it holds none. Slot 64 is the device key. -/
def State.keyOf (s : State) (slot : Nat) : Nat := s.cel.keys.get 0 slot

/-- What an unlisted cellar byte is: a zero written under the key its page was last scrubbed with.
DEDUCED: assumption 14. -/
def State.celDefault (s : State) (off : Nat) : CelByte := ⟨s.cel.pageKey.get 0 (off / 0x200000), 0⟩

/-- The stored byte at cellar physical offset `off`. -/
def State.celCell (s : State) (off : Nat) : CelByte := s.cel.mem.get (s.celDefault off) off

/-- The byte that a read under `key` returns (R217): the plain byte where its 16 B block was written under
that key whole, otherwise what the cipher makes of it. DEDUCED: assumptions 14, 49. -/
def State.celByte (s : State) (key off : Nat) : Byte :=
  let base := off / 16 * 16
  let block := (List.range 16).map fun i => s.celCell (base + i)
  if key ≠ 0 ∧ block.all fun c => c.key == key then (s.celCell off).val
  else Config.xts key (off / 4096) (off / 16 % 256) (block.map fun c => (c.key, c.val)) (off % 16)

/-- Read `n` bytes under `key`. -/
def State.celRead (s : State) (key off : Nat) : Nat → List Byte
  | 0 => []
  | n + 1 => s.celByte key off :: State.celRead s key (off + 1) n

/-- Store plain bytes written under `key`. -/
def State.putCells (s : State) (key off : Nat) : List Byte → SMap CelByte → SMap CelByte
  | [], m => m
  | b :: bs, m => State.putCells s key (off + 1) bs (m.put (s.celDefault off) off ⟨key, b⟩)

/-- Write bytes under `key`: whole 64 B units, a partly covered unit by a read, a merge and a write (R214). A unit
covered whole loses its poison, a partly covered one keeps it (R551). -/
def State.celWrite (s : State) (key off : Nat) (data : List Byte) : State :=
  let n := data.length
  if n = 0 then s
  else
    let lo := off / 64 * 64
    let hi := (off + n + 63) / 64 * 64
    let all := s.celRead key lo (off - lo) ++ data ++ s.celRead key (off + n) (hi - (off + n))
    let whole := (List.range ((hi - lo) / 64)).map (· + lo / 64) |>.filter
      fun u => decide (off ≤ 64 * u ∧ 64 * u + 64 ≤ off + n)
    { s with cel := { s.cel with
        mem := s.putCells key lo all s.cel.mem
        poison := whole.foldl (fun m u => m.put false u false) s.cel.poison } }

/-- Whether a 64 B unit of the range is poisoned (R551). -/
def State.celPoisoned (s : State) (off n : Nat) : Bool :=
  n ≠ 0 && ((List.range ((off + n - 1) / 64 - off / 64 + 1)).any fun i => s.cel.poison.get false (off / 64 + i))

/-- Read `n` bytes under `key`, where a poisoned unit's bytes are free values (R551). -/
def State.celReadOpen (s : State) (key off n : Nat) : List Byte :=
  (List.range n).map fun i =>
    if s.cel.poison.get false ((off + i) / 64) then (Config.freeWord (s.sys.freeCtr + i)).truncate 8
    else s.celByte key (off + i)

/-- Scrub a 2 MiB page to zeros under `key` (R222). -/
def State.scrubPage (s : State) (key ppn : Nat) : State :=
  { s with cel := { s.cel with
      mem := s.cel.mem.keep fun k _ => k / 0x200000 ≠ ppn
      pageKey := s.cel.pageKey.put 0 ppn key
      poison := s.cel.poison.keep fun u _ => u / 0x8000 ≠ ppn } }

/-- The pool's page count under the carve in force (R215). -/
def State.poolPages (s : State) : Nat := (48 * 1024 - 512 - (s.pr .cel 0 0x40).toNat % 32 * 1024) / 2

/-- The buddy area's halves (R215, R440): the bytes of one, and where each begins. -/
def State.halfBytes (s : State) : Nat := (s.pr .cel 0 0x40).toNat % 32 * 0x20000000
def State.halfBase (s : State) (h : Nat) : Nat := 0xBE0000000 - 2 * s.halfBytes + h * s.halfBytes

/-- Whether a read of `n` bytes at cellar offset `off` touches a half's journal, or a half that is receiving a
checkpoint (R454). -/
def State.halfBarred (s : State) (off n : Nat) : Bool :=
  [0, 1].any fun h =>
    let b := s.halfBase h
    match s.ckpt.half.find? fun e => e.1 == h with
    | some e =>
      let image := b + 0x400000 + ((e.2.slots.keys.getLast?.map (· + 1)).getD 0) * 0x200000
      let busy := !e.2.journal.isEmpty || !e.2.rx.isEmpty
      decide (off < b + s.halfBytes ∧ (if busy then b else image) < off + n)
    | none => decide (off < b + s.halfBytes ∧ b + 0x400000 < off + n)

/-! ## Translation (R220–R226) -/

/-- The outcome of a translation through a page table. -/
inductive Xlat where
  | ok (phys : Nat)
  | miss (vpn : Nat)
  | rights
  | scrubbing (vpn : Nat)
deriving DecidableEq, Repr

/-- Translate partition-view offset `v` for partition `p` (R220, R223, R225, R226). DEDUCED: assumption 57. -/
def State.translate (s : State) (p v : Nat) (write : Bool) : Xlat :=
  let vpn := v / 0x200000
  let e := s.pteOf p vpn
  if !e.getLsbD 63 || (s.cel.unmapping.get none (p * 32768 + vpn)).isSome then .miss vpn
  else if !(if write then e.getLsbD 61 else e.getLsbD 62) then .rights
  else if e.getLsbD 59 then .scrubbing vpn
  else .ok ((e.extractLsb' 21 15).toNat * 0x200000 + v % 0x200000)

/-- The device sets DIRTY before the first write through an entry lands (R220, R224). -/
def State.markDirty (s : State) (p v : Nat) : State :=
  let vpn := v / 0x200000
  s.setPte p vpn (s.pteOf p vpn ||| (1#64 <<< 60))

/-- The pieces of a range that lie in one 2 MiB page each: offset and length. `fuel` bounds the count. -/
def pagePieces (v n : Nat) : Nat → List (Nat × Nat)
  | 0 => []
  | fuel + 1 =>
    if n = 0 then []
    else
      let k := min n (0x200000 - v % 0x200000)
      (v, k) :: pagePieces (v + k) (n - k) fuel

/-- Why a partition's access to the cellar view does not go through. -/
inductive CelFault where
  | miss (vpn : Nat)
  | rights
  | scrubbing (vpn : Nat)
  | poison
deriving DecidableEq, Repr

/-- Read `n` bytes of a partition's cellar view at `v`. -/
def State.viewRead (s : State) (p v n : Nat) : Except CelFault (List Byte) :=
  (pagePieces v n (n / 0x200000 + 2)).foldl
    (fun acc piece => match acc with
      | .error e => .error e
      | .ok bs => match s.translate p piece.1 false with
        | .ok phys =>
          if s.celPoisoned phys piece.2 then .error .poison
          else .ok (bs ++ s.celRead (s.keyOf p) phys piece.2)
        | .miss vpn => .error (.miss vpn)
        | .rights => .error .rights
        | .scrubbing vpn => .error (.scrubbing vpn)) (.ok [])

/-- Check that every page of a range of a partition's view may be written. -/
def State.viewWritable (s : State) (p v n : Nat) : Option CelFault :=
  (pagePieces v n (n / 0x200000 + 2)).foldl
    (fun acc piece => match acc with
      | some e => some e
      | none => match s.translate p piece.1 true with
        | .ok _ => none
        | .miss vpn => some (.miss vpn)
        | .rights => some .rights
        | .scrubbing vpn => some (.scrubbing vpn)) none

/-- Write bytes into a partition's cellar view at `v`; `viewWritable` has been checked. -/
def State.viewWrite (s : State) (p v : Nat) (data : List Byte) : State :=
  ((pagePieces v data.length (data.length / 0x200000 + 2)).foldl
    (fun acc piece =>
      let s := acc.1
      match s.translate p piece.1 true with
      | .ok phys => ((s.celWrite (s.keyOf p) phys (acc.2.take piece.2)).markDirty p piece.1, acc.2.drop piece.2)
      | _ => (s, acc.2.drop piece.2)) (s, data)).1

/-! ## The checkpoint scope (R433, R435) -/

/-- The handles in the checkpoint scope in force, by scope entry. -/
def State.scopeHandles (s : State) : List Handle :=
  (List.range 16).filterMap fun i =>
    let e := s.ckpt.scope.get 0 i
    if e.getLsbD 31 then some (s.handleOf 0 (e.toNat % 4096)) else none

/-- Whether a write by partition `p` of `n` bytes at device address `a` is refused because it would land in the
checkpoint scope outside the critical section while a checkpoint is being sent (R435). -/
def State.scopeHit (s : State) (p a n : Nat) : Bool :=
  s.ckpt.st == 1 && s.sys.stageMode && s.stg.st != 4 && p == 0 && n != 0 &&
  s.scopeHandles.any fun h => decide (a < h.dev.toNat + h.size.toNat ∧ h.dev.toNat < a + n)

/-- Refuse a write under R435: counted, and a JOB_FAULT of cause 0x01 is noted (R344). DEDUCED: assumption 72. -/
def State.scopeRefuse (s : State) : State :=
  let s := s.bump .ckpt 0 0x84
  if s.stg.pendingFault.isNone then
    { s with stg := { s.stg with pendingFault := some ⟨1, 0xFFF, s.stg.st == 4, false⟩ } }
  else s

/-- A write that did not land: refused where the checkpoint scope bars it (R435). DEDUCED: assumption 72. -/
def State.scopeNote (s : State) (p a n : Nat) : State := if s.scopeHit p a n then s.scopeRefuse else s

/-! ## Undefined contents (R161, R244, R449) -/

/-- `n` bytes that the spec leaves undefined. -/
def openBytes (ctr n : Nat) : List Byte := (List.range n).map fun i => (Config.freeWord (ctr + i)).truncate 8

/-- The parts of a scratchpad range that lie in one bank each: address and length. -/
def bankParts (a n : Nat) : List (Nat × Nat) :=
  if n = 0 then []
  else (List.range (padBank (a + n - 1) - padBank a + 1)).map fun i =>
    let b := padBank a + i
    (max a (b * 0x20000), min (a + n) ((b + 1) * 0x20000) - max a (b * 0x20000))

/-- Whether a command of partition `p` may have written bank `b`: it owns the bank, or owned it when the command was
dispatched (R187); 64 stands for the device. -/
def State.padMine (s : State) (p b : Nat) : Bool :=
  let who : Option (Fin 64) := if h : p < 64 then some ⟨p, h⟩ else none
  let e := s.bankOf b
  !s.bankHole b && (e.owner == who || (who.isSome && e.former == who))

/-- The scratchpad bytes of a range become undefined. -/
def State.openPad (s : State) (p a n : Nat) : State :=
  let ctr := s.sys.freeCtr
  let parts := (bankParts a n).filter fun q => s.padMine p (padBank q.1)
  { s with
    pad := { s.pad with
      mem := parts.foldl (fun m q => putBytes m q.1 (openBytes (ctr + (q.1 - a)) q.2)) s.pad.mem }
    ckpt := { s.ckpt with bankDirty := parts.foldl (fun m q => m.put false (padBank q.1) true) s.ckpt.bankDirty }
    sys := { s.sys with freeCtr := ctr + n } }

/-- The contents of `n` bytes at device address `a` of partition `p` become undefined: in banks that the partition's
command may have written, and in pages of its cellar view that it may write. Host memory and other devices are outside.
DEDUCED: assumption 138. -/
def State.openDev (s : State) (p a n : Nat) : State :=
  match windowOf (BitVec.ofNat 64 a) with
  | .pad => s.openPad p a n
  | .celView => { s.viewWrite p (a % 0x1000000000) (openBytes s.sys.freeCtr n) with
      sys := { s.sys with freeCtr := s.sys.freeCtr + n } }
  | .celPhys =>
    if p < 64 then s
    else { s.celWrite (s.keyOf 64) (a - 0x1000000000) (openBytes s.sys.freeCtr n) with
      sys := { s.sys with freeCtr := s.sys.freeCtr + n } }
  | _ => s

/-- The outputs of a command of partition `p` become undefined, but for what the checkpoint scope bars from every write
(R435). DEDUCED: assumption 138. -/
def State.openOutputs (s : State) (p : Nat) (rs : List (Nat × Nat)) : State :=
  (rs.filter fun q => !s.scopeHit p q.1 q.2).foldl (fun s q => s.openDev p q.1 q.2) s

/-! ## Little-endian words -/

/-- The little-endian value of a list of bytes. -/
def leVal : List Byte → Nat
  | [] => 0
  | b :: bs => b.toNat + 256 * leVal bs

/-- The `n` little-endian bytes of a number. -/
def leBytes : Nat → Nat → List Byte
  | 0, _ => []
  | n + 1, v => BitVec.ofNat 8 v :: leBytes n (v / 256)

end Sys2Proof.Machine
end

