-- ==== Sys2Proof/Machine/Queue.lean ====
section
/-! DEFINITION. The queue primitive (R249–R277): words, items, credits, the idle item, cut-through, forced
reset, flush, watermarks and the STALL_N pins. -/

namespace Sys2Proof

/-- The number that keys an instance. -/
def QInst.num : QInst → Nat
  | .stg n => n.val
  | .ledger => 8
  | .link n => 16 + n.val
  | .replay n => 32 + n.val
  | .ingest n => 64 + n.val
  | .coll n => 128 + n.val
  | .sync n => 192 + n.val
  | .slot n => 256 + n.val
  | .mover n => 512 + n.val

/-- Whether the instance keeps its pointers twice (R249, R268). -/
def QInst.duplicated : QInst → Bool
  | .slot _ | .replay _ | .ledger | .coll _ => true
  | _ => false

end Sys2Proof

namespace Sys2Proof.Machine

/-- The register block of an instance (R274): page and offset; none for instances of fixed configuration. -/
def queueRegs : QInst → Option (PageId × Nat)
  | .stg n => some (⟨.stg, 0⟩, 0x100 + 64 * n.val)
  | .link n => some (⟨.lnk, n.val⟩, 0x100)
  | .ingest n => some (⟨.part, n.val⟩, 0x100)
  | .coll n => some (⟨.coll, 0⟩, 0x800 + 64 * n.val)
  | _ => none

/-- The instance that a register block belongs to. -/
def blockInst (p : PageId) (off : Nat) : Option QInst :=
  match p.kind with
  | .stg => if h : 0x100 ≤ off ∧ off < 0x240 then some (.stg ⟨(off - 0x100) / 64, by omega⟩) else none
  | .lnk => if 0x100 ≤ off ∧ off < 0x140 then some (.link (Fin.ofNat 16 p.inst)) else none
  | .part => if 0x100 ≤ off ∧ off < 0x140 then some (.ingest (Fin.ofNat 64 p.inst)) else none
  | .coll => if 0x800 ≤ off then some (.coll (Fin.ofNat 32 ((off - 0x800) / 64))) else none
  | _ => none

/-- The depth of an instance as a power of two (R249, R526; STG.QDEPTH of R348). -/
def State.depthLog2 (s : State) : QInst → Nat
  | .stg n => ((s.pr .stg 0 0x68).extractLsb' (4 * (4 - n.val)) 4).toNat
  | .ingest n => ((s.pr .part n.val 0xD0).extractLsb' 16 4).toNat
  | .link _ | .coll _ => 10
  | .replay _ => 9
  | .slot _ => 11
  | .mover _ => 4
  | .sync _ => 5
  | .ledger => 6

/-- The depth D in words. -/
def State.depth (s : State) (q : QInst) : Nat := 2 ^ s.depthLog2 q

/-- The maximum item length of an instance (R249); a stage queue's is ITEM_WORDS. -/
def State.maxItem (s : State) : QInst → Nat
  | .stg _ => let w := (s.pr .stg 0 0x4C).toNat % 65536; if w = 0 then 32768 else w
  | .ingest n => min 8192 (s.depth (.ingest n))
  | .link _ => 16
  | .coll _ => 64
  | _ => 1

def State.que1 (s : State) (q : QInst) : QueueSt := s.que.inst.get QueueSt.init q.num

def State.setQue (s : State) (q : QInst) (v : QueueSt) : State :=
  { s with que := { s.que with inst := s.que.inst.put QueueSt.init q.num v } }

/-- The received flits of a link whose credits are out (R355, R365): those held for their turn, and those that stand in
a sub-queue. DESIGN CHOICE: assumption 143. -/
def State.linkFlits (s : State) (l : Nat) : Nat :=
  (s.lk.link.map fun e => if e.1 == l then e.2.held.length else 0).sum +
  (s.lk.port.map fun e => (e.2.rx.map fun r => r.2.countP fun f => f.credit && f.member.val == l).sum).sum

/-- The occupancy of an instance (R264): D minus the producer's credits. -/
def State.occ (s : State) (q : QInst) : Nat :=
  (s.que1 q).used + match q with
    | .link l => s.linkFlits l.val
    | _ => 0

/-- The producer's credits (R255). -/
def State.credits (s : State) (q : QInst) : Nat := s.depth q - s.occ q

/-- Count in a counter of the instance's register block, where it has one. -/
def State.queCount (s : State) (q : QInst) (off n : Nat) : State :=
  match queueRegs q with
  | some (p, b) => s.bump p.kind p.inst (b + off) n
  | none => s

/-- Q_CFG of the instance; 0 where it has no block. -/
def State.queCfg (s : State) (q : QInst) : Word :=
  match queueRegs q with
  | some (p, b) => s.pr p.kind p.inst b
  | none => 0

/-- Q_WM of the instance. At the reset value its thresholds follow the depth (R274). -/
def State.queWm (s : State) (q : QInst) : Word :=
  match queueRegs q with
  | some (p, b) =>
    match s.bus.regs.find? fun e => e.1 == p.base + b + 4 with
    | some e => e.2
    | none => BitVec.ofNat 32 (s.depth q * 3 / 4 * 65536 + s.depth q / 4)
  | none => 0

/-! ## Watermarks (R264–R266) -/

/-- The instances that keep a watermark. -/
def wmInstances : List QInst :=
  (List.range 5).map (fun n => QInst.stg (Fin.ofNat 5 n)) ++
  (List.range 16).map (fun n => QInst.link (Fin.ofNat 16 n)) ++
  (List.range 64).map (fun n => QInst.ingest (Fin.ofNat 64 n)) ++
  (List.range 32).map (fun n => QInst.coll (Fin.ofNat 32 n))

/-- MGMT.WM_GROUPS (R265): the groups with a set watermark. -/
def State.wmGroups (s : State) : Word :=
  wmInstances.foldl (fun m q =>
    if (s.que1 q).wm then m ||| (1#32 <<< ((s.queCfg q).extractLsb' 24 5).toNat) else m) 0

/-- Drive or release the STALL_N pins (R266): a pin driven low stays low for 160 ns.
DESIGN CHOICE: assumption 39; DEDUCED: assumption 131. -/
def State.updateStall (s : State) : State :=
  let g := s.wmGroups
  [0, 1, 2, 3].foldl (fun s n =>
    let want := (s.pr .mgmt 0 (0x100 + 4 * n)) &&& g ≠ 0
    let driven := s.que.stallDriven.getLsbD n
    if want && !driven then
      ({ s with que := { s.que with
          stallDriven := s.que.stallDriven ||| (1#4 <<< n)
          stallSince := s.que.stallSince.put 0 n s.sys.time } }).raise .mgmt 0 0x2
    else if !want && driven && decide ((s.sys.time - s.que.stallSince.get 0 n).toNat ≥ 160) then
      { s with que := { s.que with stallDriven := s.que.stallDriven &&& ~~~(1#4 <<< n) } }
    else s) s

/-- Evaluate the watermark of an instance (R264) and act on a change (R265). DESIGN CHOICE: assumption 40. -/
def State.evalWm (s : State) (q : QInst) : State :=
  let cfg := s.queCfg q
  let wm := s.queWm q
  let st := s.que1 q
  let now :=
    if !cfg.getLsbD 31 then false
    else if decide (s.occ q ≥ (wm.extractLsb' 16 16).toNat) then true
    else if decide (s.occ q ≤ (wm.extractLsb' 0 16).toNat) then false
    else st.wm
  if now = st.wm then s
  else
    let s := s.setQue q { st with wm := now }
    let s := if now && cfg.getLsbD 30 then
        match q with
        | .ingest n => s.sendMsix (n.val + 1) 15
        | .stg _ => s.announce ⟨.stg, 0⟩ 1 1
        | .coll _ => s.announce ⟨.coll, 0⟩ 1 1
        | .link n => s.announce ⟨.lnk, n.val⟩ 1 1
        | _ => s
      else s
    s.updateStall

/-! ## Words and items -/

/-- Mark the last word of a list with EOI and BROKEN (R263), and with POISON where its item has it (R267). -/
def breakLast (taint : Bool) : List QWord → List QWord
  | [] => []
  | [x] => [{ x with eoi := true, broken := true, poison := x.poison || taint }]
  | x :: y :: xs => x :: breakLast taint (y :: xs)

/-- The words of the item the consumer is in or comes to next: up to and including the first EOI. -/
def firstItem : List QWord → List QWord
  | [] => []
  | x :: xs => if x.eoi then [x] else x :: firstItem xs

/-- Whether the item at the front is available (R261). -/
def itemAvailable (cut : Nat) (ws : List QWord) : Bool :=
  let it := firstItem ws
  (it.getLast?.map (·.eoi)).getD false || decide (cut ≠ 0 ∧ cut ≤ it.length)

/-- A word written by the producer (R255, R256, R263, R267). -/
def State.queWrite (s : State) (q : QInst) (data : List Byte) (eoi : Bool) (poison : Bool := false) : State :=
  let st := s.que1 q
  let D := s.depth q
  if st.dropping then
    let s := s.queCount q 0x1C 1
    if eoi then s.setQue q { st with dropping := false, flushing := false, inWrite := 0 } else s
  else if decide (D ≤ st.used) then
    (s.queCount q 0x1C 1).record
      { ErrRec.mk0 0x0A sevDevice (srcOf 4 2) with detail := BitVec.ofNat 256 q.num }
  else if decide (s.maxItem q < st.inWrite + 1) then
    let unread := decide (st.words ≠ [])
    let st := if unread then { st with words := breakLast st.taint st.words } else { st with owed := true }
    (s.queCount q 0x1C 1).setQue q { st with dropping := !eoi, inWrite := 0, taint := false }
  else
    (s.setQue q { st with
      words := st.words ++ [⟨data, eoi, false, poison || (eoi && st.taint), false⟩]
      w := (st.w + 1) % (2 * D)
      used := st.used + 1
      inWrite := if eoi then 0 else st.inWrite + 1
      taint := !eoi && (st.taint || poison) }).evalWm q

/-- The idle item (R260). DEDUCED: assumption 58. -/
def idleWord (n : Nat) : QWord := ⟨List.replicate n 0, true, true, false, false⟩

/-- The bytes of a word of the instance (R249). -/
def wordBytes : QInst → Nat
  | .stg _ | .ingest _ => 4096
  | .link _ | .replay _ | .coll _ => 256
  | _ => 64

/-- A read by the consumer (R251, R255, R260, R261, R263, R269). DEDUCED: assumption 58. -/
def State.queRead (s : State) (q : QInst) : State :=
  let st := s.que1 q
  let give (s : State) (w : Option QWord) : State := { s with que := { s.que with readWord := w } }
  let cut := (s.queCfg q).toNat % 65536
  if st.owed then
    give ((s.setQue q { st with owed := false, inRead := false }).queCount q 0x24 1)
      (some ⟨List.replicate (wordBytes q) 0, true, false, false, true⟩)
  else match st.words with
    | [] => if st.inRead then give s none else give (s.queCount q 0x20 1) (some (idleWord (wordBytes q)))
    | x :: xs =>
      if !st.inRead && !itemAvailable cut st.words then give (s.queCount q 0x20 1) (some (idleWord (wordBytes q)))
      else
        let s := s.setQue q { st with
          words := xs, rp := (st.rp + 1) % (2 * s.depth q), used := st.used - 1, inRead := !x.eoi }
        let s := if x.eoi && (x.broken || x.poison) then s.queCount q 0x24 1 else s
        give (s.evalWm q) (some x)

/-- A forced reset (R269). -/
def State.queReset (s : State) (q : QInst) : State :=
  let st := s.que1 q
  let s := (s.queCount q 0x18 1).queCount q 0x1C st.words.length
  (s.setQue q { st with
    words := [], w := 0, rp := 0, used := 0, owed := st.owed || st.inRead, inRead := false
    dropping := st.dropping || decide (st.inWrite ≠ 0), inWrite := 0, taint := false
    flushing := false }).evalWm q

/-- A flush (R271, R272). -/
def State.queFlush (s : State) (q : QInst) : State :=
  let st := s.que1 q
  let keep := if st.inRead && !st.owed then firstItem st.words else []
  let readOpen := st.inRead && !st.owed && !((keep.getLast?.map (·.eoi)).getD false)
  let partial_ := decide (st.inWrite ≠ 0) && !readOpen
  let dropped := st.words.length - keep.length
  let s := s.queCount q 0x1C dropped
  (s.setQue q { st with
    words := keep
    rp := (st.rp + dropped) % (2 * s.depth q)
    used := st.used - dropped
    dropping := st.dropping || partial_
    inWrite := if partial_ then 0 else st.inWrite
    taint := st.taint && !partial_
    flushing := st.flushing || partial_ }).evalWm q

/-- Return `n` credits without a read: the owner releases words it consumed in place (R251, R528). -/
def State.queRelease (s : State) (q : QInst) (n : Nat) : State :=
  let st := s.que1 q
  (s.setQue q { st with
    words := st.words.drop n, rp := (st.rp + n) % (2 * s.depth q), used := st.used - n }).evalWm q

/-- Reset the instance's counters and content when its owner changes (R276). -/
def State.queClear (s : State) (q : QInst) : State :=
  let s := s.setQue q QueueSt.init
  match queueRegs q with
  | some (p, b) => (s.clearRegs p.kind p.inst (b + 0x14) (b + 0x28)).updateStall
  | none => s

/-! ## The rows -/

/-- QUEUE_WRITE (R255). -/
def execQueueWrite (q : QInst) (data : List Byte) (eoi : Bool) (s : State) : Out :=
  .next (s.queWrite q data eoi)

/-- QUEUE_READ (R251, R260). -/
def execQueueRead (q : QInst) (s : State) : Out := .next (s.queRead q)

/-- QUEUE_FLUSH (R271): a write of Q_CTRL. -/
def execQueueFlush (f : Fn) (q : QInst) (v : Word) (s : State) : Out :=
  match queueRegs q with
  | none => .next s
  | some (p, b) =>
    match s.openAt f p (b + 0x0C) v with
    | .error s => .next s
    | .ok _ => .next (if v.getLsbD 0 then s.queFlush q else s)

/-- STALL_N_HOLD_EXPIRY (R266): the minimum low time of a pin ends. DESIGN CHOICE: assumption 5. -/
def execStallNHoldExpiry (_n : Fin 4) (s : State) : Out := .next s.updateStall

end Sys2Proof.Machine
end

