-- ==== Sys2Proof/Machine/Flight.lean ====
section
/-! DEFINITION. Command records as the front end holds them: their fields (R458), and the dispatched records
(flights) with the ways an engine ends one. -/

namespace Sys2Proof.Machine

/-! ## Record fields (R458) -/

/-- Bits `lo` to `lo + n − 1` of byte `byte` onward of a 64 B record. -/
def recField (raw : BitVec 512) (byte lo n : Nat) : BitVec n := raw.extractLsb' (8 * byte + lo) n

def LRec.opcode (r : LRec) : BitVec 8 := recField r.raw 0 0 8
def LRec.pwEn (r : LRec) : Bool := r.raw.getLsbD 15
def LRec.sigEn (r : LRec) : Bool := r.raw.getLsbD 14
def LRec.sigArrive (r : LRec) : Bool := r.raw.getLsbD 13
def LRec.barrier (r : LRec) : Bool := r.raw.getLsbD 12
def LRec.sub (r : LRec) : BitVec 16 := recField r.raw 2 0 16
/-- DEP0–DEP2: distances back. -/
def LRec.deps (r : LRec) : List Nat :=
  [(recField r.raw 4 0 14).toNat, (recField r.raw 6 0 14).toNat, (recField r.raw 8 0 14).toNat]
def LRec.pwTimeout (r : LRec) : BitVec 5 := recField r.raw 12 0 5
def LRec.pwVid (r : LRec) : BitVec 12 := recField r.raw 14 0 12
def LRec.pwTarget (r : LRec) : BitVec 32 := recField r.raw 16 0 32
def LRec.sigVid (r : LRec) : BitVec 12 := recField r.raw 20 0 12
def LRec.sigAmount (r : LRec) : BitVec 16 := recField r.raw 22 0 16
def LRec.imm (r : LRec) : BitVec 64 := recField r.raw 24 0 64
/-- A field of IMM. -/
def LRec.immF (r : LRec) (lo n : Nat) : Nat := (r.imm.extractLsb' lo n).toNat
/-- A field of SUB. -/
def LRec.subF (r : LRec) (lo n : Nat) : Nat := (r.sub.extractLsb' lo n).toNat
/-- Word `k` of the parameter block; 0 where it is absent. -/
def LRec.param (r : LRec) (k : Nat) : BitVec 64 := r.params.getD k 0
/-- A field of word `k` of the parameter block. -/
def LRec.paramF (r : LRec) (k lo n : Nat) : Nat := ((r.param k).extractLsb' lo n).toNat
/-- Relocated operand `k`, 0–3 for A–D. -/
def LRec.opnd (r : LRec) (k : Nat) : Option ROpnd := (r.opnds[k]?).join
/-- The device address of operand `k`; 0 where it is absent. -/
def LRec.addr (r : LRec) (k : Nat) : Nat := ((r.opnd k).map (·.addr.toNat)).getD 0
def LRec.has (r : LRec) (k : Nat) : Bool := (r.opnd k).isSome
def LRec.part (r : LRec) : Nat := r.ref.part.val
def LRec.queue (r : LRec) : Nat := r.ref.queue.val

/-- Opcode classes (R463). -/
def LRec.isGang (r : LRec) : Bool := decide (0x10 ≤ r.opcode.toNat ∧ r.opcode.toNat < 0x40)
def LRec.isMover (r : LRec) : Bool := decide (0x40 ≤ r.opcode.toNat ∧ r.opcode.toNat < 0x50)
def LRec.isColl (r : LRec) : Bool := decide (0x70 ≤ r.opcode.toNat ∧ r.opcode.toNat < 0x80)

/-- STAGE_FEED runs on a mover channel as the mover commands do (R320). -/
def LRec.isFeed (r : LRec) : Bool := r.opcode == 0x60
def LRec.usesChan (r : LRec) : Bool := r.isMover || r.isFeed

/-- The mover channel of a mover record (R465) in SUB, or of STAGE_FEED (R320, R465)
in IMM: cluster rank and channel. -/
def LRec.moverRank (r : LRec) : Nat := if r.isFeed then r.immF 8 6 else r.subF 10 6
def LRec.moverCh (r : LRec) : Nat := if r.isFeed then r.immF 0 3 else r.subF 7 3

/-! ## Flights -/

def FlightSt.ended : FlightSt → Bool
  | .completed | .aborted | .faulted _ => true
  | _ => false

/-- The flight of a dispatched record. -/
def State.flight? (s : State) (r : RecRef) : Option Flight := s.fe.flights.find? fun f => f.lrec.ref == r

/-- Change the standing of a flight. -/
def State.setFlight (s : State) (r : RecRef) (st : FlightSt) : State :=
  { s with fe := { s.fe with flights := s.fe.flights.map fun f => if f.lrec.ref == r then { f with st := st } else f } }

/-- A fault raised by an engine: the cause, and the engine's ID (R489). -/
def engineFault (cause : BitVec 16) (engine : BitVec 16 := 0) : FaultInfo :=
  { cause := cause, operand := 7, addr := none, fetch := false, engine := engine, state := 0, others := [] }

/-- End a flight with a fault, unless it has ended already. -/
def State.failFlight (s : State) (r : RecRef) (f : FaultInfo) : State :=
  match s.flight? r with
  | some fl => if fl.st.ended then s else s.setFlight r (.faulted f)
  | none => s

/-- The operand whose extent covers a device address, its handle, and the address's offset in it (R489, R490). -/
def LRec.relOf (l : LRec) (a : BitVec 64) : Option (Nat × BitVec 12 × BitVec 48) :=
  (List.range 4).findSome? fun k => match l.opnds.getD k none with
    | some o => if o.lo ≤ a ∧ a ≤ o.hi then some (k, o.handle, o.offset + (a - o.addr).truncate 48) else none
    | none => none

/-- A device address of an engine state in handle-relative form (R490). -/
def LRec.relWord (l : LRec) (a : BitVec 64) : BitVec 64 :=
  match l.relOf a with
  | some (k, h, o) => h ++ BitVec.ofNat 4 k ++ o
  | none => 0

/-- A fault with its failing address, where an operand covers it (R489). -/
def FaultInfo.at_ (f : FaultInfo) (l : LRec) (a : Option (BitVec 64)) : FaultInfo :=
  match a.bind l.relOf with
  | some (k, h, o) => { f with operand := BitVec.ofNat 3 k, addr := some (h, o) }
  | none => f

/-- End a flight with a fault at a device address. -/
def State.failFlightAt (s : State) (r : RecRef) (f : FaultInfo) (a : Option (BitVec 64)) : State :=
  match s.flight? r with
  | some fl => s.failFlight r (f.at_ fl.lrec a)
  | none => s

/-- End a flight with a fault of the given cause at an address, where the request was made for a command. -/
def State.failReq (s : State) (r : Option RecRef) (cause : BitVec 16) (a : BitVec 64) : State :=
  match r with
  | some r => s.failFlightAt r (engineFault cause) (some a)
  | none => s

/-- End a flight as completed or aborted, unless it has ended already. -/
def State.endFlight (s : State) (r : RecRef) (ok : Bool) : State :=
  match s.flight? r with
  | some fl => if fl.st.ended then s else s.setFlight r (if ok then .completed else .aborted)
  | none => s

/-- The flights of a partition that have not ended. -/
def State.liveFlights (s : State) (p : Nat) : List Flight :=
  s.fe.flights.filter fun f => f.lrec.part == p && !f.st.ended

/-- The device-address range of an operand overlaps bank `b`. -/
def ROpnd.touchesBank (o : ROpnd) (b : Nat) : Bool :=
  decide (windowOf o.lo = .pad) && decide (padBank o.lo.toNat ≤ b ∧ b ≤ padBank o.hi.toNat)

/-- Whether an in-flight command of partition `p` has an operand that touches bank `b` (R136, R187). -/
def State.bankInUse (s : State) (p b : Nat) : Bool :=
  (s.liveFlights p).any fun f => f.lrec.opnds.any fun o => (o.map (·.touchesBank b)).getD false

/-- The engine IDs of R489. DEDUCED: assumption 61. -/
def engineId (rank kind n : Nat) : BitVec 16 := BitVec.ofNat 16 (rank * 1024 + kind * 64 + n)

/-! ## Abandoning collectives (R418) -/

def CollCtx.init : CollCtx :=
  { seq := 0, attempt := false, commits := 0, run := none, kids := [], down := [], downEnd := none, refuse := false
    last := none, lateReqs := [], vUps := [], vSent := false, vDown := none, barUps := [], barSent := false, snap := none }

def CollChild.init : CollChild := { pieces := [], fin := none, refused := false }

/-- Abandon the collectives whose commands `sel` selects: their contexts keep only what is committed. -/
def Coll.abandon (c : Coll) (sel : RecRef → Bool) : Coll :=
  { c with ctx := (List.range 16).foldl (fun m n =>
      let x := m.get CollCtx.init n
      match x.run with
      | some r =>
        if sel r.ref then
          m.put CollCtx.init n { CollCtx.init with seq := x.seq, commits := x.commits, last := x.last }
        else m
      | none => m) c.ctx }

end Sys2Proof.Machine
end

