-- ==== Sys2Proof/Machine/Sync.lean ====
section
/-! DEFINITION. Synchronisation counters (R278–R307): adds and sets, waits and timeouts, late targets, the
translation tables, the sync blocks' input queues and Bramble's quiet time. -/

namespace Sys2Proof.Machine

/-- A satisfied target in serial-number arithmetic (R281). -/
def serialReached (value target : BitVec 32) : Bool := decide ((value - target).toNat < 2 ^ 31)

/-! ## Translation (R283, R286) -/

def vmapV (e : BitVec 32) : Bool := e.getLsbD 31
def vmapHost (e : BitVec 32) : Bool := e.getLsbD 30
def vmapRemote (e : BitVec 32) : Bool := e.getLsbD 29
def vmapCluster (e : BitVec 32) : Nat := (e.extractLsb' 8 6).toNat
def vmapCounter (e : BitVec 32) : Nat := (e.extractLsb' 0 8).toNat

/-- A ledger entry that is FREE (R325, R326). -/
def LedgerEnt.init : LedgerEnt :=
  { tag := 0, st := 0, late := false, spilled := false, abandoned := false, slot := 0xFF, gbuf := 0xFF, cslot := 0xFFFF,
    inWords := 0, moveWords := 0, gradWords := 0, sentWords := 0, step := 0, tFwd := 0, tBwd := 0 }

def State.ledger (s : State) (e : Nat) : LedgerEnt := s.stg.ledger.get LedgerEnt.init e

/-- The counter behind a stage-bound VID in the outstanding stage invocation (R316, R317). -/
def State.stageVid (s : State) (vid : Nat) : Option (Nat × Nat) :=
  match s.stg.inv with
  | none => none
  | some i =>
    let e := s.ledger i.entry
    if i.prog = 3 then none
    else if vid = 4088 then some (0, 192 + e.slot.toNat)
    else if vid = 4089 ∧ i.prog = 2 ∧ e.gbuf ≠ 0xFF then some (0, 252 + e.gbuf.toNat)
    else if vid = 4090 ∧ i.prog = 0 then some (0, 254)
    else if vid = 4090 ∧ i.prog = 2 then some (0, 255)
    else none

/-- The counter that a VID of partition `p` names: cluster and counter. -/
def State.vid (s : State) (p vid : Nat) : Option (Nat × Nat) :=
  if s.sys.stageMode ∧ p = 0 ∧ 4088 ≤ vid then s.stageVid vid
  else
    let e := s.vmapOf p vid
    if vmapV e then some (vmapCluster e, vmapCounter e) else none

/-- The entries that map a counter of cluster `c`, over all partitions. -/
def State.mappedIn (s : State) (c : Nat) : Nat :=
  (s.syn.vmap.filter fun e => vmapV e.2 && vmapCluster e.2 == c).length

/-- Whether another entry than `key` maps counter `n` of cluster `c` (R284). -/
def State.mappedElsewhere (s : State) (key c n : Nat) : Bool :=
  s.syn.vmap.any fun e => e.1 ≠ key && vmapV e.2 && vmapCluster e.2 == c && vmapCounter e.2 == n

/-! ## Bramble's quiet time (R299) -/

/-- Restart the quiet time of a partition. -/
def State.quietRestart (s : State) (p : Nat) : State :=
  let b := s.brambleOf p
  s.setBramble p { b with quiet := 0, counted := false, ext := false }

/-- The partition is frozen for a snapshot (R301). -/
def State.frozen (s : State) (p : Nat) : Bool := (s.brambleOf p).frozen

/-! ## Ingest release (R528) -/

/-- The ingest ring releases items while the counter behind REL_VID is after the released count. -/
def State.ingestRelease (s : State) (p : Nat) : Nat → State
  | 0 => s
  | fuel + 1 =>
    let pt := s.partOf p
    match s.vid p ((s.pr .part p 0xD4).extractLsb' 0 12).toNat, pt.items with
    | some (c, n), len :: rest =>
      let v := s.countOf c n
      if v ≠ pt.released ∧ serialReached v pt.released then
        State.ingestRelease
          ((s.setPart p { pt with items := rest, released := pt.released + 1 }).queRelease
            (.ingest (Fin.ofNat 64 p)) len) p fuel
      else s
    | _, _ => s

/-! ## Waits (R287–R293) -/

/-- A wait that has been satisfied: a WAIT command completes, a pre-wait lets its command start. -/
def State.releaseWait (s : State) (w : Wait) : State :=
  if w.prewait then
    { s with fe := { s.fe with flights := s.fe.flights.map fun f =>
        if f.lrec.ref == w.ref && f.st == .waiting then { f with st := .queued, pwDone := true } else f } }
  else s.endFlight w.ref true

/-- Test every held wait on a counter (R293 event 3). -/
def State.testWaits (s : State) (c n : Nat) : State :=
  let v := s.countOf c n
  let hit (w : Wait) : Bool := w.cluster == c && w.counter == n && serialReached v w.target
  let out := s.syn.waits.filter hit
  let s := { s with syn := { s.syn with waits := s.syn.waits.filter fun w => !hit w } }
  out.foldl State.releaseWait s

/-- The engine state of a faulting wait (R490). -/
def State.waitState (s : State) (w : Wait) : BitVec 512 :=
  let left : Nat := match w.deadline with
    | some d => if s.sys.time.toNat < d.toNat then (d.toNat - s.sys.time.toNat) / 1000 else 0
    | none => 0
  BitVec.ofNat 512 (w.vid.toNat + w.target.toNat * 2 ^ 32 + (s.countOf w.cluster w.counter).toNat * 2 ^ 64
    + left * 2 ^ 96)

/-- End a wait's command with a fault (R291, R301). -/
def State.failWait (s : State) (w : Wait) (cause : BitVec 16) : State :=
  s.failFlight w.ref { engineFault cause (engineId (s.rankOf w.part w.cluster) 7 0) with state := s.waitState w }

/-- A wait reaches its deadline unsatisfied (R291). -/
def State.timeoutWait (s : State) (w : Wait) : State :=
  let s := s.failWait w 0x0017
  let s := { s with syn := { s.syn with late := s.syn.late.put none (w.cluster * 256 + w.counter) (some w.target) } }
  ((s.bump .sync w.cluster 0x48).bump .part w.part 0x49C).raise .sync w.cluster 1

/-- A held wait's deadline has come. -/
def State.waitDue (s : State) (w : Wait) : Bool :=
  match w.deadline with
  | some d => decide (d.toNat ≤ s.sys.time.toNat)
  | none => false

/-- The timeout comparator of one sync block (R293 event 4), which a freeze does not stop (R301). -/
def State.timeoutScan (s : State) (c : Nat) : State :=
  let due (w : Wait) : Bool := w.cluster == c && s.waitDue w
  let out := s.syn.waits.filter due
  let s := { s with syn := { s.syn with waits := s.syn.waits.filter fun w => !due w } }
  out.foldl State.timeoutWait s

/-- Register a wait (R281, R289, R301): it is released at once where it is satisfied, held where an entry is free,
and otherwise refused with WAIT_BUSY and retried. -/
def State.registerWait (s : State) (w : Wait) : State :=
  let b := s.brambleOf w.part
  if b.frozen then s.setBramble w.part { b with heldAny := true, heldWaits := b.heldWaits ++ [w] }
  else if serialReached (s.countOf w.cluster w.counter) w.target then s.releaseWait w
  else if (s.syn.waits.filter fun x => x.cluster == w.cluster).length < 64 then
    { s with syn := { s.syn with waits := s.syn.waits ++ [w] } }
  else
    { s with syn := { s.syn with retrying := s.syn.retrying ++ [w] } }.bump .sync w.cluster 0x44

/-- The wait of a command: its counter, its deadline from the first attempt (R290). -/
def State.mkWait (s : State) (r : LRec) (vid : BitVec 12) (target : BitVec 32) (timeout : BitVec 5)
    (prewait : Bool) (c n : Nat) : Wait :=
  { cluster := c, part := r.part, counter := n, vid := vid, target := target
    deadline := if timeout = 31 then none else some (s.sys.time + BitVec.ofNat 64 (1000 * 2 ^ timeout.toNat))
    since := s.sys.time, ref := r.ref, prewait := prewait }

/-- Remove every wait held for one of the flights that `p` selects (R295). -/
def State.dropWaits (s : State) (p : RecRef → Bool) : State :=
  let keep (w : Wait) : Bool := !p w.ref
  { s with syn := { s.syn with
      waits := s.syn.waits.filter keep, retrying := s.syn.retrying.filter keep
      bramble := s.syn.bramble.map fun e => (e.1, { e.2 with heldWaits := e.2.heldWaits.filter keep }) } }

/-! ## Adds and sets (R279, R292–R294) -/

/-- A counter's new value (R293 events 2 and 5), with the late check of R292. -/
def State.addCount (s : State) (p c n : Nat) (amount : BitVec 16) : State :=
  let v := s.countOf c n + amount.zeroExtend 32
  let s := s.setCount c n v
  let s := match s.syn.late.get none (c * 256 + n) with
    | some t =>
      if serialReached v t then
        ({ s with syn := { s.syn with late := s.syn.late.put none (c * 256 + n) none } }.bump .sync c 0x4C).bump
          .part p 0x4A0
      else s
    | none => s
  if amount = 0 then s else s.quietRestart p

/-- Replace a counter's value (R293 event 1). -/
def State.setCounter (s : State) (p c n : Nat) (v : BitVec 32) : State :=
  let old := s.countOf c n
  let s := (s.setCount c n v).bump .sync c 0x58
  if old = v then s else s.quietRestart p

/-- Apply one message of an input queue. -/
def State.applyMsg (s : State) (c : Nat) : SyncMsg → State
  | .set p n v r => (s.setCounter p c n v).endFlight r true
  | .add p n a r =>
    let s := s.addCount p c n a
    match r with
    | some r => s.endFlight r true
    | none => s

def SyncMsg.isSet : SyncMsg → Bool
  | .set .. => true
  | _ => false

def SyncMsg.counter : SyncMsg → Nat
  | .set _ n _ _ => n
  | .add _ n _ _ => n

/-- Distinct numbers of a list. -/
def distinct (xs : List Nat) : List Nat := xs.foldl (fun acc x => if acc.contains x then acc else acc ++ [x]) []

/-- Apply up to one input word of messages to a sync block in the order of R293. DEDUCED: assumption 59. -/
def State.applyMsgs (s : State) (c : Nat) (ms : List SyncMsg) : State :=
  let s := (ms.filter SyncMsg.isSet).foldl (fun s m => s.applyMsg c m) s
  let adds := ms.filter fun m => !m.isSet
  let s := adds.foldl (fun s m => s.applyMsg c m) s
  let s := s.bump64 .sync c 0x50 (distinct (adds.map SyncMsg.counter)).length
  let s := (distinct (ms.map SyncMsg.counter)).foldl (fun s n => s.testWaits c n) s
  let s := s.timeoutScan c
  match s.clusterOwner c with
  | some p => s.ingestRelease p.val (s.partOf p.val).items.length
  | none => s

/-- The messages waiting at a sync block. -/
def State.inputOf (s : State) (c : Nat) : List SyncMsg := s.syn.input.get [] c

def State.setInput (s : State) (c : Nat) (ms : List SyncMsg) : State :=
  { s with syn := { s.syn with input := s.syn.input.put [] c ms } }

/-- Whether the input queue of a sync block has room: 32 words of 4 adds (R294). -/
def State.inputRoom (s : State) (c : Nat) : Bool := decide ((s.inputOf c).length < 128)

/-- Put a message into a sync block's input queue. -/
def State.sendSync (s : State) (c : Nat) (m : SyncMsg) : State := s.setInput c (s.inputOf c ++ [m])

/-- Apply a completion signal directly (R282, R296). -/
def State.directSignal (s : State) (p vid : Nat) (amount : BitVec 16) : State :=
  match s.vid p vid with
  | some (c, n) => if s.frozen p then s.sendSync c (.add p n amount none) else s.applyMsgs c [.add p n amount none]
  | none => s

/-! ## Starting a record behind its pre-wait (R282, R287) -/

/-- Whether a dispatched record may start now: its pre-wait, if any, has been satisfied. Where it has not been
registered yet it is registered. The answer is the state and whether the record may start. -/
def State.preWait (s : State) (r : RecRef) : State × Bool :=
  match s.flight? r with
  | none => (s, false)
  | some f =>
    if f.st ≠ .queued then (s, false)
    else if !f.lrec.pwEn || f.pwDone then (s, true)
    else match s.vid f.lrec.part f.lrec.pwVid.toNat with
      | none => (s.failFlight r (engineFault 0x0002), false)
      | some (c, n) =>
        let w := s.mkWait f.lrec f.lrec.pwVid f.lrec.pwTarget f.lrec.pwTimeout true c n
        let s := (s.setFlight r .waiting).registerWait w
        (s, ((s.flight? r).map fun f => f.st == .queued && f.pwDone).getD false)

/-- Start a record's engine: `k` runs on the record once its pre-wait is satisfied. -/
def State.start (s : State) (r : RecRef) (op : BitVec 8) (k : LRec → State → State) : State :=
  match s.flight? r with
  | none => s
  | some f =>
    if f.lrec.opcode ≠ op then s
    else
      let (s, go) := s.preWait r
      if go then k f.lrec (s.setFlight r .running) else s

/-! ## The rows -/

/-- SIGNAL (R280): an add through the front end, completed when it has been applied. -/
def execSignal (r : RecRef) (s : State) : Out :=
  .next <| s.start r 0x50 fun l s =>
    match s.vid l.part (l.immF 32 12) with
    | some (c, n) =>
      if s.inputRoom c then s.sendSync c (.add l.part n (BitVec.ofNat 16 (l.immF 0 32)) (some r))
      else s.setFlight r .queued
    | none => s.failFlight r (engineFault 0x0002)

/-- WAIT (R280, R288): held in the sync block of its counter's cluster. -/
def execWait (r : RecRef) (s : State) : Out :=
  .next <| s.start r 0x51 fun l s =>
    match s.vid l.part (l.immF 32 12) with
    | some (c, n) =>
      (s.setFlight r .waiting).registerWait
        (s.mkWait l (BitVec.ofNat 12 (l.immF 32 12)) (BitVec.ofNat 32 (l.immF 0 32)) (BitVec.ofNat 5 (l.subF 0 5))
          false c n)
    | none => s.failFlight r (engineFault 0x0002)

/-- SET (R279, R280). -/
def execSet (r : RecRef) (s : State) : Out :=
  .next <| s.start r 0x53 fun l s =>
    match s.vid l.part (l.immF 32 12) with
    | some (c, n) =>
      if s.inputRoom c then s.sendSync c (.set l.part n (BitVec.ofNat 32 (l.immF 0 32)) r)
      else s.setFlight r .queued
    | none => s.failFlight r (engineFault 0x0002)

/-- ARRIVAL_INCREMENT (R201, R202): the increment of a landed write goes to the sync block, if its input queue
has room. -/
def execArrivalIncrement (id : Nat) (s : State) : Out :=
  match s.pad.incs.find? fun m => m.id == id with
  | some m =>
    if s.inputRoom m.cluster then
      .next ({ s with pad := { s.pad with incs := s.pad.incs.filter fun x => x.id ≠ id } }.sendSync m.cluster
        (.add m.part m.counter m.amount none))
    else .next s
  | none => .next s

/-- SYNC_ADD_APPLY (R293, R294): the sync block reads one input word; a frozen partition's block holds it (R301).
DEDUCED: assumption 59. -/
def execSyncAddApply (c : Fin 64) (s : State) : Out :=
  let ms := s.inputOf c.val
  match s.clusterOwner c.val with
  | some p =>
    let b := s.brambleOf p.val
    if b.frozen then .next (if ms = [] then s else s.setBramble p.val { b with heldAny := true })
    else .next ((s.setInput c.val (ms.drop 4)).applyMsgs c.val (ms.take 4))
  | none => .next ((s.setInput c.val (ms.drop 4)).applyMsgs c.val (ms.take 4))

/-- WAIT_BUSY_RETRY (R289): the registration is attempted again; one that has reached its deadline times out. -/
def execWaitBusyRetry (r : RecRef) (s : State) : Out :=
  match s.syn.retrying.find? fun w => w.ref == r with
  | some w =>
    let s := { s with syn := { s.syn with retrying := s.syn.retrying.filter fun w => w.ref ≠ r } }
    .next (if s.waitDue w && !serialReached (s.countOf w.cluster w.counter) w.target then s.timeoutWait w
      else s.registerWait w)
  | none => .next s

/-- WAIT_TIMEOUT (R291, R292): a held wait reaches its deadline unsatisfied. DEDUCED: assumption 4. -/
def execWaitTimeout (r : RecRef) (s : State) : Out :=
  match s.syn.waits.find? fun w => w.ref == r && s.waitDue w with
  | some w =>
    if serialReached (s.countOf w.cluster w.counter) w.target then .next (s.testWaits w.cluster w.counter)
    else .next ({ s with syn := { s.syn with waits := s.syn.waits.filter fun w => w.ref ≠ r } }.timeoutWait w)
  | none => .next s

/-- SYNC_SIGNAL (R298): a write of PART.SYNC_SIGNAL. DEDUCED: assumption 29. -/
def execSyncSignal (f : Fn) (p : Fin 64) (v : Word) (s : State) : Out :=
  let amount := v.extractLsb' 12 16
  match s.openAt f ⟨.part, p.val⟩ 0x484 v with
  | .error s' =>
    .next (if s.mayWriteAt f ⟨.part, p.val⟩ 0x484 ∧ amount = 0 ∧ v.extractLsb' 28 4 = 0 then s'.bump .part p.val 0x4B0
      else s')
  | .ok t =>
    let e := s.vmapOf p.val (v.extractLsb' 0 12).toNat
    if vmapV e && vmapHost e then
      .next (s.sendSync (vmapCluster e) (.add p.val (vmapCounter e) amount none))
    else .next ((s.rejectState f t).bump .part p.val 0x4B0)

/-- VMAP_WRITE (R284): a write of PART.VMAP_DATA for the entry VMAP_SEL selects. -/
def execVmapWrite (f : Fn) (p : Fin 64) (v : Word) (s : State) : Out :=
  match s.openAt f ⟨.part, p.val⟩ 0x494 v with
  | .error s => .next s
  | .ok t =>
    let vid := (s.pr .part p.val 0x490).toNat % 4096
    let key := p.val * 4096 + vid
    let old := s.vmapOf p.val vid
    let c := vmapCluster v
    let n := vmapCounter v
    let moves := vmapV old && (!vmapV v || vmapCluster old ≠ c || vmapCounter old ≠ n)
    let heldOn := (s.syn.waits ++ s.syn.retrying).any fun w =>
      w.cluster == vmapCluster old && w.counter == vmapCounter old
    if vmapV v && (decide (s.clusterOwner c ≠ some p) || s.mappedElsewhere key c n) then .next (s.rejectState f t)
    else if moves && heldOn then .next (s.rejectState f t)
    else
      let v' : Word := if vmapV v then v else v &&& 0x60000000
      let s := { s with syn := { s.syn with vmap := s.syn.vmap.put 0 key v' } }
      if vmapV v && (!vmapV old || moves) then
        .next ({ s with syn := { s.syn with late := s.syn.late.put none (c * 256 + n) none } }.setCount c n 0)
      else .next s

/-- The blocked items of a partition (R299). -/
def State.blockedWaits (s : State) (p : Nat) : List Wait :=
  (s.syn.waits ++ s.syn.retrying).filter fun w => w.part == p

def State.blockedTags (s : State) (p : Nat) : List TagReq :=
  s.pad.tagHeld.filter fun t => t.req.owner.part?.map Fin.val == some p

/-- The quiet window in ns (R306). DESIGN CHOICE: assumption 5. -/
def State.windowNs (s : State) (p : Nat) : Nat := ((s.pr .part p 0x480).toNat % 2 ^ 17) * 10000

/-- BRAMBLE_WINDOW (R300): the quiet time has reached the window. -/
def execBrambleWindow (p : Fin 64) (s : State) : Out :=
  let b := s.brambleOf p.val
  let ws := s.blockedWaits p.val
  let en := (s.pr .part p.val 0x480).getLsbD 31
  if !en || b.frozen || b.counted || decide (b.quiet < s.windowNs p.val) ||
      (ws.isEmpty && (s.blockedTags p.val).isEmpty) then .next s
  else if ws.any fun w => let e := s.vmapOf p.val w.vid.toNat; vmapHost e || vmapRemote e ||
      (s.sys.stageMode && p.val == 0 && decide (4088 ≤ w.vid.toNat)) then
    .next ((s.setBramble p.val { b with counted := true, ext := true }).bump .part p.val 0x4AC)
  else .next (s.setBramble p.val { b with frozen := true, frozenAt := s.sys.time, heldAny := false })

end Sys2Proof.Machine
end

