-- ==== Sys2Proof/Machine/Front.lean ====
section
/-! DEFINITION. The command front end beyond fetch (R456–R499): slots and binding, dispatch, completions, faults
and fault records, the queue lifecycle, doorbells and the front end's own commands. -/

namespace Sys2Proof.Machine

/-! ## Slots and binding (R482) -/

/-- The slot of a partition: 2p hot, 2p + 1 warm (R500); 128 and 129 are the model's own buffers for the physical
function's queues, which no SLOT page shows. -/
def slotOf (p : Nat) (hot : Bool) : Nat := 2 * p + (if hot then 0 else 1)

/-- The function that a partition's host requests carry (R227). -/
def fnOf (p : Nat) : Nat := if p = 64 then 0 else p + 1

/-- A queue's configuration register in force: `o` is its offset in the queue block. -/
def State.qReg (s : State) (p q o : Nat) : Word := s.pr .fe p (0x100 + 64 * q + o)

/-- Queue 0 of partition 0 is fed by the stage engine in stage mode (R314, R478). -/
def State.stageFed (s : State) (p q : Nat) : Bool := s.sys.stageMode && p == 0 && q == 0

/-- Whether the context that runs owns queue `q` (R482, R514). -/
def State.ctxRuns (s : State) (p q : Nat) : Bool :=
  match (s.partOf p).runCtx with
  | some c => let x := s.ctxOf p c.toNat; x.st == .running && (x.cfg.extractLsb' 16 16).getLsbD q
  | none => false

/-- Whether a queue is bound to its slot (R482). -/
def State.bound (s : State) (p q : Nat) : Bool :=
  let st := (s.queueOf p q).st
  (st == .ready || st == .faulted) && (p == 64 || s.stageFed p q || s.ctxRuns p q)

/-- Whether a queue feeds the hot slot. -/
def State.isHot (s : State) (p q : Nat) : Bool := s.stageFed p q || (s.qReg p q 0).getLsbD 30

/-- The ring's size as a power of two, and the completion ring's. -/
def State.ringLog2 (s : State) (p q : Nat) : Nat := ((s.qReg p q 0x04).extractLsb' 16 5).toNat
def State.cplLog2 (s : State) (p q : Nat) : Nat := ((s.qReg p q 0x10).extractLsb' 16 5).toNat

/-- Advance a pointer of `n + 1` bits (R475). -/
def ptrInc (n : Nat) (v : BitVec 17) : BitVec 17 := BitVec.ofNat 17 ((v.toNat + 1) % 2 ^ (n + 1))

/-- The distance from `a` to `b` in a pointer of `n + 1` bits. -/
def ptrDist (n : Nat) (a b : BitVec 17) : Nat := (b.toNat + 2 ^ (n + 1) - a.toNat % 2 ^ (n + 1)) % 2 ^ (n + 1)

/-! ## Front-end access to memory -/

def Handle.v (h : Handle) : Bool := h.rights.getLsbD 7
def Handle.rd (h : Handle) : Bool := h.rights.getLsbD 6
def Handle.wr (h : Handle) : Bool := h.rights.getLsbD 5
def Handle.cmd (h : Handle) : Bool := h.rights.getLsbD 4
def Handle.kind (h : Handle) : BitVec 2 := h.rights.extractLsb' 2 2

/-- Whether every bank of a scratchpad range is the partition's, settled and no hole (R180, R189, R30). -/
def State.padOwned (s : State) (p a n : Nat) : Bool :=
  decide (a + n ≤ 0x200000000) && (n == 0 || (List.range (padBank (a + n - 1) - padBank a + 1)).all fun i =>
    let b := s.bankOf (padBank a + i)
    b.st == .settled && b.owner.map Fin.val == some p && !s.bankHole (padBank a + i))

/-- Whether a range of `n` bytes at `off` lies in a handle's range. -/
def Handle.covers (h : Handle) (off n : Nat) : Bool := decide (off + n ≤ h.size.toNat)

/-- Write bytes for a partition at a device address of a kind of R468; none where the write faults. A write to
host memory goes to the host, in order, unless R572 drops it. -/
def State.partWrite (s : State) (p : Nat) (kind : BitVec 2) (addr : Nat) (data : List Byte) : Option State :=
  if s.scopeHit p addr data.length then none
  else if kind = 0 then if s.padOwned p addr data.length then
      some ((s.countRows (some p) addr data.length true).bankWrite addr data)
    else none
  else if kind = 1 then
    let v := addr % 0x1000000000
    if (s.viewWritable p v data.length).isNone then some (s.viewWrite p v data) else none
  else if kind = 2 then
    some (if s.mayRequest (fnOf p) then s.emit (.write (Fin.ofNat 65 (fnOf p)) (BitVec.ofNat 64 (addr % 2 ^ 63)) data)
      else s)
  else none

/-- Read bytes for a partition from its scratchpad or cellar view; none where the read faults or the bytes lie
in host memory. -/
def State.partRead (s : State) (p : Nat) (kind : BitVec 2) (addr n : Nat) : Option (List Byte) :=
  if kind = 0 then
    if s.padOwned p addr n && !s.poisoned addr n then some (s.padRead addr n) else none
  else if kind = 1 then
    match s.viewRead p (addr % 0x1000000000) n with
    | .ok bs => some bs
    | .error _ => none
  else none

/-- Write through a handle at an offset. -/
def State.handleWrite (s : State) (p h off : Nat) (data : List Byte) : Option State :=
  let e := s.handleOf p h
  if e.v && e.wr && e.covers off data.length then s.partWrite p e.kind (e.dev.toNat + off) data else none

/-- What follows where `handleWrite` writes nothing: the checkpoint scope may have barred it (R435). -/
def State.handleNote (s : State) (p h off n : Nat) : State := s.scopeNote p ((s.handleOf p h).dev.toNat + off) n

/-- Charge a regulator (R507, R508): `r` is 0 NOC, 1 CEL, 2 LNK, 3 HOST, 4 FETCH. Device work is not charged.
DEDUCED: assumption 62. -/
def State.charge (s : State) (p r n : Nat) : State :=
  if p < 64 then
    let left := s.parts.tokens.get 0 (p * 5 + r) - (n : Int)
    { s with parts := { s.parts with tokens := s.parts.tokens.put 0 (p * 5 + r) left } }
  else s

/-- Whether a unit may start on a regulator (R508). -/
def State.hasTokens (s : State) (p r : Nat) : Bool := decide (64 ≤ p) || decide (0 < s.parts.tokens.get 0 (p * 5 + r))

/-! ## Completions (R480, R481, R525) -/

/-- A ring entry's fields (R476). -/
def entRecords (raw : BitVec 512) : Nat := (recField raw 10 0 16).toNat
def entPrecords (raw : BitVec 512) : Nat := (recField raw 12 0 16).toNat
def entTag (raw : BitVec 512) : BitVec 32 := recField raw 16 0 32
def entAfter (raw : BitVec 512) : Bool := raw.getLsbD (64 + 7)
def entIrq (raw : BitVec 512) : Bool := raw.getLsbD (64 + 6)
def entDeadlineV (raw : BitVec 512) : Bool := raw.getLsbD (64 + 5)
def entStage (raw : BitVec 512) : Bool := raw.getLsbD (64 + 4)
def entDeadline (raw : BitVec 512) : BitVec 64 := recField raw 24 0 64
def entHandle (raw : BitVec 512) : Nat := (recField raw 0 0 12).toNat
def entOffset (raw : BitVec 512) : Nat := (recField raw 2 0 48).toNat

/-- Write one completion record (R480) and send its vector (R481). DEDUCED: assumption 71. -/
def State.writeCompletion (s : State) (p q : Nat) (tag : BitVec 32) (status : BitVec 8) (irq : Bool) : State :=
  let x := s.queueOf p q
  let m := s.cplLog2 p q
  let phase : Nat := if x.cplTail.toNat / 2 ^ m % 2 = 0 then 1 else 0
  let cpl := s.qReg p q 0x10
  let off := (s.qReg p q 0x18 ++ s.qReg p q 0x14).toNat + 16 * (x.cplTail.toNat % 2 ^ m)
  let data := leBytes 4 tag.toNat ++ [status, BitVec.ofNat 8 phase] ++ leBytes 2 q ++ leBytes 8 s.sys.time.toNat
  let s := (s.handleWrite p (cpl.toNat % 4096) off data).getD (s.handleNote p (cpl.toNat % 4096) off 16)
  let s := s.charge p 4 64
  let s := s.setQueue p q { s.queueOf p q with cplTail := ptrInc m x.cplTail }
  if status ≠ 0 ∨ irq then s.sendMsix (fnOf p) (((s.qReg p q 0).extractLsb' 24 4).zeroExtend 11) else s

/-- Whether a started entry has finished: every record completed, or faulted and with nothing in flight. -/
def State.entryFinished (s : State) (p q : Nat) (e : EntrySt) : Bool :=
  if e.faulted then
    !(s.fe.flights.any fun f => f.lrec.part == p && f.lrec.queue == q && f.lrec.ref.entry == e.num)
  else decide (e.done.length = entRecords e.raw)

/-- Write the completions that are due on a queue, in ring order, while the FETCH regulator holds tokens.
DEDUCED: assumption 71. -/
def State.tryCompletions (s : State) (p q : Nat) : Nat → State
  | 0 => s
  | fuel + 1 =>
    let x := s.queueOf p q
    match x.entries with
    | [] => s
    | e :: rest =>
      if (x.st == .ready || x.st == .faulted) && s.entryFinished p q e && s.hasTokens p 4 then
        let late := entDeadlineV e.raw && decide ((entDeadline e.raw).toNat < s.sys.time.toNat)
        let status : BitVec 8 := if e.faulted then 2 else if late then 1 else 0
        let s := s.setQueue p q { x with
          entries := rest, head := ptrInc (s.ringLog2 p q) x.head, faultCpl := x.faultCpl || e.faulted }
        let s := s.writeCompletion p q (entTag e.raw) status (entIrq e.raw)
        let s := if status = 1 ∧ p < 64 then (s.bump .part p 0x5C).raise .part p 8 else s
        State.tryCompletions s p q fuel
      else s

/-- Write the completions due on a queue. DEDUCED: assumption 71. -/
def State.completions (s : State) (p q : Nat) : State := s.tryCompletions p q ((s.queueOf p q).entries.length)

/-! ## Use counts (R472) -/

/-- Change the use count of a handle by one for each relocated operand of a record. -/
def State.useRec (s : State) (r : LRec) (up : Bool) : State :=
  r.opnds.foldl (fun s o => match o with
    | some o =>
      let h := o.handle.toNat
      let n := s.useOf r.part h
      s.setUse r.part h (if up then n + 1 else n - 1)
    | none => s) s

/-- Drop from a partition's halves the undispatched records that `sel` selects, and release their uses. -/
def State.dropHalves (s : State) (p : Nat) (sel : LRec → Bool) : State :=
  [(true, false), (true, true), (false, false), (false, true)].foldl (fun s k =>
    let slot := slotOf p k.1
    let h := s.halfOf slot k.2
    let out := h.recs.filter sel
    if out.isEmpty then s
    else
      let left := h.recs.filter fun r => !sel r
      let s := s.setHalf slot k.2 (if left.isEmpty then Half.init else { h with recs := left })
      out.foldl (fun s r => s.useRec r false) s) s

/-! ## Ending engines (R165, R245, R295, R418) -/

/-- Take everything that the selected records hold out of the engines: mover channels, waits, held and retried
requests, collectives and host reads. -/
def State.abortEngines (s : State) (sel : RecRef → Bool) : State :=
  let keep (r : Option RecRef) : Bool := !(r.map sel).getD false
  let s := s.dropWaits sel
  { s with
    cel := { s.cel with
      chans := s.cel.chans.keep fun _ c => !(c.map fun c => sel c.ref).getD false }
    pad := { s.pad with
      held := s.pad.held.filter fun h => keep h.req.ref
      retries := s.pad.retries.filter fun h => keep h.req.ref
      tagHeld := s.pad.tagHeld.filter fun h => keep h.req.ref
      tagBusy := s.pad.tagBusy.filter fun h => keep h.req.ref }
    gang := { s.gang with
      running := s.gang.running.keep fun _ g => !(g.map fun g => sel g.lrec.ref).getD false
      parked := s.gang.parked.keep fun _ g => !(g.map fun g => sel g.lrec.ref).getD false }
    coll := s.coll.abandon sel
    host := { s.host with reads := s.host.reads.filter fun r => keep r.ref } }

/-- A context without what it has saved of the selected records. -/
def Ctx.without (x : Ctx) (sel : RecRef → Bool) : Ctx :=
  let keep (r : Option RecRef) : Bool := !(r.map sel).getD false
  { x with
    waits := x.waits.filter fun w => !sel w.1.ref
    tags := x.tags.filter fun t => keep t.req.ref
    flights := x.flights.filter fun f => !sel f.lrec.ref
    gangs := x.gangs.filter fun g => !sel g.lrec.ref
    chans := x.chans.filter fun c => !sel c.2.ref }

/-- End the selected records that contexts have saved: each ends as aborted (R494, R522). DEDUCED: assumption 116. -/
def State.abortSaved (s : State) (sel : RecRef → Bool) : State :=
  s.parts.ctx.keys.foldl (fun s k =>
    let x := s.ctxOf (k / 16) (k % 16)
    let out := (x.flights.filter fun f => sel f.lrec.ref).map fun f => { f with st := FlightSt.aborted }
    if out.isEmpty then s
    else { s.setCtx (k / 16) (k % 16) (x.without sel) with fe := { s.fe with flights := s.fe.flights ++ out } }) s

/-- Abort the flights that `sel` selects and that have not ended. -/
def State.abortFlights (s : State) (sel : RecRef → Bool) : State :=
  let s := (s.abortEngines sel).abortSaved sel
  { s with fe := { s.fe with flights := s.fe.flights.map fun f =>
      (if (sel f.lrec.ref && !f.st.ended) then { f with st := .aborted } else f) } }

/-! ## Fault records (R486–R490) -/

/-- The fault area's free record slots (R488). -/
def State.faultRoom (s : State) (p : Nat) : Bool :=
  let cfg := s.pr .fe p 0x40
  let a := s.fe.faultAreas.get FaultArea.init p
  decide (((a.wr.toNat + 128 - (s.pr .fe p 0x44).toNat % 128) % 128) < (cfg.extractLsb' 12 7).toNat)

def State.setFaultArea (s : State) (p : Nat) (a : FaultArea) : State :=
  { s with fe := { s.fe with faultAreas := s.fe.faultAreas.put FaultArea.init p a } }

/-- Write the fault area's header (R487). -/
def State.faultHeader (s : State) (p : Nat) : State :=
  let a := s.fe.faultAreas.get FaultArea.init p
  let h := (s.pr .fe p 0x40).toNat % 4096
  let data := leBytes 8 s.sys.time.toNat ++
    [a.wr.zeroExtend 8, if a.snap then 1 else 0] ++ leBytes 2 a.lost.toNat ++ List.replicate 52 0
  (s.handleWrite p h 0 data).getD (s.handleNote p h 0 64)

/-- Count a record or snapshot that found no room (R488). -/
def State.faultLost (s : State) (p : Nat) : State :=
  let a := s.fe.faultAreas.get FaultArea.init p
  s.setFaultArea p { a with lost := if a.lost.toNat + 1 < 65536 then a.lost + 1 else a.lost }

/-- Write a fault record of 2 KiB (R488, R489) and raise FE.INT_STATUS.FAULT. -/
def State.writeFault (s : State) (p : Nat) (data : List Byte) : State :=
  let cfg := s.pr .fe p 0x40
  let slots := (cfg.extractLsb' 12 7).toNat
  let a := s.fe.faultAreas.get FaultArea.init p
  if !cfg.getLsbD 31 then s
  else if !s.faultRoom p then s.faultLost p
  else
    let pad := data ++ List.replicate (2048 - data.length) 0
    let off := 0x6000 + a.wr.toNat % slots * 2048
    match s.handleWrite p (cfg.toNat % 4096) off pad with
    | some s => ((s.setFaultArea p { a with wr := a.wr + 1 }).faultHeader p).raise .fe p 2
    | none => (s.handleNote p (cfg.toNat % 4096) off 2048).faultLost p

/-- The bytes of a fault record (R489). DEDUCED: assumption 70. -/
def faultBytes (time : BitVec 64) (l : LRec) (f : FaultInfo) (opcode : BitVec 8) (index : Nat) : List Byte :=
  let flags : Nat := (if 15 < f.others.length then 0x80 else 0) + (if f.fetch then 0x40 else 0) +
    (if f.addr.isSome then 0x20 else 0)
  let others := f.others.take 15
  let engines : Nat := if f.fetch && f.engine == 0 then 0 else 1 + others.length
  leBytes 8 time.toNat ++ leBytes 2 f.cause.toNat ++ [opcode, BitVec.ofNat 8 flags] ++
  leBytes 2 (l.queue * 4096 + l.gid.toNat) ++ [BitVec.ofNat 8 engines, f.operand.zeroExtend 8] ++
  leBytes 4 l.tag.toNat ++ leBytes 2 index ++
  leBytes 2 ((f.addr.map (·.1.toNat)).getD 0) ++ leBytes 8 ((f.addr.map (·.2.toNat)).getD 0) ++
  leBytes 2 f.engine.toNat ++ (others.flatMap fun e => leBytes 2 e.1.toNat) ++
  List.replicate (30 - 2 * others.length) 0 ++ leBytes 64 l.raw.toNat ++
  (l.params.map fun w => leBytes 8 w.toNat).flatten ++ List.replicate (128 - 8 * l.params.length) 0 ++
  leBytes 64 f.state.toNat ++ others.flatMap fun e => leBytes 64 e.2.toNat

/-- Mark a queue's entries after a fault of entry `num` (R486): the faulting entry and every later one with
records dispatched end with FAULT; later entries with none dispatched count as not started. DEDUCED: assumption 69. -/
def SwQueue.faultFrom (x : SwQueue) (num : BitVec 17) (n : Nat) : SwQueue :=
  let es := x.entries.filter fun e => e.num == num || decide (0 < e.dispatched)
  let i := (es.takeWhile fun e => e.num ≠ num).length
  let es := (es.take i) ++ (es.drop i).map fun e => { e with faulted := true }
  { x with
    st := if x.st = .zombie then .zombie else .faulted
    faultCpl := false
    entries := es
    started := match es.getLast? with
      | some e => ptrInc n e.num
      | none => x.head }

/-- The DESTROYED record and the end of a ZOMBIE queue, once nothing of it is outstanding (R494). -/
def State.finishZombie (s : State) (p q : Nat) : State :=
  let x := s.queueOf p q
  if x.st == .zombie && !(s.fe.flights.any fun f => f.lrec.part == p && f.lrec.queue == q) then
    let s := s.writeCompletion p q (BitVec.ofNat 32 x.abandoned) 3 false
    let hr := (s.qReg p q 0x04).toNat % 4096
    let hc := (s.qReg p q 0x10).toNat % 4096
    let s := s.setUse p hr (s.useOf p hr - 1)
    let s := s.setUse p hc (s.useOf p hc - 1)
    let s := { s with fe := { s.fe with gids := s.fe.gids.put false x.gid.toNat false } }
    s.setQueue p q { SwQueue.init with err := x.err }
  else s

/-- Stop a queue at entry `num` for a command fault (R486 steps 1 and 2): discard its undispatched records. -/
def State.stopQueue (s : State) (p q : Nat) (num : BitVec 17) : State :=
  let s := s.dropHalves p fun r => r.queue == q
  s.setQueue p q ((s.queueOf p q).faultFrom num (s.ringLog2 p q))

/-- The error record of a command fault (R486 step 3, R538): class COMMAND, the front end, the queue's global ID. -/
def commandRec (p : Nat) (gid : BitVec 10) (cause : BitVec 16) : ErrRec :=
  { ErrRec.mk0 0x0D sevContained (srcOf 6 gid.toNat) with
    owner := if p < 64 then 0x80 ||| BitVec.ofNat 8 p else 0x40, cause := cause.zeroExtend 32 }

/-- Note a JOB_FAULT for the stage engine in stage mode (R344, R346); the first one noted is the one handled. -/
def State.jobCause (s : State) (cause : BitVec 8) (mb : BitVec 12 := 0xFFF) (flood : Bool := false) : State :=
  if s.sys.stageMode && s.stg.st != 0 && s.stg.pendingFault.isNone then
    { s with stg := { s.stg with pendingFault := some ⟨cause, mb, s.stg.st == 4, flood⟩ } }
  else s

/-- Take a command fault (R486). DEDUCED: assumption 69. -/
def State.takeFault (s : State) (l : LRec) (f : FaultInfo) : State :=
  let p := l.part
  let q := l.queue
  let s := s.stopQueue p q l.ref.entry
  let s := s.abortEngines fun r => r == l.ref
  let s := { s with fe := { s.fe with flights := s.fe.flights.filter fun x => x.lrec.ref ≠ l.ref } }
  let s := s.useRec l false
  let s := s.writeFault p (faultBytes s.sys.time l f (if l.ref.index = 0xFFFF then 0xFF else l.opcode) l.ref.index.toNat)
  let s := s.record (commandRec p l.gid f.cause)
  let s := if s.sys.stageMode && p == 0 then s.jobCause 1 else s
  (s.completions p q).finishZombie p q

/-- A partition's unit fault (R39, R545): every queue FAULTED, every engine aborted, one fault record. -/
def State.unitFault (s : State) (p : Nat) (cause : BitVec 16) (offset : Nat) : State :=
  let s := s.abortFlights fun r => r.part.val == p
  let s := (List.range 16).foldl (fun s q =>
    let x := s.queueOf p q
    if x.st == .ready || x.st == .faulted then
      let s := s.dropHalves p fun r => r.queue == q
      let es := x.entries.filter fun e => decide (0 < e.dispatched)
      s.setQueue p q { x with
        st := .faulted, faultCpl := es.isEmpty
        entries := es.map fun e => { e with faulted := true }
        started := match es.getLast? with
          | some e => ptrInc (s.ringLog2 p q) e.num
          | none => x.head }
    else s) s
  let l : LRec :=
    { ref := ⟨Fin.ofNat 65 p, 0, 0, 0⟩, gid := 0, raw := 0, params := [], opnds := [], tag := 0
      after := false, bind := 0, area := 0, fault := none }
  let bytes := faultBytes s.sys.time l { engineFault cause with fetch := true, operand := 7 } 0xFE 0xFFFF
  let bytes := bytes.take 11 ++ [0] ++ [0xFF, 0xFF] ++ (bytes.drop 14).take 10 ++ leBytes 8 offset ++ bytes.drop 32
  let s := s.writeFault p bytes
  let s := s.setPart p { s.partOf p with unitFault := true }
  if s.sys.stageMode && p == 0 then s.jobCause 1 else s

/-- A device fault (R39, R41): every configured partition faults; the caller has recorded it.
DEDUCED: assumptions 119, 125. -/
def State.deviceFault (s : State) (cause : BitVec 16) : State :=
  (List.range 64).foldl (fun s p => if s.configured p then s.unitFault p cause 0 else s) s

/-! ## Uncorrectable cellar units (R551, R552) -/

/-- The owner of a cellar page: the partition that maps it. -/
def State.pageOwner (s : State) (ppn : Nat) : Option (Fin 64) :=
  (s.cel.pte.find? fun e => e.2.getLsbD 63 && (e.2.extractLsb' 21 15).toNat == ppn).map fun e =>
    Fin.ofNat 64 (e.1 / 32768)

/-- The cellar stack of a physical offset (R33): the stacks alternate every 4 KiB. -/
def celStack (off : Nat) : Nat := off / 4096 % 2

/-- A page in which an uncorrectable unit is first found is retired (R552): it enters the ageing history, which holds
at most 64, and a 65th degrades the cellar. -/
def State.retirePage (s : State) (ppn : Nat) : State :=
  if s.err.retired.contains ppn then s
  else
    let s := { s with
      err := { s.err with retired := s.err.retired ++ [ppn] }
      fuse := if s.fuse.retiredPages.length < 64 then
          { s.fuse with retiredPages := s.fuse.retiredPages ++ [ppn] } else s.fuse }
    if s.err.retired.length ≤ 64 then s
    else ({ s with err := { s.err with cellarDegraded := true } }).record { ErrRec.mk0 0x06 sevDevice
        (srcOf 4 (celStack (ppn * 0x200000))) with
      owner := ownerByte none, flags := 0x20, location := BitVec.ofNat 64 (ppn * 0x200000) }

/-- An uncorrectable unit at a cellar physical offset has been found (R538, R551, R552): recorded, and its page retired,
or a device fault where it lies in the device region. DEDUCED: assumptions 117, 118. -/
def State.celUe (s : State) (off : Nat) : State :=
  let ppn := off / 0x200000
  let dev := decide (0xBE0000000 ≤ off)
  let fresh := !dev && !s.err.retired.contains ppn
  let s := s.record { ErrRec.mk0 0x06 (if dev then sevDevice else sevContained) (srcOf 4 (celStack off)) with
    owner := ownerByte (s.pageOwner ppn), flags := if fresh then 0x20 else 0
    location := BitVec.ofNat 64 (off / 64 * 64) }
  if dev then s.deviceFault 0x001D else s.retirePage ppn

/-- A read of `n` bytes at a cellar physical offset finds its poisoned units. -/
def State.noteCel (s : State) (off n : Nat) : State :=
  if !s.celPoisoned off n then s
  else ((List.range ((off + n - 1) / 64 - off / 64 + 1)).filter fun i =>
      s.cel.poison.get false (off / 64 + i)).foldl (fun s i => s.celUe ((off / 64 + i) * 64)) s

/-- The same, for a range of a partition's cellar view. -/
def State.noteView (s : State) (p v n : Nat) : State :=
  (pagePieces v n (n / 0x200000 + 2)).foldl (fun s piece => match s.translate p piece.1 false with
    | .ok phys => s.noteCel phys piece.2
    | _ => s) s

/-! ## Dispatch (R461) -/

/-- A fault has been raised for the record and is not yet taken (R486). -/
def FlightSt.isFaulted : FlightSt → Bool
  | .faulted _ => true
  | _ => false

/-- Whether every record that a record waits for has completed (R461 b–d, R280), and no fault of the queue is raised
(R486 step 1). DEDUCED: assumption 69. -/
def State.mayDispatch (s : State) (l : LRec) : Bool :=
  let x := s.queueOf l.part l.queue
  let i := l.ref.index.toNat
  match x.entries.find? fun e => e.num == l.ref.entry with
  | none => false
  | some e =>
    let earlier := x.entries.takeWhile fun y => y.num ≠ l.ref.entry
    x.st == .ready && s.bound l.part l.queue && (i == 0xFFFF || e.dispatched == i) &&
    (earlier.all fun y => y.dispatched == entRecords y.raw) &&
    (l.deps.all fun d => d == 0 || decide (i < d) || e.done.contains (i - d)) &&
    (!l.barrier || decide ((List.range i).all fun j => e.done.contains j)) &&
    (!(l.after && i == 0) || earlier.isEmpty) &&
    !(s.fe.flights.any fun f =>
      f.lrec.part == l.part && f.lrec.queue == l.queue && (f.st.isFaulted || (f.lrec.opcode == 0x51 && !f.st.ended)))

/-- Every bank that a record's operands touch is settled and its tier awake (R189, R11). -/
def State.banksReady (s : State) (l : LRec) : Bool :=
  l.opnds.all fun o => match o with
    | some o =>
      decide (windowOf o.lo ≠ .pad) || (List.range (padBank o.hi.toNat - padBank o.lo.toNat + 1)).all fun i =>
        let b := padBank o.lo.toNat + i
        (s.bankOf b).st == .settled && s.tierOf (regionOfCluster (bankCluster b)) (bankTier b) == .awake
    | none => true

/-- Wake the tiers of a waiting gang operation that are in retention (R189, R207). -/
def State.wakeFor (s : State) (l : LRec) : State :=
  l.opnds.foldl (fun s o => match o with
    | some o =>
      if windowOf o.lo = .pad then
        (List.range (padBank o.hi.toNat - padBank o.lo.toNat + 1)).foldl (fun s i =>
          let b := padBank o.lo.toNat + i
          let r := regionOfCluster (bankCluster b)
          match s.tierOf r (bankTier b) with
          | .retained | .entering _ => s.setTier r (bankTier b) (.waking (s.sys.time + 6000))
          | _ => s) s
      else s
    | none => s) s

/-- The mover channel that a mover record names (R465), by cluster × 8 + channel; the physical function's own
queues name clusters by number. DEDUCED: assumption 73. -/
def State.moverChan (s : State) (l : LRec) : Nat :=
  let c := if l.part = 64 then l.moverRank else (s.clustersOf l.part).getD l.moverRank 0
  c * 8 + l.moverCh

/-- Whether the engine queue that receives the record holds a credit (R461 e): 16 commands per mover channel, one
operation per slot in the gang queue. -/
def State.engineCredit (s : State) (l : LRec) (hot : Bool) : Bool :=
  if l.usesChan then
    decide ((s.fe.flights.filter fun f =>
      f.lrec.usesChan && !f.st.ended && s.moverChan f.lrec == s.moverChan l).length < 16)
  else if l.isGang then
    !(s.fe.flights.any fun f =>
      f.lrec.part == l.part && f.lrec.isGang && !f.st.ended && s.isHot f.lrec.part f.lrec.queue == hot)
  else true

/-- Whether the conditions of R461 hold for the head record of a half. A held fault needs no engine. -/
def State.headReady (s : State) (l : LRec) (hot : Bool) : Bool :=
  s.mayDispatch l && (l.fault.isSome || s.engineCredit l hot)

/-- Whether a head record can be dispatched now: it is ready, and a gang operation has its banks (R189). -/
def State.canDispatch (s : State) (l : LRec) (hot : Bool) : Bool :=
  s.headReady l hot && (l.fault.isSome || !l.isGang || s.banksReady l) && !s.pwr.trip

/-- The other half of a slot can dispatch a record that was fetched earlier (R484). -/
def State.yieldsHead (s : State) (slot : Nat) (hot half : Bool) : Bool :=
  let o := s.halfOf slot (!half)
  match o.recs with
  | [] => false
  | l :: _ => decide (o.filled < (s.halfOf slot half).filled) && s.canDispatch l hot

/-- Take the head record of a slot half out of it, dispatched with a state (R461). -/
def State.takeHead (s : State) (slot : Nat) (half : Bool) (l : LRec) (st : FlightSt) : State :=
  let h := s.halfOf slot half
  let s := s.setHalf slot half
    (if h.recs.tail.isEmpty then Half.init else { h with recs := h.recs.tail, since := some s.sys.time, bankWait := none })
  let x := s.queueOf l.part l.queue
  let s := s.setQueue l.part l.queue { x with entries := x.entries.map fun e =>
    if e.num == l.ref.entry then { e with dispatched := e.dispatched + 1 } else e }
  { s with fe := { s.fe with flights := s.fe.flights ++ [⟨l, st, false, s.sys.time⟩] } }

/-- DISPATCH_RECORD (R461, R474, R484): the head of a slot half goes to its engine. -/
def execDispatchRecord (p : Fin 65) (hot half : Bool) (s : State) : Out :=
  let slot := slotOf p.val hot
  let h := s.halfOf slot half
  match h.recs with
  | [] => .next s
  | l :: _ =>
    if !s.mayDispatch l || s.pwr.trip || s.yieldsHead slot hot half then .next s
    else
      match l.fault with
      | some f => .next (s.takeHead slot half l (.faulted f))
      | none =>
        if s.stg.skipping && l.part == 0 && l.queue == 0 then
          let s := s.takeHead slot half l .completed
          .next { s with stg := { s.stg with skipping := l.opcode != 0x62 } }
        else if l.isGang && !s.banksReady l then
          .next ((s.wakeFor l).setHalf slot half { h with bankWait := some (h.bankWait.getD s.sys.time) })
        else if !s.engineCredit l hot then .next s
        else
          let s := s.takeHead slot half l .queued
          let s := s.bump64 .fe l.part 0x54 1
          .next (if p.val < 64 then s.bump64 .slot slot 0x48 1 else s)

/-! ## Ending records -/

/-- Take a record's flight away and release its uses. -/
def State.closeFlight (s : State) (l : LRec) : State :=
  { s with fe := { s.fe with flights := s.fe.flights.filter fun f => f.lrec.ref ≠ l.ref } }.useRec l false

/-- RECORD_COMPLETE (R461, R282, R472): an engine has reported a record complete or aborted. -/
def execRecordComplete (r : RecRef) (s : State) : Out :=
  match s.flight? r with
  | none => .next s
  | some f =>
    let l := f.lrec
    match f.st with
    | .completed =>
      let s := if l.sigEn && !l.isMover then s.directSignal l.part l.sigVid.toNat l.sigAmount else s
      let s := s.closeFlight l
      let x := s.queueOf l.part l.queue
      let s := s.setQueue l.part l.queue { x with entries := x.entries.map fun e =>
        if e.num == l.ref.entry then { e with done := e.done ++ [l.ref.index.toNat] } else e }
      .next ((s.completions l.part l.queue).finishZombie l.part l.queue)
    | .aborted => .next (((s.closeFlight l).completions l.part l.queue).finishZombie l.part l.queue)
    | _ => .next s

/-- COMMAND_FAULT (R486). -/
def execCommandFault (r : RecRef) (s : State) : Out :=
  match s.flight? r with
  | none => .next s
  | some f => match f.st with
    | .faulted i => .next (s.takeFault f.lrec i)
    | _ => .next s

/-- NOP (R464): completes at dispatch. -/
def execNop (r : RecRef) (s : State) : Out := .next <| s.start r 0x00 fun _ s => s.endFlight r true

/-- Why a write of the front end at a device address stops with a fault (R180, R225, R226, R435); none where it waits for
a page's scrub (R222). DEDUCED: assumptions 68, 72. -/
def State.frontStop (s : State) (p : Nat) (kind : BitVec 2) (addr n : Nat) : Option (BitVec 16) :=
  if s.scopeHit p addr n then some 0x0024
  else if kind = 1 then match s.viewWritable p (addr % 0x1000000000) n with
    | some (.miss _) => some 0x0019
    | some .rights => some 0x001A
    | some .poison => some 0x001D
    | some (.scrubbing _) => none
    | none => some 0x0019
  else some 0x0010

/-- TIMESTAMP (R464): the time base at the record's dispatch, to the 8 B at operand A. DEDUCED: assumption 68. -/
def execTimestamp (r : RecRef) (s : State) : Out :=
  .next <| s.start r 0x02 fun l s =>
    let t := ((s.flight? r).map (·.time)).getD s.sys.time
    match l.opnd 0 with
    | some o => match s.partWrite l.part o.kind o.addr.toNat (leBytes 8 t.toNat) with
      | some s => s.endFlight r true
      | none => match s.frontStop l.part o.kind o.addr.toNat 8 with
        | some cause =>
          (s.scopeNote l.part o.addr.toNat 8).failFlightAt r (engineFault cause (engineId 0 4 0)) (some o.addr)
        | none => s.setFlight r .queued
    | none => s.failFlight r (engineFault 0x0002 (engineId 0 4 0))

/-- The ring entry that SELF_SUBMIT writes (R479). DEDUCED: assumption 67. -/
def selfSubmitEntry (l : LRec) : List Byte :=
  let h := ((l.opnd 0).map (·.handle.toNat)).getD 0
  let off := ((l.opnd 0).map (·.offset.toNat)).getD 0
  let flags : Nat := (if l.sub.getLsbD 7 then 0x80 else 0) + (if l.sub.getLsbD 6 then 0x40 else 0)
  leBytes 8 (h + off * 65536) ++ [BitVec.ofNat 8 flags, 0] ++ leBytes 2 (l.immF 16 15) ++ leBytes 2 (l.immF 0 14) ++
  [0, 0] ++ leBytes 4 (l.immF 32 32) ++ List.replicate 44 0

/-- SELF_SUBMIT (R479): a full ring holds it; the queue fed by the stage engine takes nothing.
DEDUCED: assumption 67. -/
def execSelfSubmit (r : RecRef) (s : State) : Out :=
  .next <| s.start r 0x01 fun l s =>
    let p := l.part
    let q := l.subF 0 4
    let x := s.queueOf p q
    let n := s.ringLog2 p q
    if s.stageFed p q then
      (s.endFlight r true).record { commandRec p x.gid 0 with sev := sevInfo }
    else if !(s.qReg p q 0).getLsbD 31 || !(x.st == .ready || x.st == .faulted) then
      s.failFlight r (engineFault 0x000A (engineId 0 4 0))
    else if 2 ^ n ≤ ptrDist n x.head x.tail then s.setFlight r .queued
    else
      let off := (s.qReg p q 0x0C ++ s.qReg p q 0x08).toNat + 64 * (x.tail.toNat % 2 ^ n)
      match s.handleWrite p ((s.qReg p q 0x04).toNat % 4096) off (selfSubmitEntry l) with
      | some s =>
        let s := s.setQueue p q { s.queueOf p q with tail := ptrInc n x.tail }
        (s.bump .fe p 0x60).endFlight r true
      | none =>
        let h := (s.qReg p q 0x04).toNat % 4096
        let barred := s.scopeHit p ((s.handleOf p h).dev.toNat + off) 64
        (s.handleNote p h off 64).failFlight r (engineFault (if barred then 0x0024 else 0x0003) (engineId 0 4 0))

/-! ## Doorbells and the queue lifecycle -/

/-- DOORBELL (R478). -/
def execDoorbell (f : Fn) (p : Fin 65) (q : Fin 16) (v : Word) (s : State) : Out :=
  match s.openAt f ⟨.fe, p.val⟩ (0x100 + 64 * q.val + 0x1C) v with
  | .error s => .next s
  | .ok t =>
    let x := s.queueOf p.val q.val
    let n := s.ringLog2 p.val q.val
    let new := v.extractLsb' 0 17
    let ok := (x.st == .ready || x.st == .faulted) && !(s.qReg p.val q.val 0).getLsbD 31 &&
      !s.stageFed p.val q.val && decide (new.toNat < 2 ^ (n + 1)) &&
      decide (ptrDist n x.tail new ≤ 2 ^ n) && decide (ptrDist n x.head new ≤ 2 ^ n)
    if ok then .next (s.setQueue p.val q.val { x with tail := new })
    else .next (((s.rejectState f t).bump .fe p.val 0x5C).raise .fe p.val 1)

/-- Open a write of Qn_CTRL with command `cmd`. DEDUCED: assumption 63. -/
def State.openCtrl (s : State) (f : Fn) (p : Fin 65) (q : Fin 16) (cmd : Word) : Except State Target :=
  s.openAt f ⟨.fe, p.val⟩ (0x100 + 64 * q.val + 0x30) cmd

/-- Refuse a lifecycle command (R492, R493): ERR, and the rejection is logged. -/
def State.refuseQueue (s : State) (f : Fn) (t : Target) (p q : Nat) (err : BitVec 4) : State :=
  (s.setQueue p q { s.queueOf p q with err := err }).rejectState f t

/-- Whether a ring of `bytes` bytes at `off` in handle `h` has the rights, the place and the alignment of R475. -/
def ringOk (h : Handle) (off bytes : Nat) (read scratch : Bool) : Bool :=
  h.v && h.cmd && (if read then h.rd else h.wr) && h.covers off bytes && (h.base.toNat + off) % 4096 == 0 &&
  (h.kind == 1 || h.kind == 2 || (scratch && h.kind == 0))

/-- The lowest free global queue ID (R492). -/
def State.freeGid (s : State) : Option Nat := (List.range 1024).find? fun g => !(s.fe.gids.get false g)

/-- Whether some context owns queue `q` (R514). -/
def State.queueOwned (s : State) (p q : Nat) : Bool :=
  p == 64 || (List.range 16).any fun c =>
    let x := s.ctxOf p c
    x.st ≠ .free && (x.cfg.extractLsb' 16 16).getLsbD q

/-- QUEUE_CREATE (R492, R497): the staged configuration takes force with the accepted CREATE. DEDUCED: assumption 63. -/
def execQueueCreate (f : Fn) (p : Fin 65) (q : Fin 16) (s : State) : Out :=
  match s.openCtrl f p q 1 with
  | .error s => .next s
  | .ok t =>
    let x := s.queueOf p.val q.val
    let nv (o : Nat) : Word := s.nextVal (rk .fe p.val (0x100 + 64 * q.val + o))
    let n := ((nv 0x04).extractLsb' 16 5).toNat
    let m := ((nv 0x10).extractLsb' 16 5).toNat
    let ring := s.handleOf p.val ((nv 0x04).toNat % 4096)
    let cpl := s.handleOf p.val ((nv 0x10).toNat % 4096)
    let selfFed := (nv 0).getLsbD 31
    if x.st ≠ .free then .next (s.refuseQueue f t p.val q.val 4)
    else if !(decide (4 ≤ n ∧ n ≤ 16 ∧ 4 ≤ m ∧ m ≤ 16) && s.queueOwned p.val q.val) then
      .next (s.refuseQueue f t p.val q.val 1)
    else if !(ringOk ring (nv 0x0C ++ nv 0x08).toNat (64 * 2 ^ n) true false && (!selfFed || ring.wr) &&
        ringOk cpl (nv 0x18 ++ nv 0x14).toNat (16 * 2 ^ m) false true) then
      .next (s.refuseQueue f t p.val q.val 2)
    else match s.freeGid with
      | none => .next (s.refuseQueue f t p.val q.val 3)
      | some g =>
        let s := [0x00, 0x04, 0x08, 0x0C, 0x10, 0x14, 0x18].foldl (fun s o =>
          let k := rk .fe p.val (0x100 + 64 * q.val + o)
          (s.setReg k (s.nextVal k)).stage k none) s
        let s := s.setPr .fe p.val (0x100 + 64 * q.val + 0x28) 0
        let hr := (s.qReg p.val q.val 0x04).toNat % 4096
        let s := s.setUse p.val hr (s.useOf p.val hr + 1)
        let hc := (s.qReg p.val q.val 0x10).toNat % 4096
        let s := s.setUse p.val hc (s.useOf p.val hc + 1)
        let s := { s with fe := { s.fe with gids := s.fe.gids.put false g true } }
        .next (s.setQueue p.val q.val { SwQueue.init with st := .ready, gid := BitVec.ofNat 10 g })

/-- Destroy a queue (R494): a gang operation of it that runs stops at its step ends and closes as a park close
(R165). DEDUCED: assumption 81. -/
def State.destroyQueue (s : State) (p q : Nat) : State :=
  let x := s.queueOf p q
  let mine (r : RecRef) : Bool := r.part.val == p && r.queue.val == q
  let run := s.gang.running.get none p
  let keep (r : RecRef) : Bool := (run.map fun g => g.lrec.ref == r).getD false
  let s := match run with
    | some g =>
      if mine g.lrec.ref then
        { s with gang := { s.gang with running := s.gang.running.put none p (some { g with stop := some .abort }) } }
      else s
    | none => s
  let s := s.dropHalves p fun r => r.queue == q
  let s := s.setQueue p q { x with
    st := .zombie, entries := [], abandoned := ptrDist (s.ringLog2 p q) x.head x.tail }
  (s.abortFlights fun r => mine r && !keep r).finishZombie p q

/-- QUEUE_DESTROY (R494). -/
def execQueueDestroy (f : Fn) (p : Fin 65) (q : Fin 16) (s : State) : Out :=
  match s.openCtrl f p q 2 with
  | .error s => .next s
  | .ok t =>
    let x := s.queueOf p.val q.val
    if x.st == .ready || x.st == .faulted then .next (s.destroyQueue p.val q.val)
    else .next (s.refuseQueue f t p.val q.val 4)

/-- QUEUE_RESUME (R493). -/
def execQueueResume (f : Fn) (p : Fin 65) (q : Fin 16) (s : State) : Out :=
  match s.openCtrl f p q 3 with
  | .error s => .next s
  | .ok t =>
    let x := s.queueOf p.val q.val
    if x.st == .faulted && x.faultCpl then
      .next (s.setQueue p.val q.val { x with st := .ready, faultCpl := false })
    else .next (s.refuseQueue f t p.val q.val 4)

/-- HALF_RELEASE (R485): both heads have failed to dispatch for FE.SWITCH, and another bound queue of the slot has
an unstarted entry. DEDUCED: assumptions 4, 114. -/
def execHalfRelease (p : Fin 65) (hot : Bool) (s : State) : Out :=
  let slot := slotOf p.val hot
  let h0 := s.halfOf slot false
  let h1 := s.halfOf slot true
  let sw := (s.pr .fe p.val 0x50).toNat % 256 * 1000
  match h0.recs, h1.recs, h0.since, h1.since with
  | a :: _, b :: _, some t0, some t1 =>
    let long (t : BitVec 64) : Bool := decide (sw ≤ (s.sys.time - t).toNat)
    let other := (List.range 16).any fun q =>
      let x := s.queueOf p.val q
      q ≠ a.queue && q ≠ b.queue && s.bound p.val q && s.isHot p.val q == hot && x.started ≠ x.tail
    if long t0 && long t1 && !s.canDispatch a hot && !s.canDispatch b hot && other then
      let which := decide (t1.toNat < t0.toNat)
      let h := if which then h1 else h0
      let s := h.recs.foldl (fun s r => s.useRec r false) (s.setHalf slot which Half.init)
      .next (if p.val < 64 then s.bump .slot slot 0x50 else s)
    else .next s
  | _, _, _, _ => .next s

end Sys2Proof.Machine
end

