-- ==== Sys2Proof/Machine/Tensor.lean ====
section
/-! DEFINITION. Tensors in the scratchpad: elements and scales (R49–R53, R652), weight runs (R93–R96), the shape,
split and pass order of array operations (R86, R110–R111, R150, R650–R651), and convolution addresses (R105–R109). -/

namespace Sys2Proof.Machine

/-! ## Bits and elements -/

/-- `n` bits from bit `bit` after scratchpad address `addr`. -/
def State.padBits (s : State) (addr bit n : Nat) : Nat :=
  leVal (s.padRead (addr + bit / 8) ((bit % 8 + n + 7) / 8)) / 2 ^ (bit % 8) % 2 ^ n

/-- The bytes that hold values of `w` bits each, placed from bit `bit` of the first byte, over the bytes `old`. -/
def mergeBits (old : List Byte) (bit w : Nat) (vals : List Nat) : List Byte :=
  let v := leVal old
  let n := vals.length * w
  let new := vals.reverse.foldl (fun acc x => acc * 2 ^ w + x % 2 ^ w) 0
  leBytes old.length (v % 2 ^ bit + new * 2 ^ bit + v / 2 ^ (bit + n) * 2 ^ (bit + n))

/-- Write consecutive elements of `w` bits from bit `bit` after scratchpad address `addr`. -/
def State.padPut (s : State) (addr bit w : Nat) (vals : List Nat) : State :=
  let a := addr + bit / 8
  let len := (bit % 8 + vals.length * w + 7) / 8
  s.bankWrite a (mergeBits (s.padRead a len) (bit % 8) w vals)

/-- The bytes of one row of `n` elements: a row begins on a byte (R49: the element index counts along the
innermost dimension). -/
def rowBytes (code n : Nat) : Nat := (n * elemBits code + 7) / 8

/-- A signed 64-bit stride. DEDUCED: assumption 74. -/
def strideOf (v : BitVec 64) : Int := v.toInt

/-- An address plus a signed offset. -/
def addrPlus (a : Nat) (d : Int) : Nat := ((a : Int) + d).toNat

/-! ## Parameters of array operations (R137, R465) -/

def LRec.outFmt (l : LRec) : Nat := l.subF 12 4
def LRec.wide (l : LRec) : Bool := l.sub.getLsbD 11
def LRec.acc (l : LRec) : Bool := l.sub.getLsbD 10
def LRec.epiParam (l : LRec) : BitVec 32 := BitVec.ofNat 32 (l.immF 32 32)
def LRec.fmtA (l : LRec) : Nat := l.immF 24 8
def LRec.fmtB (l : LRec) : Nat := l.immF 16 8
def LRec.cvt (l : LRec) : Nat := l.immF 8 8
def LRec.epi (l : LRec) : Nat := l.immF 4 4
def LRec.mS (l : LRec) : Nat := l.paramF 0 48 16
def LRec.nS (l : LRec) : Nat := l.paramF 0 32 16
def LRec.kS (l : LRec) : Nat := l.paramF 0 16 16
def LRec.pos (l : LRec) : Nat := l.paramF 0 0 16
def LRec.stream (l : LRec) : BitVec 32 := BitVec.ofNat 32 (l.paramF 2 0 32)
def LRec.seed (l : LRec) : BitVec 128 := l.param 7 ++ l.param 6

/-- The geometry of a convolution (R108). -/
structure ConvGeo where
  cin : Nat
  kh : Nat
  kw : Nat
  sy : Nat
  sx : Nat
  dy : Nat
  dx : Nat
  padT : Nat
  padB : Nat
  padL : Nat
  padR : Nat
  ih : Nat
  iw : Nat
  row0 : Nat
  rows : Nat
  pixS : Nat
  rowS : Nat
deriving DecidableEq, Repr

def LRec.geo (l : LRec) : ConvGeo :=
  { cin := l.paramF 8 51 13, kh := l.paramF 8 47 4, kw := l.paramF 8 43 4, sy := l.paramF 8 39 4
    sx := l.paramF 8 35 4, dy := l.paramF 8 31 4, dx := l.paramF 8 27 4, padT := l.paramF 8 23 4
    padB := l.paramF 8 19 4, padL := l.paramF 8 15 4, padR := l.paramF 8 11 4, ih := l.paramF 9 48 16
    iw := l.paramF 9 32 16, row0 := l.paramF 9 16 16, rows := l.paramF 9 0 16, pixS := l.paramF 10 40 24
    rowS := l.paramF 10 16 24 }

/-- The output map's rows and columns (R652); 0 where the kernel does not fit. -/
def ConvGeo.oh (g : ConvGeo) : Nat :=
  let n := g.ih + g.padT + g.padB
  let k := g.dy * (g.kh - 1) + 1
  if n < k ∨ g.sy = 0 then 0 else (n - k) / g.sy + 1

def ConvGeo.ow (g : ConvGeo) : Nat :=
  let n := g.iw + g.padL + g.padR
  let k := g.dx * (g.kw - 1) + 1
  if n < k ∨ g.sx = 0 then 0 else (n - k) / g.sx + 1

/-- The dimensions of an array operation: outer (batch or head), vectors, columns and reduction length. -/
structure Shape where
  outer : Nat
  m : Nat
  n : Nat
  k : Nat
deriving DecidableEq, Repr

/-- The shape of an array record (R137, R652). -/
def LRec.shape (l : LRec) : Shape :=
  match l.opcode.toNat with
  | 0x10 => ⟨l.paramF 2 48 16, l.paramF 1 40 24 + 1, l.paramF 1 20 20 + 1, l.paramF 1 0 20 + 1⟩
  | 0x11 =>
    let g := l.geo
    ⟨1, g.oh * g.ow, l.paramF 1 20 20 + 1, g.kh * g.kw * g.cin⟩
  | 0x12 => ⟨l.paramF 1 56 8 + 1, l.paramF 1 32 16 + 1, l.paramF 1 16 16 + 1, 32 * l.paramF 1 52 4⟩
  | _ => ⟨l.paramF 1 56 8 + 1, l.paramF 1 32 16 + 1, 32 * l.paramF 1 52 4, l.paramF 1 16 16 + 1⟩

/-- Rows and columns of a weight tile, and the most vectors of a pass (R86). -/
def LRec.tileRows (l : LRec) : Nat := if l.wide then 32 else 128
def LRec.tileCols (l : LRec) : Nat := if l.wide then 512 else 128

/-- The serial depth of the activations and the passes of the weights (R56, R57). -/
def LRec.depth (l : LRec) : Nat := actDepth l.fmtA
def LRec.passes (l : LRec) : Nat := weightPasses l.fmtB
def LRec.intClass (l : LRec) : Bool := fmtInt l.fmtA

/-- The most vectors that one pass streams (R86, R150). -/
def LRec.maxVecs (l : LRec) : Nat := min (if l.wide then 32 else 128) (3000 / (l.depth * l.passes))

/-! ## Weight runs (R93–R96, R652) -/

/-- Tiles of a weight run, and its slots as a skewed run or as a ring. -/
def LRec.runTiles (l : LRec) : Nat := (l.shape.k + l.tileRows - 1) / l.tileRows
def LRec.runSlots (l : LRec) (ring : Bool) : Nat := l.tileRows * l.runTiles + (if ring then 0 else 127)
def LRec.slotBytes (l : LRec) : Nat := 16 * elemBits (fmtCode l.fmtB)
/-- The bytes of one batch's or head's runs: one run for each 128 columns. DEDUCED: assumption 74. -/
def LRec.runsBytes (l : LRec) (ring : Bool) : Nat := (l.shape.n + 127) / 128 * l.runSlots ring * l.slotBytes

/-- The stride of operand `i` (A, B, C: 0, 1, 2) between batches or heads. -/
def LRec.stride (l : LRec) (i : Nat) : Int := strideOf (l.param (3 + i))

/-- The lowest and highest offsets of `n` blocks of `len` bytes at a signed stride. -/
def strided (n len : Nat) (stride : Int) : Int × Int :=
  let last : Int := ((n : Int) - 1) * stride
  (min 0 last, max 0 last + len - 1)

/-- Whether the weights are read as a ring: the record has no field that says so, and the model reads a run where
B's handle covers a skewed run, and a ring where it covers only a ring's slots. DEDUCED: assumption 74. -/
def LRec.isRing (l : LRec) (size : Nat) : Bool :=
  let off := ((l.opnd 1).map (·.offset.toNat)).getD 0
  let e := strided l.shape.outer (l.runsBytes false) (l.stride 1)
  decide ((size : Int) ≤ (off : Int) + e.2)

/-- The bits of weight (k, n) of batch or head `o`. DEDUCED: assumption 74. -/
def State.weightBits (s : State) (l : LRec) (ring : Bool) (o k n : Nat) : Nat :=
  let w := elemBits (fmtCode l.fmtB)
  let slots := l.runSlots ring
  let u := if ring then (k + n % 128) % slots else k + n % 128
  s.padBits (addrPlus (l.addr 1) (o * l.stride 1) + (n / 128 * slots + u) * l.slotBytes) (n % 128 * w) w

/-- The scale byte of the weights of block `blk`, column `n` (R96). DEDUCED: assumption 74. -/
def State.weightScale (s : State) (l : LRec) (o blk n : Nat) : Option Nat :=
  if !fmtMx l.fmtB then none
  else
    let base := ((l.opnd 1).bind (·.scale)).getD 0
    let per := (l.shape.n + l.tileCols - 1) / l.tileCols * l.runTiles * 512
    let ct := n / l.tileCols
    some (s.padByte (base.toNat + o * per + ct * l.runTiles * 512 +
      blk * l.tileCols + n % l.tileCols)).toNat

/-! ## Activations (R97, R105–R109, R652) -/

/-- One element of a convolution's input (R106): a padding zero, an element address, or one outside the rows held. -/
inductive ConvElem where
  | pad
  | out
  | at (addr : Nat) (bit : Nat)
deriving DecidableEq, Repr

/-- The element at reduction index `k` of output pixel `m`. -/
def LRec.convAt (l : LRec) (m k : Nat) : ConvElem :=
  let g := l.geo
  let esz := elemBits (fmtCode l.fmtA)
  let cin := k % g.cin
  let kw := k / g.cin % g.kw
  let kh := k / g.cin / g.kw
  let iy : Int := (m / g.ow * g.sy : Nat) - (g.padT : Int) + (kh * g.dy : Nat)
  let ix : Int := (m % g.ow * g.sx : Nat) - (g.padL : Int) + (kw * g.dx : Nat)
  if iy < 0 ∨ (g.ih : Int) ≤ iy ∨ ix < 0 ∨ (g.iw : Int) ≤ ix then .pad
  else if iy < g.row0 ∨ (g.row0 + g.rows : Nat) ≤ iy.toNat then .out
  else .at (l.addr 0 + (iy.toNat - g.row0) * g.rowS + ix.toNat * g.pixS) (cin * esz)

/-- The raw elements of vector `m` of batch or head `o` at reduction indices `k0` up to `k1`. DEDUCED: assumption 74. -/
def State.actElems (s : State) (l : LRec) (o m k0 k1 : Nat) : List Nat :=
  let w := elemBits (fmtCode l.fmtA)
  (List.range (k1 - k0)).map fun i =>
    if l.opcode = 0x11 then
      match l.convAt m (k0 + i) with
      | .at a bit => s.padBits a bit w
      | _ => 0
    else
      s.padBits (addrPlus (l.addr 0) (o * l.stride 0) + m * rowBytes (fmtCode l.fmtA) l.shape.k) ((k0 + i) * w) w

/-- The scale byte of block `blk` of vector `m` (R53): one per 32 elements of each row, batches one after another;
for a convolution one per 32 channels of each pixel held. -/
def State.actScale (s : State) (l : LRec) (o m blk : Nat) : Option Nat :=
  if !fmtMx l.fmtA then none
  else
    let base := (((l.opnd 0).bind (·.scale)).getD 0).toNat
    if l.opcode = 0x11 then
      let g := l.geo
      match l.convAt m (32 * blk) with
      | .at a _ =>
        let off := a - l.addr 0
        some (s.padByte (base + (off / g.rowS * g.iw + off % g.rowS / g.pixS) * ((g.cin + 31) / 32) +
          32 * blk % g.cin / 32)).toNat
      | _ => some 127
    else
      let nb := (l.shape.k + 31) / 32
      some (s.padByte (base + (o * l.shape.m + m) * nb + blk)).toNat

/-! ## Split, groups and passes (R110, R111, R150, R650, R651) -/

/-- Tiles per cluster of the device's grade (R4). -/
def State.gradeTiles (s : State) : Nat := 16 - s.fuse.grade.toNat

/-- A partition's gang size in logical tiles (R148). -/
def State.gangSize (s : State) (p : Nat) : Nat := (s.clustersOf p).length * s.gradeTiles

/-- The gang index of tile `t` of cluster `c` (R110). -/
def State.gangIndex (s : State) (p c t : Nat) : Nat := s.rankOf p c * s.gradeTiles + t

/-- Range `i` of `n` contiguous ranges of a dimension of `len` units (R650): start and length. -/
def cutRange (len n i : Nat) : Nat × Nat :=
  (i * (len / n) + min i (len % n), len / n + (if i < len % n then 1 else 0))

/-- A shard: vectors over outer × m, columns, and alignment blocks of the reduction, each start and length. -/
structure Shard where
  v0 : Nat
  vc : Nat
  n0 : Nat
  nc : Nat
  k0 : Nat
  kc : Nat
  ki : Nat
deriving DecidableEq, Repr

/-- The shard of gang index `g` (R111, R650); an empty range makes it empty. -/
def LRec.shard (l : LRec) (g : Nat) : Option Shard :=
  if l.mS * l.nS * l.kS ≤ g then none
  else
    let ki := g % l.kS
    let ni := g / l.kS % l.nS
    let mi := g / l.kS / l.nS
    let sh := l.shape
    let per := if l.opcode = 0x11 then l.geo.ow else 1
    let v := cutRange (sh.outer * sh.m / per) l.mS mi
    let n := cutRange sh.n l.nS ni
    let k := cutRange ((sh.k + 31) / 32) l.kS ki
    if v.2 = 0 ∨ n.2 = 0 ∨ k.2 = 0 ∨ per = 0 then none
    else some ⟨v.1 * per, v.2 * per, n.1, n.2, k.1, k.2, ki⟩

/-- An accumulator group: batch or head, first vector and count within it, first column and count. -/
structure Group where
  o : Nat
  m0 : Nat
  mc : Nat
  n0 : Nat
  nc : Nat
deriving DecidableEq, Repr

/-- Cut `len` units from `start` into pieces of at most `step`. -/
def pieces (start len step : Nat) : List (Nat × Nat) :=
  (List.range ((len + step - 1) / step)).map fun i => (start + i * step, min step (len - i * step))

/-- The accumulator groups of a shard in order (R651). -/
def LRec.groups (l : LRec) (sh : Shard) : List Group :=
  let m := l.shape.m
  let firstO := sh.v0 / m
  let lastO := (sh.v0 + sh.vc - 1) / m
  (List.range (lastO - firstO + 1)).flatMap fun i =>
    let o := firstO + i
    let a := max sh.v0 (o * m) - o * m
    let b := min (sh.v0 + sh.vc) ((o + 1) * m) - o * m
    (pieces sh.n0 sh.nc l.tileCols).flatMap fun n =>
      (pieces a (b - a) l.maxVecs).map fun v => ⟨o, v.1, v.2, n.1, n.2⟩

/-- Array passes of a group; the load of C is a step of its own, and so a place of its own in the order, where
ACC = 1 and the group has a single pass (R140). -/
def LRec.groupPasses (l : LRec) (sh : Shard) : Nat := (sh.kc + l.tileRows / 32 - 1) / (l.tileRows / 32)
def LRec.loadStep (l : LRec) (sh : Shard) : Bool := l.acc && sh.ki == 0 && l.groupPasses sh == 1
def LRec.groupPlaces (l : LRec) (sh : Shard) : Nat := l.groupPasses sh + (if l.loadStep sh then 1 else 0)

/-- One place in a tile's order of passes: its group, whether it is the load of C, and the blocks of its pass. -/
structure Place where
  grp : Group
  load : Bool
  b0 : Nat
  bc : Nat
  first : Bool
  last : Bool
  /-- The place before the group's last. -/
  nextLast : Bool
deriving DecidableEq, Repr

/-- Place `i` of a shard's order; none past its end. -/
def LRec.place (l : LRec) (sh : Shard) (i : Nat) : Option Place :=
  let np := l.groupPlaces sh
  if np = 0 then none
  else match (l.groups sh)[i / np]? with
    | none => none
    | some g =>
      let j := i % np
      let load := l.loadStep sh && j == 0
      let pass := if l.loadStep sh then j - 1 else j
      let per := l.tileRows / 32
      some ⟨g, load, sh.k0 + pass * per, if load then 0 else min per (sh.kc - pass * per), j == 0, j + 1 == np,
        j + 2 == np⟩

/-! ## Pass times (R107, R128) -/

/-- The feeder's tier-port cycles for one convolution vector over rows `k0` up to `k1` (R107): one per 128 B window
that each run touches. -/
def LRec.convFetch (l : LRec) (m k0 k1 : Nat) : Nat :=
  let cin := l.geo.cin
  let esz := elemBits (fmtCode l.fmtA)
  ((List.range (k1 / cin + 1 - k0 / cin)).map fun i =>
    let a := max k0 ((k0 / cin + i) * cin)
    let b := min k1 ((k0 / cin + i + 1) * cin)
    if b ≤ a then 0
    else match l.convAt m a with
      | .at addr bit =>
        let lo := addr + bit / 8
        let hi := addr + (bit + (b - a) * esz - 1) / 8
        hi / 128 - lo / 128 + 1
      | _ => 0).foldl (· + ·) 0

/-- The cycles of a place's pass: M_p × S × P (R100). -/
def LRec.passCycles (l : LRec) (p : Place) : Nat := if p.load then 0 else p.grp.mc * l.depth * l.passes

/-- The interval of a place's pass (R128). In the wide form the feeder always shares its tier's port with the loader
(R90). DEDUCED: assumption 137. -/
def LRec.interval (l : LRec) (p : Place) : Nat :=
  if p.load then 0
  else
    let c := l.passCycles p
    let w := l.tileRows * elemBits (fmtCode l.fmtB) / 8
    let k0 := 32 * p.b0
    let k1 := min l.shape.k (32 * (p.b0 + p.bc))
    let f :=
      if l.opcode = 0x11 then
        ((List.range p.grp.mc).map fun i => l.convFetch (p.grp.m0 + i) k0 k1).foldl (· + ·) 0
      else
        let per := if l.wide then 32 else 8
        (p.grp.mc * elemBits (fmtCode l.fmtA) + per - 1) / per
    if l.wide || padTier (l.addr 0) == padTier (l.addr 1) then max c (w + f) else max c (max w f)

end Sys2Proof.Machine
end

