-- ==== Sys2Proof/Machine/Epilogue.lean ====
section
/-! DEFINITION. What an array operation does with finished accumulators: the epilogues and the row reductions of
R138 and R649, the conversion to C (R71–R76, R648), and the counts of R74 and R77. -/

namespace Sys2Proof.Machine

/-- No counts. -/
def Shadow.zero : Shadow := ⟨0, 0, 0, 0, 0, 0, 0, 0, 0, 0⟩

def Shadow.add (a b : Shadow) : Shadow :=
  ⟨a.flush + b.flush, a.nfIn + b.nfIn, a.nfOut + b.nfOut, a.accSat + b.accSat, a.convSat + b.convSat,
    a.busy + b.busy, a.waitW + b.waitW, a.waitA + b.waitA, a.waitD + b.waitD, a.ramp + b.ramp⟩

/-- Count what a conversion did. -/
def Shadow.conv (a : Shadow) (c : Conv) : Shadow :=
  { a with convSat := a.convSat + c.sat.toNat, nfIn := a.nfIn + c.nfIn.toNat, nfOut := a.nfOut + c.nfOut.toNat }

/-- Add a step's counts to a cluster's counters (R80, R155); a tile's flushes go to its own counter. A step that adds
to NONFIN_OUT sets its partition's STEP_NONFIN (R419) and the cluster's interrupt (R642). DEDUCED: assumption 79. -/
def State.commitShadow (s : State) (c : Nat) (tile : Option Nat) (x : Shadow) : State :=
  let s := match tile with
    | some t => s.bump .clu c (0x200 + 4 * t) x.flush
    | none => s
  let s := (((s.bump .clu c 0x240 x.nfIn).bump .clu c 0x244 x.nfOut).bump .clu c 0x248 x.accSat).bump .clu c 0x24C
    x.convSat
  let s := (((((s.bump64 .clu c 0x310 x.busy).bump64 .clu c 0x318 x.waitW).bump64 .clu c 0x320 x.waitA).bump64 .clu c
    0x328 x.waitD).bump64 .clu c 0x330 x.ramp)
  if x.nfOut = 0 then s
  else
    let s := s.raise .clu c 1
    match s.clusterOwner c with
    | some p => s.setPr .part p.val 0x510 1
    | none => s

/-- The counters of a cluster's vector engine (R644): cost units executed, output values that an epilogue processed, and
Currant outputs drawn. DEDUCED: assumption 78. -/
def State.vecCount (s : State) (c cost epi rand : Nat) : State :=
  ((s.bump64 .vec c 0x40 cost).bump64 .vec c 0x48 epi).bump64 .vec c 0x50 rand

/-- The Currant outputs that the 16-bit draws of elements `q0` up to `q1` come from (R76). -/
def draws (q0 q1 : Nat) : Nat := if q1 ≤ q0 then 0 else (q1 - 1) / 8 - q0 / 8 + 1

/-- An epilogue's cost per output value (R138). -/
def epiCost (epi : Nat) : Nat := [0, 1, 2, 3, 1, 4, 6, 4, 7].getD epi 0

/-- Count `n` output values from position `q` on, finished in cluster `c` (R138, R644). -/
def State.epiCount (s : State) (l : LRec) (c q n : Nat) : State :=
  s.vecCount c (n * epiCost l.epi) (if l.epi = 0 then 0 else n) (if l.cvt % 4 = 2 then draws q (q + n) else 0)

/-- A finished accumulator as an exact value (R66, R70). -/
def LRec.accVal (l : LRec) (v : BitVec 64) : Fl :=
  if l.intClass then Fl.ofInt v.toInt else v32 (v.truncate 32)

/-- The same as FP32, for the epilogue (R138). -/
def LRec.acc32 (l : LRec) (v : BitVec 64) : BitVec 32 :=
  if l.intClass then f32 (Fl.ofInt v.toInt) else v.truncate 32

/-- The FP32 word at a scratchpad address. -/
def State.word32 (s : State) (a : Nat) : BitVec 32 := BitVec.ofNat 32 (leVal (s.padRead a 4))

/-- The address of row `m` of batch or head `o` of a tensor laid out as C (R652) from `base`. -/
def LRec.cRow (l : LRec) (base o m : Nat) : Nat :=
  addrPlus base (o * l.stride 2) + m * rowBytes l.outFmt l.shape.n

/-- Element (m, n) of an operand with C's layout, widened to FP32 (R73). -/
def State.likeC (s : State) (l : LRec) (base o m n : Nat) : BitVec 32 :=
  let w := elemBits l.outFmt
  f32 (elemVal l.outFmt (s.padBits (l.cRow base o m) (n * w) w))

/-- The epilogues that need only their own output value. DEDUCED: assumption 75. -/
def LRec.elementwise (l : LRec) : Bool := decide (l.epi ≤ 4) || l.epi == 6

/-- One output value before conversion, for an elementwise epilogue (R138).
DEDUCED: assumption 75; DESIGN CHOICE: assumption 76. -/
def State.epiVal (s : State) (l : LRec) (o m n : Nat) (acc : BitVec 64) : Fl :=
  let r := l.acc32 acc
  let d := l.addr 3
  match l.epi with
  | 0 => l.accVal acc
  | 1 => v32 (add32 r (s.word32 (d + 4 * n)))
  | 2 => v32 (max32 (add32 r (s.word32 (d + 4 * n))) 0)
  | 3 =>
    let y := add32 (mul32 r (s.word32 (d + 8 * n))) (s.word32 (d + 8 * n + 4))
    v32 (if (Fl.num false 0 0).lt (v32 l.epiParam) then max32 y 0 else y)
  | 4 => v32 (add32 (s.likeC l d o m n) r)
  | _ =>
    let g := s.likeC l d o m n
    v32 (mul32 (mul32 g (transc32 0x10 g)) r)

/-- The linear position of output element (o, m, n) (R648). -/
def LRec.position (l : LRec) (o m n : Nat) : Nat := (o * l.shape.m + m) * l.shape.n + n

/-- Convert one output value of an array operation. -/
def LRec.toOut (l : LRec) (q : Nat) (x : Fl) : Conv :=
  convElem l.outFmt (modeOf l.cvt l.seed l.stream q) (l.cvt / 4 % 2 == 1) x

/-- Write `vals` as consecutive elements of row `m` of C, or of its second region, from column `n0`. -/
def State.putRow (s : State) (l : LRec) (region o m n0 : Nat) (vals : List Conv) : State :=
  let w := elemBits l.outFmt
  let base := l.cRow (l.addr 2) o m + region * (l.shape.m * rowBytes l.outFmt l.shape.n)
  s.padPut base (n0 * w) w (vals.map (·.bits))

/-- Finish a row piece of an elementwise epilogue: columns `n0` onward of row `m`. -/
def State.finishPiece (s : State) (l : LRec) (o m n0 : Nat) (accs : List (BitVec 64)) : State × Shadow :=
  let cs := (List.range accs.length).map fun i =>
    l.toOut (l.position o m (n0 + i)) (s.epiVal l o m (n0 + i) (accs.getD i 0))
  (s.putRow l 0 o m n0 cs, cs.foldl Shadow.conv Shadow.zero)

/-! ## Row epilogues (R138, R649) -/

/-- The cluster that holds output column `n` of vector `v` (shard k_i = 0). -/
def State.columnCluster (s : State) (l : LRec) (v n : Nat) : Nat :=
  let sh := l.shape
  let per := if l.opcode = 0x11 then max 1 l.geo.ow else 1
  let mi := ((List.range l.mS).find? fun i =>
    let r := cutRange (sh.outer * sh.m / per) l.mS i
    decide (r.1 * per ≤ v ∧ v < (r.1 + r.2) * per)).getD 0
  let ni := ((List.range l.nS).find? fun i =>
    let r := cutRange sh.n l.nS i
    decide (r.1 ≤ n ∧ n < r.1 + r.2)).getD 0
  (s.clustersOf l.part).getD ((mi * l.nS + ni) * l.kS / s.gradeTiles) 0

/-- The part lengths of a row: runs of columns on one cluster, in ascending column order (R649). -/
def partLens : List Nat → List Nat
  | [] => []
  | c :: cs => match partLens cs, cs with
    | n :: ns, c' :: _ => if c = c' then (n + 1) :: ns else 1 :: n :: ns
    | _, _ => [1]

/-- Cut a list into parts of the given lengths. -/
def cutList {α : Type} : List Nat → List α → List (List α)
  | [], _ => []
  | n :: ns, xs => xs.take n :: cutList ns (xs.drop n)

/-- Reduce one part: element i goes to lane i mod 512 and is accumulated in ascending i; then the lanes are
combined in the tree of R112. -/
def lanePartial (f : BitVec 32 → BitVec 32 → BitVec 32) (ident : BitVec 32) (xs : List (BitVec 32)) : BitVec 32 :=
  let lane (j : Nat) : BitVec 32 :=
    let vs := (List.range ((xs.length + 511 - j) / 512)).map fun i => xs.getD (i * 512 + j) ident
    match vs with
    | [] => ident
    | v :: rest => rest.foldl f v
  tree f ident ((List.range 512).map lane)

/-- Reduce a row cut into parts (R142, R649). -/
def rowReduce (f : BitVec 32 → BitVec 32 → BitVec 32) (ident : BitVec 32) (parts : List (List (BitVec 32))) :
    BitVec 32 :=
  tree f ident (parts.map (lanePartial f ident))

/-- The FP32 of a natural number. -/
def natF32 (n : Nat) : BitVec 32 := f32 (.num false n 0)

/-- Minus infinity, the identity of a maximum. -/
abbrev negInf32 : BitVec 32 := 0xFF800000

/-- Softmax of a scaled row whose entries at and after `valid` are masked (R138, R142). -/
def softmaxRow (lens : List Nat) (valid : Nat) (ys : List (BitVec 32)) : List (BitVec 32) :=
  let live := (List.range ys.length).map fun i => if i < valid then ys.getD i 0 else negInf32
  let mx := rowReduce max32 negInf32 (cutList lens live)
  let es := (List.range ys.length).map fun i =>
    if i < valid then transc32 0x0D (sub32 (ys.getD i 0) mx) else 0
  let sum := rowReduce add32 0 (cutList lens es)
  es.map fun e => div32 e sum

/-- Count the conversions of a row in the clusters that hold its columns (R74, R77). -/
def State.countRow (s : State) (l : LRec) (v : Nat) (cs : List Conv) : State :=
  (List.range cs.length).foldl (fun s n =>
    match cs[n]? with
    | some c =>
      if c.sat || c.nfIn || c.nfOut then s.commitShadow (s.columnCluster l v n) none (Shadow.zero.conv c) else s
    | none => s) s

/-- Count the output values of row `v` in the clusters that hold them, in runs of columns: `lens` are the runs. -/
def State.epiRow (s : State) (l : LRec) (v n : Nat) : List Nat → State
  | [] => s
  | k :: ks =>
    (s.epiCount l (s.columnCluster l v n) (l.position (v / l.shape.m) (v % l.shape.m) n) k).epiRow l v (n + k) ks

/-- Finish one whole row with a row epilogue. -/
def State.finishRow (s : State) (l : LRec) (o m : Nat) (accs : List (BitVec 64)) : State :=
  let sh := l.shape
  let v := o * sh.m + m
  let lens := partLens ((List.range sh.n).map fun n => s.columnCluster l v n)
  let rs := accs.map l.acc32
  let out (region : Nat) (ys : List (BitVec 32)) : List Conv :=
    (List.range ys.length).map fun n =>
      l.toOut (region * (sh.outer * sh.m * sh.n) + l.position o m n) (v32 (ys.getD n 0))
  if l.epi = 5 then
    let d := l.addr 3
    let xs := (List.range sh.n).map fun n => add32 (s.likeC l d o m n) (rs.getD n 0)
    let sum := rowReduce add32 0 (cutList lens (xs.map fun x => mul32 x x))
    let k := rsqrt32 (add32 (div32 sum (natF32 sh.n)) l.epiParam)
    let c0 := out 0 xs
    let c1 := out 1 (xs.map fun x => mul32 x k)
    (((s.putRow l 0 o m 0 c0).putRow l 1 o m 0 c1).countRow l v c0).countRow l v c1
  else if l.epi = 8 then
    let ys := softmaxRow lens (l.pos + m + 1) (rs.map fun r => mul32 r l.epiParam)
    let cs := out 0 ys
    (s.putRow l 0 o m 0 cs).countRow l v cs
  else
    -- ROTARY_KV: the rotation and the cache's place are not given, so what is written to C and D is open
    let n := rowBytes l.outFmt sh.n
    let put (s : State) (a : Nat) : State :=
      (List.range n).foldl (fun s i =>
        let (v, s) := s.free
        s.bankWrite (a + i) [v.truncate 8]) s
    put (put s (l.cRow (l.addr 2) o m)) (l.cRow (l.addr 3) o m)

end Sys2Proof.Machine
end

