-- ==== Sys2Proof/Machine/Array.lean ====
section
/-! DEFINITION. Array operations on the tiles (R83–R109, R133–R166): issue, passes, steps, drains and results. -/

namespace Sys2Proof.Machine

/-! ## Gang state -/

def State.gangOf (s : State) (p : Nat) : Option GangOp := s.gang.running.get none p
def State.setGang (s : State) (p : Nat) (g : Option GangOp) : State :=
  { s with gang := { s.gang with running := s.gang.running.put none p g } }
def State.parkedOf (s : State) (p : Nat) : Option GangOp := s.gang.parked.get none p
def State.setParked (s : State) (p : Nat) (g : Option GangOp) : State :=
  { s with gang := { s.gang with parked := s.gang.parked.put none p g } }

/-- A tile with no activity. -/
def TileAct.init : TileAct := ⟨0, false⟩
def State.actOf (s : State) (c t : Nat) : TileAct := s.gang.act.get TileAct.init (c * 16 + t)
def State.setAct (s : State) (c t : Nat) (a : TileAct) : State :=
  { s with gang := { s.gang with act := s.gang.act.put TileAct.init (c * 16 + t) a } }

/-- A share with nothing done. -/
def TileRun.init : TileRun :=
  { issued := 0, committed := 0, steps := 0, reissues := 0, elapsed := 0, acc := [], loaded := false
    shadow := Shadow.zero, ends := [], inside := false }
def UnitRun.init : UnitRun := { done := 0, steps := 0, reissues := 0, counts := [] }

def GangOp.tile (g : GangOp) (c t : Nat) : TileRun := g.tiles.get TileRun.init (c * 16 + t)
def GangOp.setTile (g : GangOp) (c t : Nat) (r : TileRun) : GangOp :=
  { g with tiles := g.tiles.put TileRun.init (c * 16 + t) r }

/-- The shard of a tile under a partition's operation. -/
def State.tileShard (s : State) (l : LRec) (c t : Nat) : Option Shard :=
  if t < s.gradeTiles then l.shard (s.gangIndex l.part c t) else none

/-- An operation's opcode classes. -/
def LRec.isArray (l : LRec) : Bool := decide (0x10 ≤ l.opcode.toNat ∧ l.opcode.toNat ≤ 0x13)

/-! ## Faults of a gang operation -/

/-- A tile's engine state (R490). -/
def TileRun.image (r : TileRun) : BitVec 512 :=
  BitVec.ofNat 512 (r.steps + r.committed * 2 ^ 32 + r.reissues * 2 ^ 96)
def UnitRun.image (r : UnitRun) : BitVec 512 :=
  BitVec.ofNat 512 (r.steps + r.done * 2 ^ 32 + r.reissues * 2 ^ 96)

/-- The open steps of an operation's tiles, which an abort cuts off (R158). -/
def GangOp.openTiles (g : GangOp) : List Nat :=
  (g.tiles.filter fun e => e.2.issued ≠ e.2.committed).map (·.1)

/-- The engine instances that run a gang operation, in ascending cluster rank, then tile or bank, with their states
(R489, R490). DEDUCED: assumption 70. -/
def State.gangEngines (s : State) (p : Nat) (g : GangOp) : List (BitVec 16 × BitVec 512) :=
  (s.clustersOf p).flatMap fun c =>
    let rank := s.rankOf p c
    if g.lrec.isArray then
      ((List.range 16).filter fun t => (s.tileShard g.lrec c t).isSome).map fun t =>
        (engineId rank 5 t, (g.tile c t).image)
    else if g.lrec.opcode = 0x30 then
      (g.cmps.filter fun e => bankCluster e.1 == c).map fun e => (engineId rank 3 0, e.2.image)
    else [(engineId rank 1 0, (g.vecs.get UnitRun.init c).image)]

/-- The bytes of operand `k`. -/
def LRec.extent (l : LRec) (k : Nat) : List (Nat × Nat) :=
  match l.opnd k with
  | some o => [(o.lo.toNat, o.hi.toNat - o.lo.toNat + 1)]
  | none => []

/-- What a command fault of a gang operation leaves undefined (R161): C, a D operand that it writes, and the partial
area (R148, R149). -/
def State.gangOpens (s : State) (l : LRec) : List (Nat × Nat) :=
  let like (base k : Nat) : List (Nat × Nat) :=
    (List.range l.shape.outer).map fun o => (l.cRow base o 0, k * l.shape.m * rowBytes l.outFmt l.shape.n)
  let outs : List (Nat × Nat) :=
    if l.isArray then like (l.addr 2) (if l.epi = 5 then 2 else 1) ++ (if l.epi = 7 then like (l.addr 3) 1 else [])
    else l.extent 2 ++ (if l.opcode = 0x24 ∨ l.opcode = 0x30 then l.extent 3 else [])
  outs ++ [(l.area.toNat, s.gangSize l.part * 0x40000 + (s.clustersOf l.part).length * 0x2000)]

/-- End a partition's gang operation with a command fault (R127, R160–R162): every other instance aborts, and what the
operation writes becomes undefined. DEDUCED: assumption 138. -/
def State.gangFault (s : State) (p : Nat) (g : GangOp) (cause : BitVec 16) (engine : BitVec 16) (image : BitVec 512)
    (at_ : Option (BitVec 64) := none) : State :=
  let others := (s.gangEngines p g).erase (engine, image)
  let s := g.openTiles.foldl (fun s k => s.bump .clu (k / 16) 0x40C) s
  let s := (s.setGang p none).openOutputs p (s.gangOpens g.lrec)
  let s := s.applyClears p
  s.failFlightAt g.lrec.ref { engineFault cause engine with state := image, others := others } at_

/-! ## The checkpoint scope (R435) -/

/-- The bytes that `n` elements of `w` bits from element `i` of a row at `base` lie in. -/
def bitRange (base i n w : Nat) : Nat × Nat := (base + i * w / 8, (i * w % 8 + n * w + 7) / 8)

/-- The first range of a gang operation's writes that the checkpoint scope bars. DEDUCED: assumption 72. -/
def State.gangBarred (s : State) (l : LRec) (rs : List (Nat × Nat)) : Option Nat :=
  (rs.find? fun r => s.scopeHit l.part r.1 r.2).map (·.1)

/-- A gang operation whose write is barred: nothing of the commit or the close is written, and the command faults.
DEDUCED: assumption 72. -/
def State.gangRefuse (s : State) (p : Nat) (g : GangOp) (engine : BitVec 16) (image : BitVec 512) (a : Nat) : State :=
  s.scopeRefuse.gangFault p g 0x0024 engine image (some (BitVec.ofNat 64 a))

/-! ## Issue (R21, R111, R127, R163, R164) -/

/-- Whether another record of the partition's hot slot is a gang operation that waits to issue. -/
def State.hotReady (s : State) (p : Nat) : Bool :=
  s.fe.flights.any fun f =>
    f.lrec.part == p && f.lrec.isGang && f.st == .queued && (!f.lrec.pwEn || f.pwDone) && s.isHot p f.lrec.queue

/-- Whether a gang operation may issue now: none is in progress, and a parked one resumes before another warm
one. -/
def State.gangFree (s : State) (l : LRec) : Bool :=
  (s.gangOf l.part).isNone && (s.isHot l.part l.queue || (s.parkedOf l.part).isNone)

/-- Whether the split places a non-empty shard on a tile that is mapped out (R127). -/
def State.overHole (s : State) (l : LRec) : Bool :=
  (s.clustersOf l.part).any fun c => (List.range s.gradeTiles).any fun t =>
    (s.tileShard l c t).isSome && !s.tileLive c t

/-- Begin a gang operation. -/
def State.issueGang (s : State) (l : LRec) : State :=
  if !s.gangFree l then s.setFlight l.ref .queued
  else if l.isArray && s.overHole l then s.failFlight l.ref (engineFault 0x0012)
  else
    s.setGang l.part (some
      { lrec := l, hot := s.isHot l.part l.queue, since := s.sys.time, tiles := [], vecs := [], cmps := []
        results := [], arrived := [], firstArrival := none, stop := none, parkAt := 0 })

/-- MATMUL (R137): C[b] = epilogue(A[b] × B[b]). -/
def execMatmul (r : RecRef) (s : State) : Out := .next <| s.start r 0x10 fun l s => s.issueGang l

/-- CONV (R105, R106): MATMUL with the convolution's addresses. -/
def execConv (r : RecRef) (s : State) : Out := .next <| s.start r 0x11 fun l s => s.issueGang l

/-- ATT_QK (R137): for each head the scores Q × Kᵀ. -/
def execAttQk (r : RecRef) (s : State) : Out := .next <| s.start r 0x12 fun l s => s.issueGang l

/-- ATT_PV (R137): for each head the products P × V. -/
def execAttPv (r : RecRef) (s : State) : Out := .next <| s.start r 0x13 fun l s => s.issueGang l

/-! ## A pass (R65–R69, R91, R103) -/

/-- The aligned activation blocks of vector `m`, blocks `b0` up to `b0 + bc`. -/
def State.actBlocks (s : State) (l : LRec) (o m b0 bc : Nat) : List Block :=
  (List.range bc).map fun i =>
    let b := b0 + i
    alignBlock l.fmtA (actDepth l.fmtA) (s.actElems l o m (32 * b) (min l.shape.k (32 * b + 32))) (s.actScale l o m b)

/-- The aligned weight blocks of column `n`. -/
def State.weightBlocks (s : State) (l : LRec) (ring : Bool) (o n b0 bc : Nat) : List Block :=
  (List.range bc).map fun i =>
    let b := b0 + i
    alignBlock l.fmtB (weightWidth l.fmtB)
      ((List.range (min 32 (l.shape.k - 32 * b))).map fun j => s.weightBits l ring o (32 * b + j) n)
      (s.weightScale l o b n)

/-- Add one pair of blocks to an accumulator, pass 0 before pass 1 (R67–R69); the count is of saturations. -/
def addBlock (int : Bool) (passes : Nat) (acc : BitVec 64 × Nat) (a w : Block) : BitVec 64 × Nat :=
  (List.range passes).foldl (fun acc p =>
    let d := dotInt a.vals (w.vals.map fun x => passPart x p passes)
    if int then
      let r := accAddInt acc.1 (d * 2 ^ (12 * p))
      (r.1, acc.2 + r.2.toNat)
    else
      let x : Fl := if a.bad || w.bad then .nan else .num (decide (d < 0)) d.natAbs (a.exp + w.exp + 12 * p)
      (accAddFl acc.1 x, acc.2)) acc

/-- Stream a pass: the accumulators of its group, and the counts (R63, R64). DEDUCED: assumption 79. -/
def State.runPass (s : State) (l : LRec) (ring : Bool) (pl : Place) (acc : SMap (BitVec 64)) :
    SMap (BitVec 64) × Shadow :=
  let g := pl.grp
  let ws := (List.range g.nc).map fun j => s.weightBlocks l ring g.o (g.n0 + j) pl.b0 pl.bc
  let as := (List.range g.mc).map fun i => s.actBlocks l g.o (g.m0 + i) pl.b0 pl.bc
  let blocks := ws.flatten ++ as.flatten
  let sh : Shadow :=
    { Shadow.zero with
      flush := (blocks.map (·.flush)).foldl (· + ·) 0
      nfIn := (blocks.filter (·.bad)).length }
  (List.range g.mc).foldl (fun st i =>
    (List.range g.nc).foldl (fun st j =>
      let key := i * l.tileCols + j
      let pairs := (as.getD i []).zip (ws.getD j [])
      let r := pairs.foldl (fun acc x => addBlock l.intClass l.passes acc x.1 x.2) (st.1.get 0 key, 0)
      (st.1.put 0 key r.1, { st.2 with accSat := st.2.accSat + r.2 })) st) (acc, sh)

/-- Load C's prior values into a group's set (R140). -/
def State.loadC (s : State) (l : LRec) (g : Group) : SMap (BitVec 64) × Shadow :=
  (List.range g.mc).foldl (fun st i =>
    (List.range g.nc).foldl (fun st j =>
      let v := s.word32 (l.cRow (l.addr 2) g.o (g.m0 + i) + 4 * (g.n0 + j))
      let key := i * l.tileCols + j
      if !l.intClass then (st.1.put 0 key (v.zeroExtend 64), st.2)
      else match v32 v with
        | .nan => (st.1, { st.2 with nfIn := st.2.nfIn + 1 })
        | .inf n => (st.1.put 0 key (BitVec.ofInt 64 (if n then -accBound else accBound)), { st.2 with accSat := st.2.accSat + 1 })
        | .num n m e =>
          let x : Int := toQuantum .nearest m e 0
          let r := accAddInt 0 (if n then -x else x)
          (st.1.put 0 key r.1, { st.2 with accSat := st.2.accSat + r.2.toNat })) st) ([], Shadow.zero)

/-- The address ranges that a pass reads: its vectors and its weight band (R98). -/
def State.passReads (_s : State) (l : LRec) (ring : Bool) (pl : Place) : List (Nat × Nat) :=
  let g := pl.grp
  let k0 := 32 * pl.b0
  let k1 := min l.shape.k (32 * (pl.b0 + pl.bc))
  let w := elemBits (fmtCode l.fmtA)
  let vecs := (List.range g.mc).flatMap fun i =>
    if l.opcode = 0x11 then
      (List.range (k1 - k0)).filterMap fun j => match l.convAt (g.m0 + i) (k0 + j) with
        | .at a bit => some (a + bit / 8, (bit % 8 + w + 7) / 8)
        | _ => none
    else
      let a := addrPlus (l.addr 0) (g.o * l.stride 0) + (g.m0 + i) * rowBytes (fmtCode l.fmtA) l.shape.k
      [(a + k0 * w / 8, (k1 * w + 7) / 8 - k0 * w / 8)]
  let runs := (List.range ((g.n0 + g.nc - 1) / 128 - g.n0 / 128 + 1)).map fun i =>
    let base := addrPlus (l.addr 1) (g.o * l.stride 1) + (g.n0 / 128 + i) * l.runSlots ring * l.slotBytes
    if ring then (base, l.runSlots ring * l.slotBytes) else (base + k0 * l.slotBytes, (k1 - k0 + 127) * l.slotBytes)
  vecs ++ runs

/-- Whether some element of a convolution pass lies outside the rows held (R106). -/
def LRec.convOut (l : LRec) (pl : Place) : Bool :=
  l.opcode == 0x11 && (List.range pl.grp.mc).any fun i =>
    (List.range (32 * pl.bc)).any fun j =>
      decide (32 * pl.b0 + j < l.shape.k) && l.convAt (pl.grp.m0 + i) (32 * pl.b0 + j) == .out

/-- Whether B's handle makes the weights a ring. -/
def State.ringOf (s : State) (l : LRec) : Bool :=
  match l.opnd 1 with
  | some o => l.opcode ≠ 0x11 && l.isRing (s.handleOf l.part o.handle.toNat).size.toNat
  | none => false

/-- Whether a tile's step is open: it has issued passes since its last step end. -/
def TileRun.stepOpen (r : TileRun) : Bool :=
  decide (r.issued ≠ (match r.ends.getLast? with | some e => e.pass | none => r.committed))

/-- `n` tile-cycles in which pulp bits enter row 0, which they do while PULP_EN is 1 (R122).
DEDUCED: assumption 79. -/
def State.pulp (s : State) (c n : Nat) : State :=
  if (s.pr .clu c 0x304).getLsbD 0 then s.bump64 .clu c 0x338 n else s

/-- Issue the next pass of a tile (R99, R140, R151, R154). -/
def State.issuePass (s : State) (p : Nat) (g : GangOp) (c t : Nat) (sh : Shard) (pl : Place) (w : PassWaits) : State :=
  let l := g.lrec
  let r := g.tile c t
  let elapsed := if r.stepOpen then r.elapsed + (w.a + w.b + w.c + w.d) else 0
  let iv := l.interval pl
  let next := ((l.place sh (r.issued + 1)).map l.interval).getD 0
  let loads := l.acc && sh.ki == 0 && pl.first
  let ends := pl.last || pl.load || decide (3000 < elapsed + iv + next) || (pl.nextLast && (r.loaded || loads))
  let inside := ends && !pl.last
  if 2 ≤ r.ends.length ∨ (inside ∧ r.ends ≠ []) then s
  else
    let engine := engineId (s.rankOf p c) 5 t
    let ring := s.ringOf l
    if l.convOut pl then s.gangFault p g 0x0004 engine r.image
    else match (s.passReads l ring pl).find? fun a => s.poisoned a.1 a.2 with
      | some a => (s.notePoison a.1 a.2).gangFault p g 0x001D engine r.image (some (s.poisonAt a.1 a.2))
      | none =>
        let start := if loads then s.loadC l pl.grp else (if pl.first then [] else r.acc, Shadow.zero)
        let out := if pl.load then start else
          let x := s.runPass l ring pl start.1
          (x.1, x.2.add start.2)
        let cycles : Shadow :=
          { Shadow.zero with busy := l.passCycles pl, waitW := w.a, waitA := w.b, waitD := w.c, ramp := w.d }
        let shadow := (r.shadow.add out.2).add cycles
        let r' : TileRun :=
          if ends then
            { r with
              issued := r.issued + 1, elapsed := 0, loaded := false, shadow := Shadow.zero
              acc := if pl.last then [] else out.1
              ends := r.ends ++ [⟨r.issued + 1, inside, out.1, shadow⟩] }
          else
            { r with
              issued := r.issued + 1, elapsed := elapsed + iv, loaded := r.loaded || loads, shadow := shadow
              acc := out.1 }
        (s.setGang p (some (g.setTile c t r'))).pulp c w.pulp

/-- PASS_ISSUE (R99): the environment says that the band and the vectors are there and how long the tile waited;
the accumulator set and the activity level are the state's. DESIGN CHOICE: assumption 3. -/
def execPassIssue (c : Fin 64) (t : Fin 16) (w : PassWaits) (s : State) : Out :=
  match s.clusterOwner c.val with
  | none => .next s
  | some p => match s.gangOf p.val with
    | none => .next s
    | some g =>
      if !g.lrec.isArray || (s.actOf c.val t.val).level ≠ 8 || !s.tileLive c.val t.val || s.clkStopped c.val then .next s
      else match s.tileShard g.lrec c.val t.val with
        | none => .next s
        | some sh =>
          let r := g.tile c.val t.val
          if g.stop.isSome && !r.stepOpen then .next s
          else match g.lrec.place sh r.issued with
            | none => .next s
            | some pl => .next (s.issuePass p.val g c.val t.val sh pl w)

/-! ## Activity (R119–R122) -/

/-- Whether passes are pending on a tile. -/
def State.passPending (s : State) (c t : Nat) : Bool :=
  match s.clusterOwner c with
  | none => false
  | some p => match s.gangOf p.val with
    | none => false
    | some g =>
      g.lrec.isArray && s.tileLive c t && (match s.tileShard g.lrec c t with
        | some sh => (g.lrec.place sh (g.tile c t).issued).isSome
        | none => false)

/-- BAND_LO, and the CLK_A cycles of RAMP_STEP and HOLD (R130). -/
def bandLo (cfg : Word) : Nat := (cfg.extractLsb' 16 4).toNat
def rampStep (cfg : Word) : Nat := 8 * 2 ^ (cfg.extractLsb' 14 2).toNat
def holdTime (cfg : Word) : Nat := 8 * (cfg.extractLsb' 20 12).toNat

/-- ACTIVITY_STEP (R120, R121): one step toward 8 while passes are pending, toward BAND_LO until the hold expires,
then toward 0. A step down ends RAMP_STEP cycles at the level before it. DESIGN CHOICE: assumption 3. -/
def execActivityStep (c : Fin 64) (t : Fin 16) (s : State) : Out :=
  let a := s.actOf c.val t.val
  if s.passPending c.val t.val then
    .next (s.setAct c.val t.val ⟨min 8 (a.level + 1), false⟩)
  else
    let cfg := s.pr .clu c.val 0x304
    let low := if a.expired || holdTime cfg == 0 then 0 else bandLo cfg
    if low < a.level then .next ((s.setAct c.val t.val { a with level := a.level - 1 }).pulp c.val (rampStep cfg))
    else .next s

/-- PULP_HOLD_EXPIRY (R121): HOLD has passed at BAND_LO with no pass pending. -/
def execPulpHoldExpiry (c : Fin 64) (t : Fin 16) (s : State) : Out :=
  let a := s.actOf c.val t.val
  let cfg := s.pr .clu c.val 0x304
  if !s.passPending c.val t.val && a.level == bandLo cfg && !a.expired then
    .next ((s.setAct c.val t.val { a with expired := true }).pulp c.val (if a.level = 0 then 0 else holdTime cfg))
  else .next s

/-! ## Step ends of a tile (R153–R159) -/

/-- The partial slot of a tile's gang index and step parity (R149). DESIGN CHOICE: assumption 77. -/
def LRec.slotAddr (l : LRec) (g parity : Nat) : Nat := l.area.toNat + g * 0x40000 + parity * 0x20000

/-- The bytes of one accumulator entry in a partial slot (R70). -/
def LRec.accBytes (l : LRec) : Nat := if l.intClass then 8 else 4

/-- Write a raw accumulator set into a partial slot: entry (vector, column) at its place in the set.
DESIGN CHOICE: assumption 77. -/
def State.drainRaw (s : State) (l : LRec) (grp : Group) (addr : Nat) (acc : SMap (BitVec 64)) : State :=
  (List.range grp.mc).foldl (fun s i =>
    s.bankWrite (addr + i * l.tileCols * l.accBytes)
      ((List.range grp.nc).flatMap fun j => leBytes l.accBytes (acc.get 0 (i * l.tileCols + j)).toNat)) s

/-- Read a raw accumulator set back. DESIGN CHOICE: assumption 77. -/
def State.reloadRaw (s : State) (l : LRec) (grp : Group) (addr : Nat) : SMap (BitVec 64) :=
  (List.range grp.mc).foldl (fun m i =>
    (List.range grp.nc).foldl (fun m j =>
      let k := i * l.tileCols + j
      m.put 0 k (BitVec.ofNat 64 (leVal (s.padRead (addr + k * l.accBytes) l.accBytes)))) m) []

/-- The key of a partial result: shard k_i, vector and column (R112). -/
def LRec.resKey (l : LRec) (ki v n : Nat) : Nat := (ki * (l.shape.outer * l.shape.m) + v) * l.shape.n + n

/-- Deliver a finished group: through the epilogue to C where nothing else is to be added, otherwise to the
reducer (R112, R139, R153). -/
def State.deliver (s : State) (l : LRec) (g : GangOp) (sh : Shard) (grp : Group) (acc : SMap (BitVec 64)) :
    State × GangOp × Shadow :=
  let row (i : Nat) : List (BitVec 64) := (List.range grp.nc).map fun j => acc.get 0 (i * l.tileCols + j)
  if l.kS = 1 ∧ l.elementwise then
    let r := (List.range grp.mc).foldl (fun st i =>
      let x := st.1.finishPiece l grp.o (grp.m0 + i) grp.n0 (row i)
      (x.1, st.2.add x.2)) (s, Shadow.zero)
    (r.1, g, r.2)
  else
    let res := (List.range grp.mc).foldl (fun m i =>
      (List.range grp.nc).foldl (fun m j =>
        m.put 0 (l.resKey sh.ki (grp.o * l.shape.m + grp.m0 + i) (grp.n0 + j)) (acc.get 0 (i * l.tileCols + j))) m)
      g.results
    (s, { g with results := res }, Shadow.zero)

/-- The error record of a parity error of an engine instance (R538, LOGIC). DEDUCED: assumption 80. -/
def State.logicRec (s : State) (level : BitVec 4) (inst c : Nat) (sev : BitVec 2) : State :=
  s.record { ErrRec.mk0 0x0B sev (srcOf level inst) with owner := ownerByte (s.clusterOwner c) }

/-- The bytes that the commit of a step writes: the raw set in a partial slot, or rows of C. DEDUCED: assumption 75. -/
def State.commitWrites (s : State) (p : Nat) (g : GangOp) (c t : Nat) (pl : Place) (inside : Bool) : List (Nat × Nat) :=
  let l := g.lrec
  let b := pl.grp
  if inside then
    (List.range b.mc).map fun i =>
      (l.slotAddr (s.gangIndex p c t) ((g.tile c t).steps % 2) + i * l.tileCols * l.accBytes, b.nc * l.accBytes)
  else if l.kS = 1 ∧ l.elementwise then
    (List.range b.mc).map fun i => bitRange (l.cRow (l.addr 2) b.o (b.m0 + i)) b.n0 b.nc (elemBits l.outFmt)
  else []

/-- Commit the oldest ended step of a tile (R153, R155). -/
def State.commitTile (s : State) (p : Nat) (g : GangOp) (c t : Nat) (sh : Shard) : State :=
  let l := g.lrec
  let r := g.tile c t
  match r.ends with
  | [] => s
  | e :: rest =>
    match l.place sh (e.pass - 1) with
    | none => s
    | some pl => match s.gangBarred l (s.commitWrites p g c t pl e.inside) with
    | some a => s.gangRefuse p g (engineId (s.rankOf p c) 5 t) r.image a
    | none =>
      let gi := s.gangIndex p c t
      let x := if e.inside then (s.drainRaw l pl.grp (l.slotAddr gi (r.steps % 2)) e.acc, g, Shadow.zero)
        else s.deliver l g sh pl.grp e.acc
      let s := if e.inside || !(decide (l.kS = 1) && l.elementwise) then x.1
        else (List.range pl.grp.mc).foldl (fun s i =>
          s.epiCount l c (l.position pl.grp.o (pl.grp.m0 + i) pl.grp.n0) pl.grp.nc) x.1
      let r' := { r with committed := e.pass, steps := r.steps + 1, reissues := 0, ends := rest, inside := e.inside }
      let s := s.setGang p (some (x.2.1.setTile c t r'))
      let s := (s.bump64 .clu c 0x400 1).commitShadow c (some t) (e.shadow.add x.2.2)
      let s := if 0 < r.reissues then s.logicRec 0 (c * 16 + t) c sevCorrected else s
      s.applyClears p

/-- The accumulator set at a tile's restart point (R157): from the partial slot of the last step's parity where that
step ended inside its group, otherwise empty (C is loaded again with the first pass). -/
def State.restartAcc (s : State) (p : Nat) (g : GangOp) (c t : Nat) (sh : Shard) : SMap (BitVec 64) :=
  let l := g.lrec
  let r := g.tile c t
  if r.inside then
    match l.place sh (r.committed - 1) with
    | some pl => s.reloadRaw l pl.grp (l.slotAddr (s.gangIndex p c t) ((r.steps + 1) % 2))
    | none => []
  else []

/-- Restart a tile's step after a restartable fault (R157–R160). `drain`: the fault is in the drain of the oldest
ended step, so its successors are aborted with it; otherwise the open step restarts from the last step end. -/
def State.restartTile (s : State) (p : Nat) (g : GangOp) (c t : Nat) (sh : Shard) (drain : Bool) : State :=
  let r := g.tile c t
  let aborted := if drain then r.ends.length + r.stepOpen.toNat else r.stepOpen.toNat
  if aborted = 0 ∨ (drain ∧ r.ends = []) then s
  else
    let max := ((s.pr .part p 0x3C0).extractLsb' 4 3).toNat
    let s := s.bump .clu c 0x40C aborted
    if max ≤ r.reissues then
      (s.logicRec 0 (c * 16 + t) c sevContained).gangFault p g 0x0011 (engineId (s.rankOf p c) 5 t) r.image
    else
      let s := s.bump .clu c 0x408 aborted
      let r' : TileRun := match (if drain then none else r.ends.getLast?) with
        | some e =>
          { r with
            issued := e.pass, elapsed := 0, loaded := false, shadow := Shadow.zero, reissues := r.reissues + 1
            acc := if e.inside then e.acc else [] }
        | none =>
          { r with
            issued := r.committed, elapsed := 0, loaded := false, shadow := Shadow.zero, ends := []
            reissues := r.reissues + 1, acc := s.restartAcc p g c t sh }
      s.setGang p (some (g.setTile c t r'))

/-- Whether a tile has done its share and committed it. -/
def State.tileDone (s : State) (g : GangOp) (c t : Nat) : Bool :=
  match s.tileShard g.lrec c t with
  | none => true
  | some sh =>
    let r := g.tile c t
    r.ends.isEmpty && !r.stepOpen && (g.lrec.place sh r.committed).isNone

/-- Whether a tile stands at a committed step end. -/
def State.tileStill (_s : State) (g : GangOp) (c t : Nat) : Bool :=
  let r := g.tile c t
  r.ends.isEmpty && !r.stepOpen

/-! ## The close of an array operation (R112–R115, R139, R140) -/

/-- One partial-sum addition of the tree (R113). -/
def LRec.treeAdd (l : LRec) (a b : BitVec 64) : BitVec 64 :=
  if l.intClass then a + b else (add32 (a.truncate 32) (b.truncate 32)).zeroExtend 64

/-- The tree's result for one output, with whether its final integer sum saturated (R112, R113). -/
def LRec.reduce (l : LRec) (res : SMap (BitVec 64)) (v n : Nat) : BitVec 64 × Bool :=
  let x := tree l.treeAdd 0 ((List.range (max 1 l.kS)).map fun ki =>
    res.get 0 (l.resKey ki v n))
  if l.intClass && l.kS ≠ 1 then
    if accBound < x.toInt then (BitVec.ofInt 64 accBound, true)
    else if x.toInt < -accBound then (BitVec.ofInt 64 (-accBound), true)
    else (x, false)
  else (x, false)

/-- The operands that an array operation's close writes: C, and D of ROTARY_KV. DEDUCED: assumption 75. -/
def LRec.closeWrites (l : LRec) : List (Nat × Nat) :=
  if l.kS = 1 ∧ l.elementwise then [] else l.extent 2 ++ (if l.epi = 7 then l.extent 3 else [])

/-- Finish the outputs that waited for the close. -/
def State.finishResults (s : State) (g : GangOp) : State :=
  let l := g.lrec
  if l.kS = 1 ∧ l.elementwise then s
  else
    (List.range (l.shape.outer * l.shape.m)).foldl (fun s v =>
      let o := v / l.shape.m
      let m := v % l.shape.m
      let xs := (List.range l.shape.n).map fun n => l.reduce g.results v n
      let s := (List.range l.shape.n).foldl (fun s n =>
        if (xs.getD n (0, false)).2 then s.bump .clu (s.columnCluster l v n) 0x248 else s) s
      let accs := xs.map (·.1)
      let s := s.epiRow l v 0 (partLens ((List.range l.shape.n).map fun n => s.columnCluster l v n))
      if l.elementwise then
        let cs := (List.range accs.length).map fun n =>
          l.toOut (l.position o m n) (s.epiVal l o m n (accs.getD n 0))
        (s.putRow l 0 o m 0 cs).countRow l v cs
      else s.finishRow l o m accs) s

end Sys2Proof.Machine
end

