-- ==== Sys2Proof/Machine/Vector.lean ====
section
/-! DEFINITION. Vector operations (R141–R144) and compare-and-count (R145–R147), with the steps of their engines
(R152, R156). -/

namespace Sys2Proof.Machine

/-! ## Parameters (R465) -/

def LRec.vOut (l : LRec) : Nat := l.subF 8 8
def LRec.vCvt (l : LRec) : Nat := l.subF 0 8
def LRec.vParam (l : LRec) : BitVec 32 := BitVec.ofNat 32 (l.immF 32 32)
def LRec.vMode (l : LRec) : Nat := l.immF 24 8
def LRec.vSplit (l : LRec) : Nat := l.immF 16 8
def LRec.vFmtA (l : LRec) : Nat := l.immF 8 8
def LRec.vFmtB (l : LRec) : Nat := l.immF 0 8
def LRec.vFmtD (l : LRec) : Nat := l.paramF 1 56 8
def LRec.vAxis (l : LRec) : Nat := l.paramF 1 54 2
def LRec.vPos (l : LRec) : Nat := l.paramF 1 32 16
def LRec.vStream (l : LRec) : BitVec 32 := BitVec.ofNat 32 (l.paramF 1 0 32)
def LRec.vSeed (l : LRec) : BitVec 128 := l.param 3 ++ l.param 2
def LRec.vCount (l : LRec) : Nat := l.paramF 0 24 40 + 1
def LRec.vLen (l : LRec) : Nat := l.paramF 0 0 24 + 1

/-! ## Operands -/

/-- Element `i` of a vector operand of format byte `fmt` at `addr`, widened to FP32 (R73); with MX, its scale byte is
at `scale`, one per 32 elements of each row of `len`. -/
def State.vElem (s : State) (fmt addr len : Nat) (scale : Option Nat) (i : Nat) : Fl :=
  let code := fmtCode fmt
  let w := elemBits code
  let x := elemVal code (s.padBits addr (i * w) w)
  match scale with
  | some sc => scaled code (s.padByte (sc + i / len * ((len + 31) / 32) + i % len / 32)).toNat x
  | none => x

/-- Operand `k` of a vector record, by element. -/
def State.vOpnd (s : State) (l : LRec) (k fmt i : Nat) : BitVec 32 :=
  let sc := if fmtMx fmt then ((l.opnd k).bind (·.scale)).map (·.toNat) else none
  f32 (s.vElem fmt (l.addr k) l.vLen sc i)

/-- The rounding mode of element `q` of a vector operation. -/
def LRec.vRound (l : LRec) (q : Nat) : RMode := modeOf l.vCvt l.vSeed l.vStream q

/-- Convert element `q` of C (R72, R74). -/
def LRec.vConv (l : LRec) (q : Nat) (x : Fl) : Conv :=
  convElem (fmtCode l.vOut) (l.vRound q) (l.vCvt / 4 % 2 == 1) x

/-! ## VEC_MAP (R141) -/

def vecMap (op : Nat) (a b c : BitVec 32) : BitVec 32 :=
  match op with
  | 0x00 => a
  | 0x01 => add32 a b
  | 0x02 => sub32 a b
  | 0x03 => mul32 a b
  | 0x04 => fma32 a b c
  | 0x05 => max32 a b
  | 0x06 => min32 a b
  | 0x07 => if (v32 a).isNan then nan32 else a &&& 0x7FFFFFFF
  | 0x08 => if (v32 a).isNan then nan32 else a ^^^ 0x80000000
  | 0x09 => max32 a 0
  | 0x0A => if (v32 a).isZero then c else b
  | 0x0B => recip32 a
  | 0x0C => rsqrt32 a
  | op => transc32 op a

/-- Cost units per element (R141); one per element where the table of R142 gives none. DEDUCED: assumption 78. -/
def LRec.vCost (l : LRec) : Nat :=
  if l.opcode ≠ 0x20 then 1
  else match l.vMode with
    | 0x0B => 4
    | 0x0C => 4
    | 0x0D => 4
    | 0x0E => 4
    | 0x0F => 4
    | 0x10 => 5
    | 0x11 => 6
    | 0x12 => 8
    | _ => 1

/-! ## Rows (R142) -/

/-- The lengths of a row's parts under ROW_SPLIT. DEDUCED: assumption 78. -/
def LRec.rowParts (l : LRec) : List Nat := (List.range (max 1 l.vSplit)).map fun i => (cutRange l.vLen (max 1 l.vSplit) i).2

/-- The index of the largest value of a row, the lowest on a tie; NaN ranks above every number (R142). -/
def argmax (xs : List (BitVec 32)) : Nat :=
  let better (a b : BitVec 32) : Bool :=
    if (v32 a).isNan then false else if (v32 b).isNan then true else (v32 a).lt (v32 b)
  ((List.range xs.length).foldl (fun best i => if better (xs.getD best 0) (xs.getD i 0) then i else best) 0)

/-- One row's reduction (R142). -/
def LRec.reduceRow (l : LRec) (xs : List (BitVec 32)) : BitVec 32 :=
  let parts := cutList l.rowParts xs
  match l.vMode with
  | 0 => rowReduce add32 0 parts
  | 1 => rowReduce add32 0 (cutList l.rowParts (xs.map fun x => mul32 x x))
  | 2 => div32 (rowReduce add32 0 parts) (natF32 l.vLen)
  | 3 => rowReduce max32 negInf32 parts
  | _ => rowReduce min32 0x7F800000 parts

/-- One row of VEC_NORM (R142). DEDUCED: assumption 78. -/
def LRec.normRow (l : LRec) (xs gains biases : List (BitVec 32)) : List (BitVec 32) :=
  let n := natF32 l.vLen
  let sum (ys : List (BitVec 32)) : BitVec 32 := rowReduce add32 0 (cutList l.rowParts ys)
  let mean := div32 (sum xs) n
  let ys := if l.vMode = 0 then xs else xs.map fun x => sub32 x mean
  let var := div32 (sum (ys.map fun y => mul32 y y)) n
  let k := rsqrt32 (add32 var l.vParam)
  (List.range ys.length).map fun i =>
    let y := mul32 (ys.getD i 0) k
    let y := if l.has 1 then mul32 y (gains.getD i 0) else y
    if l.vMode ≠ 0 && l.has 3 then add32 y (biases.getD i 0) else y

/-- A whole row's outputs for VEC_NORM and VEC_SOFTMAX. -/
def State.rowOut (s : State) (l : LRec) (row : Nat) : List (BitVec 32) :=
  let xs := (List.range l.vLen).map fun i => s.vOpnd l 0 l.vFmtA (row * l.vLen + i)
  if l.opcode = 0x22 then
    l.normRow xs ((List.range l.vLen).map fun i => s.vOpnd l 1 l.vFmtB i)
      ((List.range l.vLen).map fun i => s.vOpnd l 3 l.vFmtD i)
  else softmaxRow l.rowParts (l.vPos + row + 1) (xs.map fun x => mul32 l.vParam x)

/-! ## MX output of VEC_CONVERT (R75, R143) -/

/-- The elements of MX block `b` in the order of the scales: along rows, or across 32 rows at one position. -/
def LRec.mxBlock (l : LRec) (b : Nat) : List Nat :=
  if l.vAxis = 0 then
    let per := (l.vLen + 31) / 32
    let row := b / per
    (List.range (min 32 (l.vLen - b % per * 32))).map fun i => row * l.vLen + b % per * 32 + i
  else
    let rows := l.vCount / l.vLen
    let g := b / l.vLen
    (List.range (min 32 (rows - g * 32))).map fun i => (g * 32 + i) * l.vLen + b % l.vLen

/-- The number of MX blocks of C. -/
def LRec.mxBlocks (l : LRec) : Nat :=
  let rows := l.vCount / l.vLen
  if l.vAxis = 0 then rows * ((l.vLen + 31) / 32) else (rows + 31) / 32 * l.vLen

/-- Element `i` of VEC_CONVERT's input: its MX scales are operand B's buffer. -/
def State.convIn (s : State) (l : LRec) (i : Nat) : Fl :=
  s.vElem l.vFmtA (l.addr 0) l.vLen (if fmtMx l.vFmtA then some (l.addr 1) else none) i

/-- Convert and write one MX block: its scale byte and its elements. -/
def State.putMxBlock (s : State) (l : LRec) (b : Nat) : State × Shadow :=
  let code := fmtCode l.vOut
  let is := l.mxBlock b
  let xs := is.map (s.convIn l)
  let e := mxScale code xs
  let cs := (is.zip xs).map fun x => (x.1, mxElem code e (l.vRound x.1) x.2)
  let s := s.bankWrite (l.addr 3 + b) [BitVec.ofNat 8 e]
  let sh : Shadow := { Shadow.zero with nfOut := if e = 0xFF then 1 else 0 }
  (cs.foldl (fun s c => s.padPut (l.addr 2) (c.1 * elemBits code) (elemBits code) [c.2.bits]) s,
    cs.foldl (fun sh c => sh.conv c.2) sh)

/-! ## What a vector engine writes at a commit (R156) -/

/-- The value of element `q` of C, for the operations that work element by element. -/
def State.vecElem (s : State) (l : LRec) (q : Nat) : Conv :=
  match l.opcode.toNat with
  | 0x20 =>
    l.vConv q (v32 (vecMap l.vMode (s.vOpnd l 0 l.vFmtA q) (if l.has 1 then s.vOpnd l 1 l.vFmtB q else 0)
      (if l.has 3 then s.vOpnd l 3 l.vFmtD q else 0)))
  | 0x24 => l.vConv q (s.convIn l q)
  | _ =>
    let w := currant l.vSeed l.vStream (q / 4)
    l.vConv q (.num false (w.extractLsb' (32 * (q % 4) + 8) 24).toNat (-24))

/-- round(p × 65,536), p in 0–1, to nearest with ties to even (R144). -/
def keepLevel (p : BitVec 32) : Nat :=
  match v32 p with
  | .num false m e => toQuantum .nearest m (e + 16) 0
  | _ => 0

/-- Write elements `q0` up to `q1` of C. -/
def State.vecWrite (s : State) (l : LRec) (q0 q1 : Nat) : State × Shadow :=
  if l.opcode = 0x25 ∧ l.vMode = 0 then
    ((List.range (q1 - q0)).foldl (fun s i =>
      s.bankWrite (l.addr 2 + 16 * (q0 + i)) (leBytes 16 (currant l.vSeed l.vStream (q0 + i)).toNat)) s, Shadow.zero)
  else if l.opcode = 0x25 ∧ l.vMode = 2 then
    let lvl := keepLevel l.vParam
    (s.padPut (l.addr 2) q0 1
      ((List.range (q1 - q0)).map fun i => if draw16 l.vSeed l.vStream (q0 + i) < lvl then 1 else 0), Shadow.zero)
  else
    let cs := (List.range (q1 - q0)).map fun i => s.vecElem l (q0 + i)
    let w := elemBits (fmtCode l.vOut)
    (s.padPut (l.addr 2) (q0 * w) w (cs.map (·.bits)), cs.foldl Shadow.conv Shadow.zero)

/-- Whether the operation's outputs wait for the close: row operations, and conversions that form MX blocks.
DEDUCED: assumption 78. -/
def LRec.vAtClose (l : LRec) : Bool :=
  (decide (0x21 ≤ l.opcode.toNat ∧ l.opcode.toNat ≤ 0x23)) || (l.opcode == 0x24 && fmtMx l.vOut)

/-- The elements that the operation's engines step through: those of C, or of A for a reduction. -/
def LRec.vWork (l : LRec) : Nat := if l.opcode = 0x21 then l.vCount * l.vLen else l.vCount

/-- The share of the cluster of rank `r` among `n`: ranges of whole 512-element lane groups, cut as R650 cuts.
DEDUCED: assumption 78. -/
def LRec.vShare (l : LRec) (n r : Nat) : Nat × Nat :=
  let x := cutRange ((l.vWork + 511) / 512) n r
  (x.1 * 512, min l.vWork ((x.1 + x.2) * 512) - x.1 * 512)

/-- Elements of one step: at most 3,000 CLK_A of 512 cost units (R152). -/
def LRec.vStep (l : LRec) : Nat := 3000 / l.vCost * 512

/-- The Currant outputs that elements `q0` up to `q1` of C draw (R76, R144). -/
def LRec.vDraws (l : LRec) (q0 q1 : Nat) : Nat :=
  let own := if l.opcode ≠ 0x25 ∨ q1 ≤ q0 then 0
    else match l.vMode with
      | 0 => q1 - q0
      | 1 => (q1 - 1) / 4 - q0 / 4 + 1
      | _ => draws q0 q1
  let conv := l.vCvt % 4 == 2 && !(l.opcode == 0x25 && l.vMode != 1)
  own + if conv then draws q0 q1 else 0

/-- The outputs that waited for the close, with the row's counts in the cluster of rank 0 on. -/
def State.vecClose (s : State) (l : LRec) (c : Nat) : State :=
  let s := s.vecCount c 0 0 (l.vDraws 0 (if l.opcode = 0x21 ∧ l.vMode = 5 then 0 else l.vCount))
  if l.opcode = 0x21 then
    (List.range l.vCount).foldl (fun s row =>
      let xs := (List.range l.vLen).map fun i => s.vOpnd l 0 l.vFmtA (row * l.vLen + i)
      if l.vMode = 5 then s.bankWrite (l.addr 2 + 4 * row) (leBytes 4 (argmax xs))
      else
        let w := elemBits (fmtCode l.vOut)
        let k := l.vConv row (v32 (l.reduceRow xs))
        (s.padPut (l.addr 2) (row * w) w [k.bits]).commitShadow c none (Shadow.zero.conv k)) s
  else if l.opcode = 0x24 then
    (List.range l.mxBlocks).foldl (fun s b =>
      let x := s.putMxBlock l b
      x.1.commitShadow c none x.2) s
  else
    (List.range (l.vCount / l.vLen)).foldl (fun s row =>
      let ys := s.rowOut l row
      let w := elemBits (fmtCode l.vOut)
      let cs := (List.range ys.length).map fun i => l.vConv (row * l.vLen + i) (v32 (ys.getD i 0))
      (s.padPut (l.addr 2) (row * l.vLen * w) w (cs.map (·.bits))).commitShadow c none
        (cs.foldl Shadow.conv Shadow.zero)) s

/-- The ranges of operand `k` that elements `q0` up to `q1` lie in. -/
def LRec.vRange (l : LRec) (k fmt q0 q1 : Nat) : Nat × Nat :=
  let w := elemBits (fmtCode fmt)
  (l.addr k + q0 * w / 8, (q1 * w + 7) / 8 - q0 * w / 8)

/-- Whether a step of a vector engine reads a poisoned word (R543). -/
def State.vecPoison (s : State) (l : LRec) (q0 q1 : Nat) : Option (Nat × Nat) :=
  let rs := (if l.has 0 then [l.vRange 0 l.vFmtA q0 q1] else []) ++
    (if l.has 1 && l.opcode == 0x20 then [l.vRange 1 l.vFmtB q0 q1] else []) ++
    (if l.has 3 && l.opcode == 0x20 then [l.vRange 3 l.vFmtD q0 q1] else [])
  rs.find? fun r => s.poisoned r.1 r.2

/-- The bytes that the commit of a vector engine's step writes: its elements of C, and the carry slot at `carry`. -/
def LRec.vWrites (l : LRec) (q0 q1 carry : Nat) : List (Nat × Nat) :=
  let out : List (Nat × Nat) :=
    if l.vAtClose then []
    else if l.opcode = 0x25 ∧ l.vMode = 0 then [(l.addr 2 + 16 * q0, 16 * (q1 - q0))]
    else [bitRange (l.addr 2) q0 (q1 - q0) (if l.opcode = 0x25 ∧ l.vMode = 2 then 1 else elemBits (fmtCode l.vOut))]
  out ++ [(carry, 0x1000)]

/-- VEC_MAP (R141). -/
def execVecMap (r : RecRef) (s : State) : Out := .next <| s.start r 0x20 fun l s => s.issueGang l

/-- VEC_REDUCE (R142). -/
def execVecReduce (r : RecRef) (s : State) : Out := .next <| s.start r 0x21 fun l s => s.issueGang l

/-- VEC_NORM (R142). -/
def execVecNorm (r : RecRef) (s : State) : Out := .next <| s.start r 0x22 fun l s => s.issueGang l

/-- VEC_SOFTMAX (R142). -/
def execVecSoftmax (r : RecRef) (s : State) : Out := .next <| s.start r 0x23 fun l s => s.issueGang l

/-- VEC_CONVERT (R143). -/
def execVecConvert (r : RecRef) (s : State) : Out := .next <| s.start r 0x24 fun l s => s.issueGang l

/-- VEC_RANDOM (R144). -/
def execVecRandom (r : RecRef) (s : State) : Out := .next <| s.start r 0x25 fun l s => s.issueGang l

/-- CMP_COUNT (R145, R146). -/
def execCmpCount (r : RecRef) (s : State) : Out := .next <| s.start r 0x30 fun l s => s.issueGang l

/-! ## Steps of a vector engine -/

def GangOp.vec (g : GangOp) (c : Nat) : UnitRun := g.vecs.get UnitRun.init c
def GangOp.cmp (g : GangOp) (b : Nat) : UnitRun := g.cmps.get UnitRun.init b

/-- The vector carry slot of a cluster's rank and step parity (R149). DESIGN CHOICE: assumption 77. -/
def State.carryAddr (s : State) (l : LRec) (c parity : Nat) : Nat :=
  l.area.toNat + s.gangSize l.part * 0x40000 + s.rankOf l.part c * 0x2000 + parity * 0x1000

/-- Write open bytes: what a carry slot holds is not given. -/
def State.writeOpen (s : State) (addr n : Nat) : State :=
  (List.range n).foldl (fun s i =>
    let (v, s) := s.free
    s.bankWrite (addr + i) [v.truncate 8]) s

/-- Whether a cluster's vector engine has more of its share to do. -/
def State.vecMore (s : State) (g : GangOp) (c : Nat) : Bool :=
  let l := g.lrec
  decide (0x20 ≤ l.opcode.toNat ∧ l.opcode.toNat < 0x30) &&
    decide ((g.vec c).done < (l.vShare (s.clustersOf l.part).length (s.rankOf l.part c)).2)

/-- Commit a step of a vector engine (R155, R156). -/
def State.commitVec (s : State) (p : Nat) (g : GangOp) (c : Nat) : State :=
  let l := g.lrec
  if !s.vecMore g c then s
  else
    let r := g.vec c
    let sh := l.vShare (s.clustersOf p).length (s.rankOf p c)
    let q0 := sh.1 + r.done
    let q1 := min (sh.1 + sh.2) (q0 + l.vStep)
    match s.vecPoison l q0 q1 with
    | some a => (s.notePoison a.1 a.2).gangFault p g 0x001D (engineId (s.rankOf p c) 1 0) r.image (some (s.poisonAt a.1 a.2))
    | none => match s.gangBarred l (l.vWrites q0 q1 (s.carryAddr l c (r.steps % 2))) with
    | some a => s.gangRefuse p g (engineId (s.rankOf p c) 1 0) r.image a
    | none =>
      let x := if l.vAtClose then (s, Shadow.zero) else s.vecWrite l q0 q1
      let s := x.1.writeOpen (s.carryAddr l c (r.steps % 2)) 0x1000
      let r' := { r with done := r.done + (q1 - q0), steps := r.steps + 1, reissues := 0 }
      let s := s.setGang p (some { g with vecs := g.vecs.put UnitRun.init c r' })
      let s := (s.bump64 .clu c 0x400 1).commitShadow c none x.2
      let s := s.vecCount c ((q1 - q0) * l.vCost) 0 (if l.vAtClose then 0 else l.vDraws q0 q1)
      let s := if 0 < r.reissues then s.logicRec 1 c c sevCorrected else s
      s.applyClears p

/-! ## Compare-and-count -/

def LRec.cType (l : LRec) : Nat := l.subF 12 4
def LRec.cPred (l : LRec) : Nat := l.subF 9 3
def LRec.cPerRow (l : LRec) : Bool := l.sub.getLsbD 8
def LRec.scanCount (l : LRec) : Nat := l.paramF 2 24 40 + 1
def LRec.scanLen (l : LRec) : Nat := l.paramF 2 0 24 + 1
/-- An element's bytes. -/
def LRec.cSize (l : LRec) : Nat :=
  match l.cType with
  | 0 => 1
  | 1 => 1
  | 2 => 2
  | 3 => 2
  | 4 => 4
  | 5 => 4
  | 6 => 8
  | 7 => 8
  | _ => 4

/-- Whether an element matches (R145): `v` is its bits, `k0` and `k1` the keys. -/
def cmpMatch (type pred v : Nat) (k0 k1 : BitVec 64) : Bool :=
  if type = 8 then
    let x := v32 (BitVec.ofNat 32 v)
    let a := v32 (k0.truncate 32)
    let b := v32 (k1.truncate 32)
    match pred with
    | 0 => x.eq a
    | 1 => x.isNan || !x.eq a
    | 2 => x.lt a
    | 3 => x.lt a || x.eq a
    | 4 => a.lt x
    | 5 => a.lt x || x.eq a
    | 6 => (a.lt x || x.eq a) && x.lt b
    | _ => false
  else
    let bits := 8 * 2 ^ (type / 2)
    let val (n : Nat) : Int := if type % 2 = 0 then signedOf bits n else (n % 2 ^ bits : Nat)
    let key (k : BitVec 64) : Int := if type % 2 = 0 then k.toInt else k.toNat
    let x := val v
    match pred with
    | 0 => x = key k0
    | 1 => x ≠ key k0
    | 2 => x < key k0
    | 3 => x ≤ key k0
    | 4 => key k0 < x
    | 5 => key k0 ≤ x
    | 6 => key k0 ≤ x ∧ x < key k1
    | _ => BitVec.ofInt 64 x &&& k1 == k0

/-- The part of A that lies in bank `b`: first and end addresses. -/
def LRec.cBank (l : LRec) (b : Nat) : Nat × Nat :=
  (max (l.addr 0) (b * 0x20000), min (l.addr 0 + l.scanCount * l.cSize) ((b + 1) * 0x20000))

/-- The rows of bank `b` that A falls in. -/
def LRec.cRows (l : LRec) (b : Nat) : Nat :=
  let r := l.cBank b
  if r.2 ≤ r.1 then 0 else (r.2 - 1) / 128 - r.1 / 128 + 1

/-- Commit a step of a compare-and-count unit: at most 187 rows (R152, R156). -/
def State.commitCmp (s : State) (p : Nat) (g : GangOp) (c b : Nat) : State :=
  let l := g.lrec
  let r := g.cmp b
  let rows := min 187 (l.cRows b - r.done)
  if l.opcode ≠ 0x30 ∨ rows = 0 then s
  else
    let x := l.cBank b
    let row0 := x.1 / 128 + r.done
    let a0 := max x.1 (row0 * 128)
    let a1 := min x.2 ((row0 + rows) * 128)
    if s.poisoned a0 (a1 - a0) then
      (s.notePoison a0 (a1 - a0)).gangFault p g 0x001D (engineId (s.rankOf p c) 3 0) r.image
        (some (s.poisonAt a0 (a1 - a0)))
    else
      let base := l.addr 0
      let sz := l.cSize
      let i0 := (a0 - base + sz - 1) / sz
      let i1 := (a1 - base + sz - 1) / sz
      match s.gangBarred l (if l.has 3 then [bitRange (l.addr 3) i0 (i1 - i0) 1] else []) with
      | some a => s.gangRefuse p g (engineId (s.rankOf p c) 3 0) r.image a
      | none =>
      let hit (i : Nat) : Bool :=
        cmpMatch l.cType l.cPred (leVal (s.padRead (base + i * sz) sz)) (l.param 0) (l.param 1)
      let hits := (List.range (i1 - i0)).map fun j => (i0 + j, hit (i0 + j))
      let counts := hits.foldl (fun m h =>
        if h.2 then m.modify 0 (if l.cPerRow then h.1 / l.scanLen else 0) (· + 1) else m) r.counts
      let s := if l.has 3 then s.padPut (l.addr 3) i0 1 (hits.map fun h => h.2.toNat) else s
      let r' := { r with done := r.done + rows, steps := r.steps + 1, reissues := 0, counts := counts }
      let s := s.setGang p (some { g with cmps := g.cmps.put UnitRun.init b r' })
      let s := s.bump64 .clu c 0x400 1
      let s := if 0 < r.reissues then s.logicRec 1 c c sevCorrected else s
      s.applyClears p

/-- Write the counts of a CMP_COUNT at its close (R146). -/
def State.cmpClose (s : State) (g : GangOp) : State :=
  let l := g.lrec
  let n := if l.cPerRow then (l.scanCount + l.scanLen - 1) / l.scanLen else 1
  (List.range n).foldl (fun s i =>
    s.bankWrite (l.addr 2 + 8 * i) (leBytes 8 ((g.cmps.map fun e => e.2.counts.get 0 i).foldl (· + ·) 0))) s

/-- Whether a cluster's vector engine and compare-and-count units have done their shares. -/
def State.unitsDone (s : State) (g : GangOp) (c : Nat) : Bool :=
  !s.vecMore g c &&
  (g.lrec.opcode ≠ 0x30 || (List.range 1024).all fun i => decide (g.lrec.cRows (c * 1024 + i) ≤ (g.cmp (c * 1024 + i)).done))

end Sys2Proof.Machine
end

