-- ==== Sys2Proof/Machine/Gang.lean ====
section
/-! DEFINITION. The gang rows beyond issue: step commits and restarts, the barrier, its watchdog, parking and
resuming (R21, R22, R110–R118, R153–R167). -/

namespace Sys2Proof.Machine

/-- The partition and operation that a cluster's engines run. -/
def State.clusterGang (s : State) (c : Nat) : Option (Nat × GangOp) :=
  match s.clusterOwner c with
  | some p => (s.gangOf p.val).map fun g => (p.val, g)
  | none => none

/-- STEP_COMMIT (R153–R156): the oldest ended step of an engine instance has landed. DEDUCED: assumption 80. -/
def execStepCommit (c : Fin 64) (u : GangUnit) (s : State) : Out :=
  if s.clkStopped c.val then .next s
  else match s.clusterGang c.val with
  | none => .next s
  | some (p, g) => match u with
    | .tile t => match s.tileShard g.lrec c.val t.val with
      | some sh => .next (s.commitTile p g c.val t.val sh)
      | none => .next s
    | .vec => .next (if g.arrived.contains c.val then s else s.commitVec p g c.val)
    | .cmp b => .next (if g.arrived.contains c.val then s else s.commitCmp p g c.val (c.val * 1024 + b.val))

/-- Reissue the step of a vector engine or compare-and-count unit (R157, R160). -/
def State.restartUnit (s : State) (p : Nat) (g : GangOp) (c : Nat) (kind : Nat) (r : UnitRun) (put : UnitRun → GangOp) :
    State :=
  let max := ((s.pr .part p 0x3C0).extractLsb' 4 3).toNat
  let s := s.bump .clu c 0x40C
  if max ≤ r.reissues then
    (s.logicRec 1 c c sevContained).gangFault p g 0x0011 (engineId (s.rankOf p c) kind 0) r.image
  else (s.bump .clu c 0x408).setGang p (some (put { r with reissues := r.reissues + 1 }))

/-- STEP_RESTART (R157–R160): a restartable fault inside an engine instance; `drain` says that it is in the drain of
the oldest ended step. -/
def execStepRestart (c : Fin 64) (u : GangUnit) (drain : Bool) (s : State) : Out :=
  match s.clusterGang c.val with
  | none => .next s
  | some (p, g) => match u with
    | .tile t => match s.tileShard g.lrec c.val t.val with
      | some sh => .next (s.restartTile p g c.val t.val sh drain)
      | none => .next s
    | .vec =>
      if s.vecMore g c.val then
        .next ((s.bump .vec c.val 0x58).restartUnit p g c.val 1 (g.vec c.val)
          fun r => { g with vecs := g.vecs.put UnitRun.init c.val r })
      else .next s
    | .cmp b =>
      let k := c.val * 1024 + b.val
      if g.lrec.opcode = 0x30 ∧ (g.cmp k).done < g.lrec.cRows k then
        .next (s.restartUnit p g c.val 3 (g.cmp k) fun r => { g with cmps := g.cmps.put UnitRun.init k r })
      else .next s

/-- Whether every engine of a cluster has done its share of an operation, all of it committed (R114). -/
def State.clusterDone (s : State) (g : GangOp) (c : Nat) : Bool :=
  (!g.lrec.isArray || (List.range 16).all fun t => s.tileDone g c t) && s.unitsDone g c

/-- Whether every engine of a cluster stands at a committed step end. -/
def State.clusterStill (s : State) (g : GangOp) (c : Nat) : Bool :=
  (List.range 16).all fun t => s.tileStill g c t

/-- BARRIER_ARRIVE (R114): a cluster arrives when its share is done, or stands at a step end of a stopping
operation. -/
def execBarrierArrive (c : Fin 64) (s : State) : Out :=
  match s.clusterGang c.val with
  | none => .next s
  | some (p, g) =>
    if g.arrived.contains c.val || !(s.clusterDone g c.val || (g.stop.isSome && s.clusterStill g c.val)) then .next s
    else
      .next (s.setGang p (some { g with
        arrived := g.arrived ++ [c.val]
        firstArrival := some (g.firstArrival.getD s.sys.time) }))

/-- Whether every cluster of the partition has arrived. -/
def State.allArrived (s : State) (p : Nat) (g : GangOp) : Bool :=
  (s.clustersOf p).all fun c => g.arrived.contains c

/-- Close an operation that has completed (R112–R114, R129): `cycles` are the CLK_A of its boundary.
A staged step configuration takes effect there (R169). -/
def State.closeGang (s : State) (p : Nat) (g : GangOp) (cycles : Nat) : State :=
  let l := g.lrec
  let s := if l.isArray then s.finishResults g
    else if l.opcode = 0x30 then s.cmpClose g
    else if l.vAtClose then s.vecClose l ((s.clustersOf p).headD 0)
    else s
  let s := (s.clustersOf p).foldl (fun s c => (s.bump64 .clu c 0x340 cycles).bump64 .clu c 0x348 1) s
  let s := (s.bump64 .part p 0x390 cycles).bump64 .part p 0x398 1
  (((s.setGang p none).endFlight l.ref true).applyClears p).safePoint ⟨.part, p⟩ 1

/-- The partition's effective array frequency (R18, R603): its slowest region's; 0 with no clusters. -/
def State.partMhz (s : State) (p : Nat) : Nat :=
  match (s.clustersOf p).map fun c => (s.regionOf (regionOfCluster c)).runMhz.toNat with
  | [] => 0
  | f :: fs => fs.foldl min f * (32 - s.pwr.k) / 32

/-- Close an operation that stops (R163, R165, R166): parked, or ended with an abort completion.
PARK_CYCLES takes the CLK_A cycles since the park's request and those of the close.
DEDUCED: assumption 81. -/
def State.parkClose (s : State) (p : Nat) (g : GangOp) (why : GangStop) (cycles : Nat) : State :=
  let s := s.setGang p none
  let g' := { g with arrived := [], firstArrival := none, stop := none }
  let s := match why with
    | .abort => s.endFlight g.lrec.ref false
    | .park => ((s.setParked p (some g')).bump .part p 0x3D4).bump64 .part p 0x3D8
        ((s.sys.time - g.parkAt).toNat * s.partMhz p / 1000 + cycles)
    | .preempt =>
      match (List.range 16).find? fun c => (s.ctxOf p c).st == CtxSt.saving with
      | some c => let x := s.ctxOf p c; s.setCtx p c { x with gangs := x.gangs ++ [g'] }
      | none => s.setParked p (some g')
  (s.applyClears p).safePoint ⟨.part, p⟩ 1

/-- The bytes that the close of an operation writes. -/
def LRec.atClose (l : LRec) : List (Nat × Nat) :=
  if l.isArray then l.closeWrites
  else if l.opcode = 0x30 then l.extent 2
  else if l.vAtClose then l.extent 2 ++ (if fmtMx l.vOut then l.extent 3 else [])
  else []

/-- BARRIER_CLOSE (R114, R118): the root has finished and the release has travelled down.
DESIGN CHOICE: assumption 3. -/
def execBarrierClose (p : Fin 64) (cycles : Nat) (s : State) : Out :=
  match s.gangOf p.val with
  | none => .next s
  | some g =>
    if !s.allArrived p.val g then .next s
    else if (s.clustersOf p.val).all fun c => s.clusterDone g c then
      .next (match s.gangBarred g.lrec g.lrec.atClose with
        | some a => s.gangRefuse p.val g (engineId 0 0 0) 0 a
        | none => s.closeGang p.val g cycles)
    else match g.stop with
      | some why => .next (s.parkClose p.val g why cycles)
      | none => .next s

/-- The watchdog time in ns: ERR.CFG.WDOG ms (R117, R555). DESIGN CHOICE: assumption 5. -/
def State.wdogNs (s : State) : Nat := ((s.pr .err 0 0x40).extractLsb' 24 8).toNat * 1000000

/-- GANG_TIMEOUT (R117): the context has not closed within the watchdog time of its first arrival. The record's
address field names the clusters that had not arrived, one bit per rank. DEDUCED: assumptions 4, 80. -/
def execGangTimeout (p : Fin 64) (s : State) : Out :=
  match s.gangOf p.val with
  | none => .next s
  | some g => match g.firstArrival with
    | none => .next s
    | some t =>
      if t.toNat + s.wdogNs ≤ s.sys.time.toNat then
        let cs := s.clustersOf p.val
        let missing := (List.range cs.length).foldl (fun m i =>
          if g.arrived.contains (cs.getD i 0) then m else m + 2 ^ i) 0
        let s := s.record { ErrRec.mk0 0x0C sevContained (srcOf 3 0) with
          owner := ownerByte (some p), cause := 0x13, detail := BitVec.ofNat 256 missing }
        .next (s.unitFault p.val 0x0013 missing)
      else .next s

/-- PARK (R163): the hot slot holds a ready gang operation, PARK_EN is 1 and the warm operation has run MIN_RUN. -/
def execPark (p : Fin 64) (s : State) : Out :=
  match s.gangOf p.val with
  | none => .next s
  | some g =>
    let cfg := s.pr .part p.val 0x3C0
    let ran := (s.sys.time - g.since).toNat
    if cfg.getLsbD 0 && !g.hot && g.stop.isNone && s.hotReady p.val &&
        decide ((cfg.extractLsb' 16 8).toNat * 1000 ≤ ran) then
      .next (s.setGang p.val (some { g with stop := some .park, parkAt := s.sys.time }))
    else .next s

/-- Reload the accumulator sets of an operation that resumes from their partial slots (R164). -/
def State.reloadAll (s : State) (p : Nat) (g : GangOp) : GangOp :=
  (g.tiles.map (·.1)).foldl (fun g k =>
    let c := k / 16
    let t := k % 16
    match s.tileShard g.lrec c t with
    | some sh => g.setTile c t { g.tile c t with acc := s.restartAcc p g c t sh }
    | none => g) g

/-- PARKED_RESUME (R164): once the hot slot has no ready gang operation; `cycles` are those of the reload.
DEDUCED: assumption 81. -/
def execParkedResume (p : Fin 64) (cycles : Nat) (s : State) : Out :=
  match s.parkedOf p.val with
  | none => .next s
  | some g =>
    if (s.gangOf p.val).isSome || s.hotReady p.val then .next s
    else
      let g' := s.reloadAll p.val { g with since := s.sys.time }
      .next (((s.setParked p.val none).setGang p.val (some g')).bump64 .part p.val 0x3D8 cycles)

end Sys2Proof.Machine
end

