-- ==== Sys2Proof/Machine/Scratch.lean ====
section
/-! DEFINITION. The stacked scratchpad (R171–R212): NoC-port requests, collisions, the bank-owner table,
handover and wipe, spare rows, arrival increments and retention. -/

namespace Sys2Proof.Machine

/-! ## Runnable contexts (R516), as retention needs them (R20) -/

/-- Whether a context's saved engine state holds work that no saved wait blocks (R516). -/
def Ctx.work (x : Ctx) : Bool :=
  !x.gangs.isEmpty || !x.chans.isEmpty || !x.tags.isEmpty || x.flights.any fun f => f.st == .queued

/-- Whether a SAVED context is runnable (R516). -/
def State.ctxRunnable (s : State) (p c : Nat) : Bool :=
  let x := s.ctxOf p c
  x.st == .saved && (x.work ||
    ((List.range 16).any fun q =>
      (x.cfg.extractLsb' 16 16).getLsbD q && (s.queueOf p q).st == .ready &&
      (s.queueOf p q).started ≠ (s.queueOf p q).tail) ||
    (x.waits.any fun w => serialReached (s.countOf w.1.cluster w.1.counter) w.1.target))

/-- Whether a partition has a context that runs or is runnable. -/
def State.partRunnable (s : State) (p : Nat) : Bool :=
  s.configured p && (List.range 16).any fun c => (s.ctxOf p c).st == .running || s.ctxRunnable p c

/-! ## The check at a bank (R30, R180, R181, R189, R203, R207) -/

/-- What the bank-owner table and the tier say of a request. -/
inductive PadGate where
  | ok
  | fault (cause : BitVec 16)
  | heldBank
  | heldTier
deriving DecidableEq, Repr

/-- Whether a record is dispatched and has not ended. DEDUCED: assumption 42. -/
def State.inFlight (s : State) (r : Option RecRef) : Bool :=
  match r with
  | some r => ((s.flight? r).map fun f => !f.st.ended).getD false
  | none => false

/-- The check of one bank for a request. DEDUCED: assumption 42. -/
def State.bankGate (s : State) (q : NocReq) (b : Nat) : PadGate :=
  let e := s.bankOf b
  let who := q.owner.part?
  if s.bankHole b then .fault 0x0004
  else match e.st with
    | .failed => .fault 0x0004
    | .settled =>
      if e.owner ≠ who then .fault 0x0010
      else match s.tierOf (regionOfCluster (bankCluster b)) (bankTier b) with
        | .awake => .ok
        | _ => .heldTier
    | .pending =>
      if e.former ≠ none ∧ e.former = who ∧ s.inFlight q.ref then .ok
      else if e.owner = who then .heldBank else .fault 0x0010
    | .wiping => if e.owner = who then .heldBank else .fault 0x0010

/-- The check of a range of `n` bytes (R203: a window never crosses a tile). -/
def State.padGate (s : State) (q : NocReq) (n : Nat) : PadGate :=
  let a := q.addr.toNat
  if windowOf q.addr ≠ .pad ∨ n = 0 then .fault 0x0004
  else if a / 0x800000 ≠ (a + n - 1) / 0x800000 then .fault 0x0004
  else match s.bankGate q (padBank a) with
    | .ok => if padBank (a + n - 1) = padBank a then .ok else s.bankGate q (padBank (a + n - 1))
    | g => g

/-- A request that no command made and that fails: the partition it was made for takes the fault (R179). -/
def State.failNoc (s : State) (q : NocReq) (cause : BitVec 16) : State :=
  match q.ref with
  | some _ => s.failReq q.ref cause q.addr
  | none => match q.owner with
    | .part p => s.unitFault p.val cause 0
    | .dev => s

/-- Hold a request. A request held for a tier starts a wake, or abandons an entry in progress (R207).
DEDUCED: assumption 48. -/
def State.holdReq (s : State) (q : NocReq) (op : NocOp) (tier : Bool) : State :=
  let s := { s with pad := { s.pad with held := s.pad.held ++ [⟨q, op, s.sys.time⟩] } }
  if tier then
    let c := padCluster q.addr.toNat
    let r := regionOfCluster c
    let t := padTier q.addr.toNat
    let s := s.bump .clu c 0x530
    match s.tierOf r t with
    | .waking _ => s
    | _ => s.setTier r t (.waking (s.sys.time + 6000))
  else s

/-- Count the waits of a request (R205). -/
def State.countWait (s : State) (q : NocReq) (waited : Nat) : State :=
  let s := s.bump .clu (padCluster q.addr.toNat) (0x500 + 4 * q.master.val) waited
  match q.owner with
  | .part p => s.bump64 .part p.val 0x408 waited
  | .dev => s

/-- The partition a request is made for. -/
def nocPart (q : NocReq) : Option Nat :=
  match q.owner with
  | .part p => some p.val
  | .dev => none

/-- The read itself (R178, R203, R543): a poisoned word ends the command that consumes it. DEDUCED: assumption 45. -/
def State.serveRead (s : State) (q : NocReq) (n : Nat) : State :=
  let a := q.addr.toNat
  let s := (s.countRows (nocPart q) a n false).notePoison a n
  let bad := s.poisoned a n
  let s := { s with pad := { s.pad with readData := s.padRead a n } }
  if bad then s.failNoc q 0x001D else s

/-- Whether the increment of a write may be carried (R181, R201): its VID translates to a counter of the cluster
that holds the written bank, and the bank is not lent. -/
def State.incTarget (s : State) (q : NocReq) (i : ArrInc) : Option IncMsg :=
  match q.owner with
  | .dev => none
  | .part p =>
    match s.vid p.val i.vid.toNat with
    | some (c, n) =>
      if c = padCluster q.addr.toNat ∧ s.clusterOwner c = some p then
        some ⟨s.pad.nextId, p.val, c, n, i.amount⟩
      else none
    | none => none

/-- The write itself (R172, R201): every row lands, then the increment leaves. -/
def State.serveWrite (s : State) (q : NocReq) (data : List Byte) (inc : Option ArrInc) : State :=
  let a := q.addr.toNat
  let s := (s.countRows (nocPart q) a data.length true).bankWrite a data
  match inc with
  | none => s
  | some i => match s.incTarget q i with
    | some m => { s with pad := { s.pad with incs := s.pad.incs ++ [m], nextId := s.pad.nextId + 1 } }
    | none => s

/-- Refuse a write with COLLIDE (R178, R179) for the `k`-th time: it is sent again after 64, 128 and 256 CLK_N (32,
64 and 128 ns), and the third retry that collides ends its command. DEDUCED: assumption 43. -/
def State.collide (s : State) (id : Nat) (q : NocReq) (data : List Byte) (inc : Option ArrInc) (k : Nat) : State :=
  let s := s.bump .clu (padCluster q.addr.toNat) 0x520
  let s := match q.owner with
    | .part p => s.bump .part p.val 0x410
    | .dev => s
  if 4 ≤ k then s.failNoc q 0x0015
  else
    let due := s.sys.time + BitVec.ofNat 64 (16 * 2 ^ k)
    { s with pad := { s.pad with retries := s.pad.retries ++ [⟨id, q, data, inc, k, due⟩] } }

/-- Whether the checkpoint scope bars a write (R435). DEDUCED: assumption 72. -/
def State.nocBarred (s : State) (q : NocReq) (n : Nat) : Bool :=
  ((nocPart q).map fun p => s.scopeHit p q.addr.toNat n).getD false

/-- A write at its bank: refused with COLLIDE while the tier port writes the bank, landed otherwise. -/
def State.tryWrite (s : State) (id : Nat) (q : NocReq) (data : List Byte) (inc : Option ArrInc) (tierBusy : Bool)
    (k : Nat) : State :=
  match s.padGate q data.length with
  | .fault c => s.failNoc q c
  | .heldBank => s.holdReq q (.write data inc) false
  | .heldTier => s.holdReq q (.write data inc) true
  | .ok =>
    if (inc.map fun i => (s.incTarget q i).isNone).getD false then s.failNoc q 0x0010
    else if s.nocBarred q data.length then s.scopeRefuse.failNoc q 0x0024
    else if tierBusy then s.collide id q data inc (k + 1)
    else s.serveWrite q data inc

/-- A read at its bank. -/
def State.tryRead (s : State) (q : NocReq) (n : Nat) : State :=
  match s.padGate q n with
  | .fault c => s.failNoc q c
  | .heldBank => s.holdReq q (.read n) false
  | .heldTier => s.holdReq q (.read n) true
  | .ok => s.serveRead q n

/-- Send the held requests again: those still held are held again (R189, R206, R207). DEDUCED: assumption 48. -/
def State.serveHeld (s : State) : State :=
  let hs := s.pad.held
  let s := { s with pad := { s.pad with held := [] } }
  hs.foldl (fun s h =>
    let n := match h.op with
      | .read n => n
      | .write d _ => d.length
    match s.padGate h.req n with
    | .heldBank | .heldTier => { s with pad := { s.pad with held := s.pad.held ++ [h] } }
    | _ => match h.op with
      | .read n => s.tryRead h.req n
      | .write d i => s.tryWrite 0 h.req d i false 0) s

/-- Whether the NOC regulator lets a unit of the requester start (R508), and its charge. -/
def State.nocOpen (s : State) (q : NocReq) : Bool :=
  match q.owner with
  | .part p => s.hasTokens p.val 0
  | .dev => true

def State.nocCharge (s : State) (q : NocReq) : State :=
  match q.owner with
  | .part p => s.charge p.val 0 256
  | .dev => s

/-- NOC_READ (R178). -/
def execNocRead (q : NocReq) (n waited : Nat) (s : State) : Out :=
  if s.nocOpen q then .next (((s.nocCharge q).countWait q waited).tryRead q n) else .next s

/-- NOC_WRITE (R178). DESIGN CHOICE: assumption 3. -/
def execNocWrite (q : NocReq) (data : List Byte) (inc : Option ArrInc) (tierBusy : Bool) (waited : Nat) (s : State) :
    Out :=
  if s.nocOpen q then
    let id := s.pad.nextId
    let s := { (s.nocCharge q).countWait q waited with pad := { ((s.nocCharge q).countWait q waited).pad with
      nextId := id + 1 } }
    .next (s.tryWrite id q data inc tierBusy 0)
  else .next s

/-- COLLIDE_RETRY (R179): the retry delay has passed. -/
def execCollideRetry (id : Nat) (tierBusy : Bool) (s : State) : Out :=
  match s.pad.retries.find? fun r => r.id == id && decide (r.due.toNat ≤ s.sys.time.toNat) with
  | none => .next s
  | some r =>
    let s := { s with pad := { s.pad with retries := s.pad.retries.filter fun r => r.id ≠ id } }
    let s := match r.req.ref.bind s.flight? with
      | some f => if f.lrec.isMover then s.bump .mov (s.moverChan f.lrec / 8) 0x7C else s
      | none => s
    .next (s.tryWrite id r.req r.data r.inc tierBusy r.collided)

/-! ## The bank-owner table (R183–R193) -/

/-- Whether any bank of a cluster is pending or wiping. -/
def State.clusterWipes (s : State) (c : Nat) : Bool :=
  s.pad.bank.any fun e => bankCluster e.1 == c && (e.2.st == .pending || e.2.st == .wiping)

/-- Hand a bank to a new owner (R187 steps 1–3). DEDUCED: assumption 42. -/
def State.handover (s : State) (b : Nat) (new : Option (Fin 64)) : State :=
  let e := s.bankOf b
  let busy := match e.owner with
    | some p => s.bankInUse p.val b
    | none => false
  s.setBank b { e with
    owner := new, former := if busy then e.owner else none, st := if busy then .pending else .wiping }

/-- Log an ownership violation (R185, R191). -/
def State.violation (s : State) (b : Nat) (kind : BitVec 2) (claim : Option (Fin 64)) : State :=
  let c := bankCluster b
  let v : Word := kind.zeroExtend 32 <<< 30 ||| (if claim.isNone then 0x400000 else 0) |||
    (BitVec.ofNat 32 ((claim.map Fin.val).getD 0) <<< 16) ||| BitVec.ofNat 32 (b % 1024)
  let s := (s.bump .bot c 0x48).setPr .bot c 0x58 v
  let s := s.record { ErrRec.mk0 0x0E sevInfo (srcOf 1 c) with
    owner := ownerByte (s.bankOf b).owner, location := BitVec.ofNat 64 (b * 0x20000) }
  s.raise .bot c 4

/-- A handover that R186 refuses: the new partition is not configured, the bank would be lent from a device-owned
cluster (R181), or the quota would be exceeded. -/
def State.refusesBank (s : State) (b : Nat) (p : Fin 64) : Bool :=
  !s.configured p.val || (s.clusterOwner (bankCluster b)).isNone ||
  (decide ((s.bankOf b).owner ≠ some p) &&
    decide ((s.pr .part p.val 0x50).toNat % 2 ^ 17 < s.banksOwned p.val + 1))

/-- Count a refused half (R185, R186), which is logged. -/
def State.botRefuse (s : State) (f : Fn) (b off : Nat) : State :=
  let c := bankCluster b
  (((s.bump .bot c 0x4C).reject f ⟨.bot, c⟩ off 5)).raise .bot c 2

/-- One half of a table write (R184–R186). -/
def State.botHalf (s : State) (f : Fn) (b off : Nat) (h : BitVec 16) : State :=
  if !h.getLsbD 15 then s
  else
    let e := s.bankOf b
    let expect : Option (Fin 64) := if h.getLsbD 14 then none else some (Fin.ofNat 64 (h.extractLsb' 8 6).toNat)
    let new : Option (Fin 64) := if h.getLsbD 7 then none else some (Fin.ofNat 64 (h.extractLsb' 0 6).toNat)
    if s.bankHole b || e.st ≠ .settled then s.botRefuse f b off
    else if e.owner ≠ expect then s.violation b 1 expect
    else match new with
      | none => if e.owner = none then s.bump .bot (bankCluster b) 0x44 else s.handover b none
      | some p => if s.refusesBank b p then s.botRefuse f b off else s.handover b (some p)

/-- The two halves of a table word. -/
def State.botWord (s : State) (f : Fn) (c w : Nat) (v : Word) : State :=
  let b := c * 1024 + 2 * w
  (s.botHalf f b (0x800 + 4 * w) (v.extractLsb' 0 16)).botHalf f (b + 1) (0x800 + 4 * w) (v.extractLsb' 16 16)

/-- BOT_ENTRY_WRITE (R184, R185): a 32-bit write of one table word, or a 64-bit write of an aligned pair, checked
whole before any half acts. -/
def execBotEntryWrite (f : Fn) (c : Fin 64) (w : Fin 512) (wide : Bool) (v : BitVec 64) (s : State) : Out :=
  let off := 0x800 + 4 * w.val
  if wide then
    if w.val % 2 = 1 then
      .next (if s.served f ((PageId.mk .bot c.val).base + off) then s.reject f ⟨.bot, c.val⟩ off 2 else s)
    else match s.openAt f ⟨.bot, c.val⟩ off (v.extractLsb' 0 32) with
      | .error s => .next s
      | .ok _ => match s.openAt f ⟨.bot, c.val⟩ (off + 4) (v.extractLsb' 32 32) with
        | .error s => .next s
        | .ok _ => .next ((s.botWord f c.val w.val (v.extractLsb' 0 32)).botWord f c.val (w.val + 1)
            (v.extractLsb' 32 32))
  else match s.openAt f ⟨.bot, c.val⟩ off (v.extractLsb' 0 32) with
    | .error s => .next s
    | .ok _ => .next (s.botWord f c.val w.val (v.extractLsb' 0 32))

/-- HANDOVER_UNPEND (R187 step 2): the last in-flight command of the former owner that touches the bank ended. -/
def execHandoverUnpend (b : Fin 65536) (s : State) : Out :=
  let e := s.bankOf b.val
  let busy := match e.former with
    | some p => s.bankInUse p.val b.val
    | none => false
  if e.st = .pending ∧ !busy then .next (s.setBank b.val { e with st := .wiping, former := none }) else .next s

/-- The key of a tier's wipe engine. -/
def wipeKey (c t tier : Nat) : Nat := (c * 16 + t) * 4 + tier

/-- WIPE_START (R187 step 4, R188, R190): the lowest waiting bank of the tier; a tier in retention is woken first. -/
def execWipeStart (c : Fin 64) (t : Fin 16) (tier : Fin 4) (s : State) : Out :=
  let k := wipeKey c.val t.val tier.val
  let base := k * 16
  match s.pad.wipe.get none k with
  | some _ => .next s
  | none =>
    match (List.range 16).find? fun i => (s.bankOf (base + i)).st == .wiping with
    | none => .next s
    | some i =>
      let r := regionOfCluster c.val
      match s.tierOf r tier.val with
      | .awake => .next { s with pad := { s.pad with wipe := s.pad.wipe.put none k (some (base + i)) } }
      | .waking _ => .next s
      | _ => .next (s.setTier r tier.val (.waking (s.sys.time + 6000)))

/-- Zero the rows of a bank (R187 step 4). -/
def State.zeroBank (s : State) (b : Nat) : State :=
  { s with pad := { s.pad with
      mem := s.pad.mem.keep fun a _ => padBank a ≠ b
      poison := s.pad.poison.keep fun w _ => w / 0x4000 ≠ b } }

/-- The bank that holds a cluster's tagged slots (R194), as a global index. -/
def State.slotBank (s : State) (c : Nat) : Nat := c * 1024 + (s.pr .clu c 0x53C).toNat % 1024

/-- Set every tag of a cluster EMPTY; every held request receives TAG_TIMEOUT (R198, R199). -/
def State.clearTags (s : State) (c : Nat) : State :=
  let held := s.pad.tagHeld.filter fun t => t.cluster == c
  let s := { s with pad := { s.pad with
      tags := s.pad.tags.keep fun k _ => k / 512 ≠ c
      tagHeld := s.pad.tagHeld.filter fun t => t.cluster ≠ c } }
  held.foldl (fun s t =>
    let s := s.failReq t.req.ref 0x0016 t.req.addr
    match t.req.owner with
    | .part p => s.bump .part p.val 0x41C
    | .dev => s) s

/-- A partition reset ends once every bank has settled (R530). -/
def State.finishReset (s : State) (p : Nat) : State :=
  let x := s.partOf p
  if x.st == .resetting && !(s.pad.bank.any fun e =>
      e.2.owner.map Fin.val == some p && (e.2.st == .pending || e.2.st == .wiping)) then
    (s.setPart p { x with st := .active, unitFault := false }).raise .part p 1
  else s

/-- A bank settles (R187 steps 5 and 6). -/
def State.settleBank (s : State) (b : Nat) : State :=
  let c := bankCluster b
  let s := s.zeroBank b
  let s := { s with err := { s.err with decided := s.err.decided.map fun (e : Nat × Option Bool) =>
    if e.1 / 1024 = b then (e.1, e.2.map fun _ => false) else e } }
  let s := if s.slotBank c = b then s.clearTags c else s
  let s := s.setBank b { s.bankOf b with st := .settled, former := none }
  let s := s.bump64 .bot c 0x50 1
  let s := if s.clusterWipes c then s else s.raise .bot c 1
  let s := match (s.bankOf b).owner with
    | some p => s.finishReset p.val
    | none => s
  s.serveHeld

/-- WIPE_DONE (R187). DEDUCED: assumption 48. -/
def execWipeDone (c : Fin 64) (t : Fin 16) (tier : Fin 4) (s : State) : Out :=
  let k := wipeKey c.val t.val tier.val
  match s.pad.wipe.get none k with
  | none => .next s
  | some b => .next ({ s with pad := { s.pad with wipe := s.pad.wipe.put none k none } }.settleBank b)

/-- One bank of a release (R191, R192). DEDUCED: assumption 136. -/
def State.releaseBank (s : State) (p : Fin 64) (b : Nat) : State :=
  let e := s.bankOf b
  let c := bankCluster b
  if s.bankHole b || e.st = .failed then s.bump .bot c 0x4C
  else if e.st ≠ .settled then s.bump .bot c 0x44
  else if e.owner = none then s.bump .bot c 0x44
  else if e.owner = some p then s.handover b none
  else s.violation b 2 (some p)

/-- BANK_RELEASE (R191): a write of PART.BANK_RELEASE. DEDUCED: assumption 136. -/
def execBankRelease (f : Fn) (p : Fin 64) (v : Word) (s : State) : Out :=
  match s.openAt f ⟨.part, p.val⟩ 0x400 v with
  | .error s => .next s
  | .ok t =>
    let h := s.handleOf p.val (v.toNat % 4096)
    let ok := h.v && h.kind == 0 && h.dev.toNat % 0x20000 == 0 && h.size.toNat % 0x20000 == 0 &&
      !(s.partOf p.val).releaseBusy
    if ok then
      .next ((List.range (h.size.toNat / 0x20000)).foldl
        (fun s i => s.releaseBank p (padBank h.dev.toNat + i)) s)
    else .next (s.rejectState f t)

/-! ## Spare rows (R173–R175, R545, R546) -/

/-- The address of a bank's row in its partition's terms (R470): rank × 128 MiB + offset in the cluster. -/
def State.partAddr (s : State) (p a : Nat) : Nat := s.rankOf p (padCluster a) * 0x8000000 + a % 0x8000000

def State.rowEnt (s : State) (b i : Nat) : RowEnt := s.pad.rowMap.get RowEnt.init (b * 16 + i)

def State.setRowEnt (s : State) (b i : Nat) (e : RowEnt) : State :=
  { s with pad := { s.pad with rowMap := s.pad.rowMap.put RowEnt.init (b * 16 + i) e } }

/-- A unit fault of the owner of a bank for the row at `a` (R39, R545); a device-owned bank faults no partition.
DEDUCED: assumption 46. -/
def State.faultOwner (s : State) (b a : Nat) : State :=
  match (s.bankOf b).owner with
  | some p => s.unitFault p.val 0x001D (s.partAddr p.val a)
  | none => s

/-- The bank has failed (R175). DEDUCED: assumption 46. -/
def State.failBank (s : State) (b : Nat) : State :=
  let owner := (s.bankOf b).owner
  let s := s.record { ErrRec.mk0 0x04 sevContained (srcOf 0 (bankCluster b * 16 + bankTile b)) with
    owner := ownerByte owner, flags := 0x20, location := BitVec.ofNat 64 (b * 0x20000) }
  let s := s.faultOwner b (b * 0x20000)
  let s := s.setBank b ⟨.failed, none, true, none⟩
  { s.zeroBank b with err := { s.err with
      decided := s.err.decided.keep fun k _ => k / 1024 ≠ b
      tracker := s.err.tracker.filter fun e => e.bank ≠ b } }

/-- Map a row out (R174, R175): into a free spare row, as a copy, or as zeros after the owner has faulted.
DEDUCED: assumption 47. -/
def State.mapOut (s : State) (b row : Nat) (zero : Bool) : State :=
  let a := b * 0x20000 + row * 128
  let settled := decide ((s.bankOf b).st = .settled)
  match (List.range 16).find? fun i => !(s.rowEnt b i).used && !(s.rowEnt b i).bad with
  | none => s.failBank b
  | some i =>
    let s := if zero && settled then s.faultOwner b a else s
    let s := match (List.range 16).find? fun j => (s.rowEnt b j).used && (s.rowEnt b j).row.toNat == row with
      | some j => s.setRowEnt b j { s.rowEnt b j with used := false, bad := true }
      | none => s
    let s := { s.setRowEnt b i ⟨true, true, false, BitVec.ofNat 10 row⟩ with err := { s.err with
      decided := s.err.decided.put none (b * 1024 + row) none
      tracker := s.err.tracker.filter fun e => !(e.bank == b && e.row == row) } }
    let s := if zero then s.bankWrite a (List.replicate 128 0) else s
    s.record { ErrRec.mk0 0x03 sevInfo (srcOf 0 (bankCluster b * 16 + bankTile b)) with
      owner := ownerByte (s.bankOf b).owner, flags := 0x20, location := BitVec.ofNat 64 a }

/-- ROW_MAPOUT (R174, R544, R546): a map-out that has been decided waits until the bank is settled, and its copy never
wakes a tier (R208). DEDUCED: assumptions 46, 47. -/
def execRowMapout (b : Fin 65536) (row : Fin 1024) (s : State) : Out :=
  let awake := s.tierOf (regionOfCluster (bankCluster b.val)) (bankTier b.val) == .awake
  match s.err.decided.get none (b.val * 1024 + row.val) with
  | none => .next s
  | some zero =>
    if s.bankHole b.val || (s.bankOf b.val).st ≠ .settled || !awake then .next s
    else .next (s.mapOut b.val row.val zero)

/-! ## Retention (R20, R206–R208) -/

/-- RETENTION_ENTER (R206, R20): no bank of the tier is owned by a partition with a runnable context.
DESIGN CHOICE: assumption 5. -/
def execRetentionEnter (r : Fin 16) (tier : Fin 4) (s : State) : Out :=
  let inTier (b : Nat) : Bool := regionOfCluster (bankCluster b) == r.val && bankTier b == tier.val
  let busy := s.pad.bank.any fun e => inTier e.1 &&
    (e.2.st == .pending || e.2.st == .wiping || (e.2.owner.map fun p => s.partRunnable p.val).getD false)
  match s.tierOf r.val tier.val with
  | .awake => .next (if busy then s else s.setTier r.val tier.val (.entering (s.sys.time + 1000)))
  | _ => .next s

/-- RETENTION_ENTRY_DONE (R206). -/
def execRetentionEntryDone (r : Fin 16) (tier : Fin 4) (s : State) : Out :=
  match s.tierOf r.val tier.val with
  | .entering t => .next (if t.toNat ≤ s.sys.time.toNat then s.setTier r.val tier.val .retained else s)
  | _ => .next s

/-- RETENTION_WAKE (R207): a request to a tier that sleeps, or is entering retention. -/
def execRetentionWake (q : NocReq) (op : NocOp) (s : State) : Out :=
  let n := match op with
    | .read n => n
    | .write d _ => d.length
  match s.padGate q n with
  | .heldTier => .next (s.holdReq q op true)
  | .fault c => .next (s.failNoc q c)
  | _ => .next s

/-- RETENTION_WAKE_DONE (R206, R207). DEDUCED: assumption 48. -/
def execRetentionWakeDone (r : Fin 16) (tier : Fin 4) (s : State) : Out :=
  match s.tierOf r.val tier.val with
  | .waking t => .next (if t.toNat ≤ s.sys.time.toNat then (s.setTier r.val tier.val .awake).serveHeld else s)
  | _ => .next s

end Sys2Proof.Machine
end

