-- ==== Sys2Proof/Machine/Tags.lean ====
section
/-! DEFINITION. Tagged slots (R194–R200): tagged accesses, held requests, TAG_BUSY and timeouts. -/

namespace Sys2Proof.Machine

def State.tagFull (s : State) (c slot : Nat) : Bool := s.pad.tags.get false (c * 512 + slot)

/-- Change a tag; a change restarts the quiet time of the cluster's partition (R299 a). -/
def State.setTag (s : State) (c slot : Nat) (full : Bool) : State :=
  if s.tagFull c slot = full then s
  else
    let s := { s with pad := { s.pad with tags := s.pad.tags.put false (c * 512 + slot) full } }
    match s.clusterOwner c with
    | some p => s.quietRestart p.val
    | none => s

/-- The first row of a cluster's slots in their bank (R194). -/
def State.slotRow0 (s : State) (c : Nat) : Nat := if (s.pr .clu c 0x53C).getLsbD 10 then 512 else 0

/-- The slot that a tagged access names (R195), where its address is that of a slot row and slots are in service. -/
def State.slotAt (s : State) (a : BitVec 64) : Option (Nat × Nat) :=
  let n := a.toNat
  let c := padCluster n
  let r0 := s.slotRow0 c
  if windowOf a = .pad ∧ n % 128 = 0 ∧ (s.pr .clu c 0x53C).getLsbD 11 ∧ padBank n = s.slotBank c ∧
      r0 ≤ padRow n ∧ padRow n < r0 + 512 then some (c, padRow n - r0)
  else none

/-- Whether the tag admits an access (R195). -/
def tagAdmits (full : Bool) : TagOp → Bool
  | .write _ => !full
  | .read => full
  | .peek | .fill _ => true

/-- Serve an admitted tagged access (R195); one that the checkpoint scope bars writes nothing (R435). -/
def State.serveTag (s : State) (t : TagReq) : State :=
  let a := t.req.addr.toNat
  match t.op with
  | .write d | .fill d =>
    if s.nocBarred t.req d.length then s.scopeRefuse.failNoc t.req 0x0024
    else ((s.countRows (nocPart t.req) a d.length true).bankWrite a d).setTag t.cluster t.slot true
  | .read => (s.serveRead t.req 128).setTag t.cluster t.slot false
  | .peek =>
    let full := s.tagFull t.cluster t.slot
    let s := s.serveRead t.req 128
    { s with pad := { s.pad with readTag := full } }

/-- Serve the held requests of a slot in arrival order, one per change of the tag (R196). -/
def State.drainTag (s : State) (c slot : Nat) : Nat → State
  | 0 => s
  | fuel + 1 =>
    match s.pad.tagHeld.find? fun t => t.cluster == c && t.slot == slot && tagAdmits (s.tagFull c slot) t.op with
    | none => s
    | some t =>
      let s := { s with pad := { s.pad with tagHeld := s.pad.tagHeld.filter fun x => x.id ≠ t.id } }
      State.drainTag (s.serveTag t) c slot fuel

/-- A tagged request that was admitted is served; another is held, or refused with TAG_BUSY where 64 are held (R195,
R197). -/
def State.arriveTag (s : State) (t : TagReq) : State :=
  if tagAdmits (s.tagFull t.cluster t.slot) t.op then
    (s.serveTag t).drainTag t.cluster t.slot s.pad.tagHeld.length
  else if (s.pad.tagHeld.filter fun x => x.cluster == t.cluster).length < 64 then
    { s with pad := { s.pad with tagHeld := s.pad.tagHeld ++ [t] } }.bump .clu t.cluster 0x52C
  else { s with pad := { s.pad with tagBusy := s.pad.tagBusy ++ [t] } }

/-- The tagged access of a request (R180, R194, R195, R301): checked, then held by a freeze, or brought to its slot. -/
def State.tagAccess (s : State) (q : NocReq) (op : TagOp) (since : BitVec 64) (id : Nat) : State :=
  match s.slotAt q.addr with
  | none => s.failNoc q 0x0004
  | some (c, slot) =>
    let t : TagReq := ⟨id, c, slot, q, op, since⟩
    if decide ((s.bankOf (s.slotBank c)).owner ≠ s.clusterOwner c) then s.failNoc q 0x0010
    else match s.padGate q 128 with
      | .fault f => s.failNoc q f
      | .heldTier =>
        let r := regionOfCluster c
        let tier := padTier q.addr.toNat
        let s := match s.tierOf r tier with
          | .waking _ => s
          | _ => s.setTier r tier (.waking (s.sys.time + 6000))
        { s with pad := { s.pad with tagBusy := s.pad.tagBusy ++ [t] } }
      | .heldBank => { s with pad := { s.pad with tagBusy := s.pad.tagBusy ++ [t] } }
      | .ok =>
        match q.owner with
        | .part p =>
          let b := s.brambleOf p.val
          if b.frozen then s.setBramble p.val { b with heldAny := true, heldTags := b.heldTags ++ [t] }
          else s.arriveTag t
        | .dev => s.arriveTag t

/-- A new tagged request, charged to the NOC regulator (R507). -/
def State.newTag (s : State) (q : NocReq) (op : TagOp) : State :=
  if s.nocOpen q then
    let id := s.pad.nextId
    let s := s.nocCharge q
    { s with pad := { s.pad with nextId := id + 1 } }.tagAccess q op s.sys.time id
  else s

/-- TAG_WRITE (R195). -/
def execTagWrite (q : NocReq) (data : List Byte) (s : State) : Out := .next (s.newTag q (.write data))

/-- TAG_READ (R195). -/
def execTagRead (q : NocReq) (s : State) : Out := .next (s.newTag q .read)

/-- TAG_PEEK (R195). -/
def execTagPeek (q : NocReq) (s : State) : Out := .next (s.newTag q .peek)

/-- TAG_FILL (R195). -/
def execTagFill (q : NocReq) (data : List Byte) (s : State) : Out := .next (s.newTag q (.fill data))

/-- The timeout of the cluster's held requests in ns (R198). DESIGN CHOICE: assumption 5. -/
def State.slotTimeoutNs (s : State) (c : Nat) : Nat := 1000 * 2 ^ ((s.pr .clu c 0x53C).extractLsb' 28 4).toNat

/-- Time a tagged request out (R198). -/
def State.tagTimeout (s : State) (t : TagReq) : State :=
  let s := s.failReq t.req.ref 0x0016 t.req.addr
  match t.req.owner with
  | .part p => s.bump .part p.val 0x41C
  | .dev => s

/-- TAG_BUSY_RETRY (R197): after 64 CLK_N (32 ns) the request is sent again, until it is held or times out. -/
def execTagBusyRetry (id : Nat) (s : State) : Out :=
  match s.pad.tagBusy.find? fun t => t.id == id && decide (t.since.toNat + 32 ≤ s.sys.time.toNat) with
  | none => .next s
  | some t =>
    let s := { s with pad := { s.pad with tagBusy := s.pad.tagBusy.filter fun x => x.id ≠ id } }
    if tagAdmits (s.tagFull t.cluster t.slot) t.op ||
        decide (s.sys.time.toNat < t.since.toNat + s.slotTimeoutNs t.cluster) then
      .next (s.tagAccess t.req t.op t.since id)
    else .next (s.tagTimeout t)

/-- TAG_TIMEOUT (R198): an access that releases the request is sampled first. DEDUCED: assumption 4. -/
def execTagTimeout (id : Nat) (s : State) : Out :=
  match s.pad.tagHeld.find? fun t => t.id == id &&
      decide (t.since.toNat + s.slotTimeoutNs t.cluster ≤ s.sys.time.toNat) with
  | none => .next s
  | some t =>
    if tagAdmits (s.tagFull t.cluster t.slot) t.op then .next (s.drainTag t.cluster t.slot s.pad.tagHeld.length)
    else .next ({ s with pad := { s.pad with tagHeld := s.pad.tagHeld.filter fun x => x.id ≠ id } }.tagTimeout t)

/-- TAG_CLR (R199): a write of CLU.TAG_CLR. -/
def execTagClr (f : Fn) (c : Fin 64) (v : Word) (s : State) : Out :=
  match s.openAt f ⟨.clu, c.val⟩ 0x544 v with
  | .error s => .next s
  | .ok _ => .next (if v.getLsbD 0 then s.clearTags c.val else s)

end Sys2Proof.Machine
end

