-- ==== Sys2Proof/Machine/Bramble.lean ====
section
/-! DEFINITION. Bramble's snapshot (R301–R303): what it writes, and how a freeze ends. -/

namespace Sys2Proof.Machine

/-- The engine that a command's pre-wait holds (R287, R302): 0 cluster sequencer, 1 vector engine, 2 mover,
3 compare-and-count, 4 front end. DEDUCED: assumption 61. -/
def LRec.engineKind (l : LRec) : Nat :=
  let op := l.opcode.toNat
  if 0x10 ≤ op ∧ op < 0x20 then 0 else if 0x20 ≤ op ∧ op < 0x30 then 1 else if op = 0x30 then 3
  else if l.usesChan then 2 else 4

/-- One snapshot entry (R302). -/
def snapEntry (kind id rank engine chan gid blocked : Nat) (target value : BitVec 32) : List Byte :=
  leBytes 2 (kind * 0x4000 + id) ++ leBytes 2 (rank * 1024 + engine * 64 + chan * 8) ++ leBytes 2 gid ++
  leBytes 2 (min 0xFFFF blocked) ++ leBytes 4 target.toNat ++ leBytes 4 value.toNat

/-- The entry of a held or retrying wait. -/
def State.waitEntry (s : State) (w : Wait) : List Byte :=
  let l := (s.flight? w.ref).map (·.lrec)
  let eng := if w.prewait then (l.map LRec.engineKind).getD 4 else 4
  let ch := match l with
    | some l => if w.prewait ∧ l.usesChan then l.moverCh else 0
    | none => 0
  snapEntry (if w.prewait then 0 else 1) w.vid.toNat (s.rankOf w.part w.cluster) eng ch
    ((l.map (·.gid.toNat)).getD 0) ((s.sys.time - w.since).toNat / 10000) w.target (s.countOf w.cluster w.counter)

/-- The entry of a held tagged request. -/
def State.tagEntry (s : State) (p : Nat) (t : TagReq) : List Byte :=
  let l := (t.req.ref.bind s.flight?).map (·.lrec)
  let kind := match t.op with
    | .read | .peek => 2
    | _ => 3
  snapEntry kind t.slot (s.rankOf p t.cluster) ((l.map LRec.engineKind).getD 2) ((l.map LRec.moverCh).getD 0)
    ((l.map (·.gid.toNat)).getD 0) ((s.sys.time - t.since).toNat / 10000) 0
    (if s.tagFull t.cluster t.slot then 1 else 0)

/-- The entries of a partition, in ascending cluster order; within one, waits in entry order and then slots.
DEDUCED: assumption 60. -/
def State.snapEntries (s : State) (p : Nat) : List (List Byte) :=
  (List.range 64).flatMap fun c =>
    ((s.blockedWaits p).filter fun w => w.cluster == c).map s.waitEntry ++
    (List.range 512).flatMap fun i =>
      ((s.blockedTags p).filter fun t => t.cluster == c && t.slot == i).map (s.tagEntry p)

/-- The snapshot's bytes. DEDUCED: assumption 128. -/
def State.snapBytes (s : State) (p : Nat) (withdrawn : Bool) : List Byte :=
  let es := s.snapEntries p
  leBytes 8 (s.brambleOf p).frozenAt.toNat ++ leBytes 4 (s.windowNs p / 10000) ++ leBytes 2 (min 1024 es.length) ++
  leBytes 2 (min 0xFFFF (es.length - 1024)) ++ [BitVec.ofNat 8 p, if withdrawn then 1 else 0] ++
  List.replicate 46 0 ++ (es.take 1024).flatten

/-- Write the snapshot to the fault area (R488): only while SNAP is 0. -/
def State.writeSnap (s : State) (p : Nat) (data : List Byte) : State :=
  let cfg := s.pr .fe p 0x40
  let a := s.fe.faultAreas.get FaultArea.init p
  if !cfg.getLsbD 31 then s
  else if a.snap then s.faultLost p
  else match s.handleWrite p (cfg.toNat % 4096) 0x1000 data with
    | some s => ((s.setFaultArea p { a with snap := true }).faultHeader p).raise .fe p 4
    | none => (s.handleNote p (cfg.toNat % 4096) 0x1000 data.length).faultLost p

/-- End a freeze by withdrawing (R301): what was held is applied, then registered, and the quiet time restarts.
DEDUCED: assumption 60. -/
def State.withdraw (s : State) (p : Nat) : State :=
  let b := s.brambleOf p
  let s := s.setBramble p { Bramble.init with frozen := false }
  let s := (s.clustersOf p).foldl (fun s c =>
    let ms := s.inputOf c
    if ms.isEmpty then s else (s.setInput c []).applyMsgs c ms) s
  let s := b.heldWaits.foldl State.registerWait s
  let s := b.heldTags.foldl State.arriveTag s
  s.bump .part p 0x4A8

/-- Declare deadlock (R301): every blocked item ends, and every command that holds one faults.
DESIGN CHOICE: assumption 40; DEDUCED: assumption 60. -/
def State.deadlock (s : State) (p : Nat) : State :=
  let ws := s.blockedWaits p
  let ts := s.blockedTags p
  let s := s.setBramble p Bramble.init
  let gone (w : Wait) : Bool := w.part == p
  let s := { s with
    syn := { s.syn with
      waits := s.syn.waits.filter fun w => !gone w, retrying := s.syn.retrying.filter fun w => !gone w }
    pad := { s.pad with tagHeld := s.pad.tagHeld.filter fun t => !ts.contains t } }
  let s := ws.foldl (fun s w => s.failWait w 0x0018) s
  let s := ts.foldl (fun s t => s.failReq t.req.ref 0x0018 t.req.addr) s
  let s := (s.bump .part p 0x4A4).sendMsix (p + 1) 15
  let s := s.sendMsix 0 (BitVec.ofNat 11 (128 + p))
  if p = 0 then s.jobCause 1 else s

/-- BRAMBLE_SNAPSHOT_DONE (R301, R302): the freeze ends. DEDUCED: assumption 60. -/
def execBrambleSnapshotDone (p : Fin 64) (s : State) : Out :=
  let b := s.brambleOf p.val
  if !b.frozen then .next s
  else
    let held := b.heldAny || (s.clustersOf p.val).any fun c => !(s.inputOf c).isEmpty
    let s := s.writeSnap p.val (s.snapBytes p.val held)
    .next (if held then s.withdraw p.val else s.deadlock p.val)

end Sys2Proof.Machine
end

