-- ==== Sys2Proof/Machine/Cellar.lean ====
section
/-! DEFINITION. The cellar's page tables, misses and host translations (R213–R230, R577): the commands that
answer a mover's waits. -/

namespace Sys2Proof.Machine

/-- Values of MOV.CHn_STATUS.WAIT (R247). -/
abbrev waitNone : BitVec 4 := 0
abbrev waitData : BitVec 4 := 1
abbrev waitMiss : BitVec 4 := 2
abbrev waitPage : BitVec 4 := 3
abbrev waitCollide : BitVec 4 := 4
abbrev waitTokens : BitVec 4 := 5
abbrev waitHeld : BitVec 4 := 7

/-- Whether a page of the pool is mapped by an entry other than `key` (R221). -/
def State.ppnMapped (s : State) (key ppn : Nat) : Bool :=
  s.cel.pte.any fun e => e.1 ≠ key && e.2.getLsbD 63 && (e.2.extractLsb' 21 15).toNat == ppn

/-- The pool pages that no entry maps (CEL.PAGES_FREE): a retired page that is unmapped never returns (R552). -/
def State.pagesFree (s : State) : Nat :=
  let mapped := (s.cel.pte.filter fun e => e.2.getLsbD 63).length
  let retired := (s.err.retired.filter fun p => p < s.poolPages && !s.ppnMapped (64 * 32768) p).length
  s.poolPages - mapped - retired

/-- Reject a page-table write (R221): counted, logged and announced. -/
def State.pteReject (s : State) : State := (s.bump .cel 0 0x68).raise .cel 0 2

/-- PTE_WRITE (R221–R223): a write of CEL.PTE_DATA_HI commits the held low half with it. DEDUCED: assumption 29. -/
def execPteWrite (f : Fn) (v : Word) (s : State) : Out :=
  match s.openAt f ⟨.cel, 0⟩ 0x4C v with
  | .error s' => .next (if s.mayWriteAt f ⟨.cel, 0⟩ 0x4C then s'.pteReject else s')
  | .ok t =>
    match s.wbufOf f t.page with
    | none => .next (s.rejectState f t)
    | some lo =>
      if lo.offset ≠ 0x48 then .next (s.rejectState f t)
      else
        let s := s.setWbuf f t.page none
        let sel := s.pr .cel 0 0x44
        let p := (sel.extractLsb' 16 6).toNat
        let vpn := (sel.extractLsb' 0 15).toNat
        let key := p * 32768 + vpn
        let new : BitVec 64 := (v &&& 0xF000000F) ++ lo.value
        let old := s.pteOf p vpn
        let ppn := (new.extractLsb' 21 15).toNat
        let oldPpn := (old.extractLsb' 21 15).toNat
        let bad := !s.configured p || (s.cel.unmapping.get none key).isSome ||
          (new.getLsbD 63 && (decide (s.poolPages ≤ ppn) || s.err.retired.contains ppn && !old.getLsbD 63 ||
            s.ppnMapped key ppn || (old.getLsbD 63 && decide (ppn ≠ oldPpn)) ||
            (!old.getLsbD 63 && decide ((s.pr .part p 0x54).toNat % 32768 < s.pagesMapped p + 1))))
        let outside := new.getLsbD 63 && decide (s.poolPages ≤ ppn)
        if bad then .next ((s.reject f t.page t.off (if outside then 1 else 5)).pteReject)
        else if new.getLsbD 63 then
          let scrub : BitVec 64 := if old.getLsbD 63 then old &&& (1#64 <<< 59) else 1#64 <<< 59
          .next (s.setPte p vpn (new ||| scrub))
        else if old.getLsbD 63 then
          .next { s with cel := { s.cel with unmapping := s.cel.unmapping.put none key (some new) } }
        else .next (s.setPte p vpn new)

/-- PAGE_SCRUB_DONE (R222): the page is zero under its partition's key. DEDUCED: assumption 57. -/
def execPageScrubDone (p : Fin 64) (vpn : Fin 32768) (s : State) : Out :=
  let e := s.pteOf p.val vpn.val
  if e.getLsbD 63 && e.getLsbD 59 then
    .next ((s.scrubPage (s.keyOf p.val) (e.extractLsb' 21 15).toNat).setPte p.val vpn.val (e &&& ~~~(1#64 <<< 59)))
  else .next s

/-- A mover's chunk is held at the page of an entry (R222). -/
def State.pageHolds (s : State) (key : Nat) : Bool :=
  s.cel.chans.any fun e => match e.2 with
    | some c => c.wait == waitHeld && c.page == some key
    | none => false

/-- PTE_UNMAP_DONE (R223): clearing V acts once the accesses through the old entry, a scrub and the accesses that it
held have ended. DEDUCED: assumptions 57, 139. -/
def execPteUnmapDone (p : Fin 64) (vpn : Fin 32768) (s : State) : Out :=
  let key := p.val * 32768 + vpn.val
  match s.cel.unmapping.get none key with
  | none => .next s
  | some new =>
    if (s.pteOf p.val vpn.val).getLsbD 59 || s.pageHolds key then .next s
    else .next ({ s with cel := { s.cel with unmapping := s.cel.unmapping.put none key none } }.setPte p.val vpn.val new)

/-- The register word of a miss record (R246). -/
def Miss.word (m : Miss) : Word :=
  0x80000000 ||| (if m.write then 0x40000000 else 0) ||| (BitVec.ofNat 32 m.part.val <<< 24) |||
  (BitVec.ofNat 32 m.chan.val <<< 15) ||| BitVec.ofNat 32 m.vpn.val

/-- CEL_MISS_READ (R225, R246): the oldest miss record, which the read removes; the management bus removes nothing
(R632). -/
def execCelMissRead (f : Fn) (s : State) : Out :=
  if !s.served f 0x8054 then .next (s.answer (s.unserved f .w32))
  else match f with
    | .vf _ => .next ((s.rejectAt f (logPage f) 0x54 ((logPage f).base + 0x54) 4).answer 0)
    | _ => match s.cel.misses with
      | [] => .next (s.answer 0)
      | m :: rest =>
        let s' := s.answer (m.word.zeroExtend 64)
        .next (if f = .smb then s' else { s' with cel := { s'.cel with misses := rest } })

/-- Drop a channel's miss record. -/
def State.dropMiss (s : State) (n : Nat) : State :=
  { s with cel := { s.cel with misses := s.cel.misses.filter fun m => m.chan.val ≠ n } }

/-- Count a restartable fault resumed (R247, R248). -/
def State.countResumed (s : State) (n : Nat) (c : ChanCmd) : State :=
  let s := s.bump .mov (n / 8) 0x78
  if n % 8 < 6 ∧ c.ref.part.val < 64 then s.bump .part c.ref.part.val 0x448 else s

/-- The descriptor image, which is a mover's engine state (R233, R243, R490). -/
def ChanCmd.image (c : ChanCmd) : BitVec 512 :=
  BitVec.ofNat 512 (leVal (leBytes 8 c.src.toNat ++ leBytes 8 c.dst.toNat ++ leBytes 8 c.aux.toNat ++
    leBytes 4 c.c0.toNat ++ leBytes 2 c.c1.toNat ++ leBytes 2 c.c2.toNat ++ leBytes 4 c.srcS1.toNat ++
    leBytes 4 c.srcS2.toNat ++ leBytes 4 c.dstS1.toNat ++ leBytes 4 c.dstS2.toNat ++ leBytes 4 c.done.toNat ++
    leBytes 4 c.outDone.toNat ++ leBytes 2 c.mode.toNat ++ leBytes 2 c.ctr.toNat ++ leBytes 2 c.inc.toNat ++
    leBytes 2 c.tag.toNat))

/-- The image with its addresses in handle-relative form: source and destination (a FILL's source is its pattern), and
the reference of XOR_REF. DEDUCED: assumption 54. -/
def ChanCmd.relImage (c : ChanCmd) (l : LRec) : BitVec 512 :=
  { c with
    src := if c.mode.extractLsb' 12 4 = 1 then c.src else l.relWord c.src
    dst := l.relWord c.dst
    aux := if c.mode.extractLsb' 12 4 = 2 then c.aux else if c.mode.getLsbD 10 then l.relWord c.aux else 0 }.image

/-! ## Descriptor fields (R233, R238) -/

def ChanCmd.op (c : ChanCmd) : Nat := (c.mode.extractLsb' 12 4).toNat
/-- DEDUCED: assumption 56. -/
def ChanCmd.fence (c : ChanCmd) : Bool := c.mode.getLsbD 11
def ChanCmd.xorRef (c : ChanCmd) : Bool := c.mode.getLsbD 10
/-- The plane coder's element width in bits. -/
def ChanCmd.width (c : ChanCmd) : Nat := 8 * 2 ^ (c.mode.extractLsb' 8 2).toNat
def ChanCmd.ctrKind (c : ChanCmd) : Nat := (c.ctr.extractLsb' 14 2).toNat
def ChanCmd.vid (c : ChanCmd) : BitVec 12 := c.ctr.extractLsb' 0 12
def ChanCmd.amount (c : ChanCmd) : BitVec 16 := (c.inc.extractLsb' 8 8).zeroExtend 16
def ChanCmd.grain (c : ChanCmd) : Nat := 2 ^ (c.inc.extractLsb' 4 4).toNat

/-- SKEW's parameter word (R238). -/
def ChanCmd.skewTiles (c : ChanCmd) : Nat := (c.aux.extractLsb' 16 16).toNat
def ChanCmd.skewRing (c : ChanCmd) : Bool := c.aux.getLsbD 9
def ChanCmd.skewWide (c : ChanCmd) : Bool := c.aux.getLsbD 8
def ChanCmd.skewBits (c : ChanCmd) : Nat := elemBits (fmtCode (c.aux.toNat % 256))
def ChanCmd.skewRows (c : ChanCmd) : Nat := (if c.skewWide then 32 else 128) * c.skewTiles
def ChanCmd.skewSlots (c : ChanCmd) : Nat := c.skewRows + (if c.skewRing then 0 else 127)
def ChanCmd.skewQuarters (c : ChanCmd) : Nat := if c.skewWide then 4 else 1

/-- A device address plus a signed offset, modulo 2^64. -/
def addrAdd (a : BitVec 64) (d : Int) : Nat := (a + BitVec.ofInt 64 d).toNat

/-- The whole destination of a mover's command (R235, R239): the rows of a strided stream, the runs of SKEW's quarters,
or the range of PACK's output. -/
def ChanCmd.dstAll (c : ChanCmd) (l : LRec) : List (Nat × Nat) :=
  match c.op with
  | 2 => (List.range c.skewQuarters).map fun (q : Nat) =>
      (addrAdd c.dst (q * c.dstS1.toInt), c.skewSlots * (16 * c.skewBits))
  | 3 => match l.opnd 1 with
    | some o => [(o.lo.toNat, o.hi.toNat - o.lo.toNat + 1)]
    | none => []
  | 5 => []
  | _ => (List.range c.c2.toNat).flatMap fun (i2 : Nat) => (List.range c.c1.toNat).map fun (i1 : Nat) =>
      (addrAdd c.dst (i2 * c.dstS2.toInt + i1 * c.dstS1.toInt), c.c0.toNat)

/-- End a channel's command with a fault, after which its destination is undefined (R244).
DEDUCED: assumptions 54, 138. -/
def State.faultChan (s : State) (n : Nat) (c : ChanCmd) (cause : BitVec 16) : State :=
  let p := c.ref.part.val
  let s := s.setChan n none
  let s := if p < 64 then s.bump .part p 0x454 else s
  let s := s.raise .mov (n / 8) 1
  match s.flight? c.ref with
  | some f => (s.openOutputs p (c.dstAll f.lrec)).failFlight c.ref
      (({ engineFault cause (engineId (s.rankOf p (n / 8)) 2 (n % 8)) with state := c.relImage f.lrec }).at_ f.lrec c.failAt)
  | none => s

/-- CEL.RESUME for a channel (R225, R245). -/
def State.celResume (s : State) (n : Nat) (fail : Bool) : State :=
  match s.chanOf n with
  | some c =>
    if c.wait = waitMiss then
      let s := s.dropMiss n
      if fail then s.faultChan n c 0x0019
      else (s.setChan n (some { c with wait := waitNone })).countResumed n c
    else (s.dropMiss n).bump .cel 0 0x6C
  | none => (s.dropMiss n).bump .cel 0 0x6C

/-- CEL_RESUME_RETRY (R225): a write of CEL.RESUME with FAIL = 0. -/
def execCelResumeRetry (f : Fn) (ch : Fin 512) (s : State) : Out :=
  match s.openAt f ⟨.cel, 0⟩ 0x58 (BitVec.ofNat 32 ch.val) with
  | .error s => .next s
  | .ok _ => .next (s.celResume ch.val false)

/-- CEL_RESUME_FAIL (R225): a write of CEL.RESUME with FAIL = 1. -/
def execCelResumeFail (f : Fn) (ch : Fin 512) (s : State) : Out :=
  match s.openAt f ⟨.cel, 0⟩ 0x58 (0x80000000 ||| BitVec.ofNat 32 ch.val) with
  | .error s => .next s
  | .ok _ => .next (s.celResume ch.val true)

/-- 10 ms in ns: the fixed timers of R225, R228, R443 and R449 (R555). -/
def tenMs : Nat := 10000000

/-- CELLAR_MISS_TIMEOUT (R225). -/
def execCellarMissTimeout (ch : Fin 512) (s : State) : Out :=
  match s.chanOf ch.val with
  | some c =>
    if c.wait = waitMiss ∧ c.since.toNat + tenMs ≤ s.sys.time.toNat then .next ((s.dropMiss ch.val).faultChan ch.val c 0x0019)
    else .next s
  | none => .next s

/-- Free a PRG index (R228, R245). -/
def State.freePrg (s : State) (n : Nat) : State := { s with cel := { s.cel with prg := s.cel.prg.put false n false } }

/-- PAGE_RESPONSE (R228, R245): PRG index = channel number. -/
def execPageResponse (prg : Fin 512) (code : PageCode) (s : State) : Out :=
  let s := s.freePrg prg.val
  match s.chanOf prg.val with
  | some c =>
    if c.wait = waitPage then
      match code with
      | .success => .next ((s.setChan prg.val (some { c with wait := waitNone })).countResumed prg.val c)
      | _ => .next (s.faultChan prg.val c 0x001B)
    else .next s
  | none => .next s

/-- PAGE_REQUEST_TIMEOUT (R228). -/
def execPageRequestTimeout (prg : Fin 512) (s : State) : Out :=
  match s.chanOf prg.val with
  | some c =>
    if c.wait = waitPage ∧ c.since.toNat + tenMs ≤ s.sys.time.toNat then .next (s.faultChan prg.val c 0x001B)
    else .next s
  | none => .next s

/-- Whether a host read touches one of `n` 4 KiB pages from `page` for function `f`. -/
def HostRead.usesPage (r : HostRead) (f : Fin 65) (page n : Nat) : Bool :=
  r.fn == f && r.segs.any fun g => decide (page ≤ (g.1 + g.2 - 1) / 4096 ∧ g.1 / 4096 < page + n)

/-- Complete the invalidations whose accesses have all completed (R229). -/
def State.finishInval (s : State) : State :=
  let open_ (i : BitVec 5 × Fin 65 × Nat × Nat) : Bool := s.host.reads.any fun r => r.usesPage i.2.1 i.2.2.1 i.2.2.2
  let done := s.cel.inval.filter fun i => !open_ i
  let s := { s with cel := { s.cel with inval := s.cel.inval.filter open_ } }
  done.foldl (fun s i => s.emit (.invalidateDone i.1)) s

/-- ATS_INVALIDATION (R229): `n` pages from `page` of function `f`. -/
def execAtsInvalidation (f : Fin 65) (tag : BitVec 5) (page n : Nat) (s : State) : Out :=
  let s := { s with cel := { s.cel with
    atc := s.cel.atc.filter fun e => !(e.1 == f && decide (page ≤ e.2 ∧ e.2 < page + n))
    inval := s.cel.inval ++ [(tag, f, page, n)] } }
  .next s.finishInval

/-- Log an error in a function's AER registers (R577). DEDUCED: assumption 135. -/
def State.logAer (s : State) (f : Fin 65) (cause : BitVec 16) : State :=
  { s with host := { s.host with aer := s.host.aer ++ [(f, cause)] } }

/-- End the command that reads host memory (R577). DEDUCED: assumption 135. -/
def State.failHostRead (s : State) (r : HostRead) (cause : BitVec 16) : State :=
  let s := s.logAer r.fn cause
  match r.purpose with
  | .mover n => match s.chanOf n with
    | some c => if some c.ref = r.ref then s.faultChan n c cause else s
    | none => s
  | .ingest p => s.setPart p.val { s.partOf p.val with arrived := some (List.replicate 4096 0, true) }

end Sys2Proof.Machine
end

