-- ==== Sys2Proof/Machine/Link.lean ====
section
/-! DEFINITION. Flits, packets and logical ports (R353–R378): the flit format and its CRC, the transmitter with
its windows, credits and replay buffers, the receiver's sequence order, routing, and the queues of packets. -/

namespace Sys2Proof.Machine

/-! ## Flits (R356) -/

/-- One byte into the reflected CRC-32 register (polynomial 0x04C11DB7). -/
def crcByte (c : BitVec 32) (b : Byte) : BitVec 32 :=
  (List.range 8).foldl (fun c _ => if c.getLsbD 0 then (c >>> 1) ^^^ 0xEDB88320 else c >>> 1) (c ^^^ b.zeroExtend 32)

/-- The CRC-32 of some bytes: initial value and final XOR of all ones, reflected. -/
def crc32 (bs : List Byte) : BitVec 32 := ~~~(bs.foldl crcByte (BitVec.allOnes 32))

/-- The CRC that a flit carries where none of its bits are wrong. -/
def flitCrc (header : BitVec 64) (body : List Byte) : BitVec 32 := crc32 (leBytes 8 header.toNat ++ body)

/-- A flit of the given header and body, the body filled with zeros to 244 B. -/
def mkFlit (header : BitVec 64) (body : List Byte) : Flit :=
  let body := body ++ List.replicate (244 - body.length) 0
  ⟨header, body, flitCrc header body⟩

def hdrSeq (h : BitVec 64) : BitVec 12 := h.extractLsb' 52 12
def hdrAck (h : BitVec 64) : BitVec 12 := h.extractLsb' 40 12
def hdrAckv (h : BitVec 64) : Bool := h.getLsbD 39
def hdrKind (h : BitVec 64) : BitVec 2 := h.extractLsb' 37 2
def hdrSop (h : BitVec 64) : Bool := h.getLsbD 36
def hdrEop (h : BitVec 64) : Bool := h.getLsbD 35
def hdrRpl (h : BitVec 64) : Bool := h.getLsbD 34
def hdrVc (h : BitVec 64) : BitVec 3 := h.extractLsb' 31 3
def hdrEpoch (h : BitVec 64) : BitVec 8 := h.extractLsb' 23 8
def hdrCrVc (h : BitVec 64) : BitVec 3 := h.extractLsb' 20 3
def hdrCrCount (h : BitVec 64) : BitVec 8 := h.extractLsb' 12 8

/-- A flit header without its acknowledgement and credits. -/
def mkHeader (seq : BitVec 12) (kind : BitVec 2) (sop eop rpl : Bool) (vc : BitVec 3) (epoch : BitVec 8) : BitVec 64 :=
  seq ++ (0#12) ++ (0#1) ++ kind ++ BitVec.ofBool sop ++ BitVec.ofBool eop ++ BitVec.ofBool rpl ++ vc ++ epoch ++ (0#23)

/-- Whether a flit's header and message hold only values that R356 and R358 define. -/
def flitLegal (f : Flit) : Bool :=
  let h := f.header
  f.body.length == 244 && h.extractLsb' 0 12 == 0 && hdrKind h != 3 &&
  (hdrKind h == 1 || hdrSeq h == 0) &&
  (hdrKind h != 2 || (let t := (f.body.getD 0 0).toNat
    decide (1 ≤ t ∧ t ≤ 5) && (t != 4 || decide ((f.body.getD 1 0).toNat ≤ 1)) &&
    (t != 5 || (f.body.getD 1 0) == 1 || (f.body.getD 1 0) == 2)))

/-- Serial-number order (R366): `a` is after `b`. -/
def seqAfter (a b : BitVec 12) : Bool := let d := (a - b).toNat; decide (1 ≤ d ∧ d ≤ 2047)

/-! ## Views -/

def LinkSt.init : LinkSt :=
  { st := 0, since := 0, fails := 0, replay := none, lastGood := 0xFFF, discard := false, held := [], buf := [],
    spent := [], owed := [], ackAt := 0, ident := none, identSent := none, result := 0, other := 0,
    epochTrain := false, quinceAt := 0 }

def PortSt.init : PortSt :=
  { st := 0, next := 0, acked := 0, delivered := none, txq := [], rx := [], rr := 0, lastMember := 0, ackDue := false,
    resyncAt := 0 }

def State.link (s : State) (l : Nat) : LinkSt := s.lk.link.get LinkSt.init l

def State.setLink (s : State) (l : Nat) (v : LinkSt) : State :=
  { s with lk := { s.lk with link := s.lk.link.put LinkSt.init l v } }

def State.port (s : State) (p : Nat) : PortSt := s.lk.port.get PortSt.init p

def State.setPort (s : State) (p : Nat) (v : PortSt) : State :=
  { s with lk := { s.lk with port := s.lk.port.put PortSt.init p v } }

/-- The members of a logical port, and the logical port of a link (R353). -/
def State.membersOf (s : State) (p : Nat) : List Nat :=
  let c := s.pr .port p 0x40
  if p < 6 ∧ c.getLsbD 31 then (List.range 16).filter fun l => c.getLsbD l else []

def State.lportOf (s : State) (l : Nat) : Option Nat := (List.range 6).find? fun p => (s.membersOf p).contains l

/-- The ACTIVE members of a logical port. -/
def State.liveMembers (s : State) (p : Nat) : List Nat := (s.membersOf p).filter fun l => (s.link l).st == 5

/-- The epoch in force, and this device's own logical and physical coordinates (R379, R386). -/
def State.epoch (s : State) : BitVec 8 := (s.pr .route 0 0x48).extractLsb' 0 8
def State.selfLogical (s : State) : BitVec 14 := (s.pr .route 0 0x40).extractLsb' 16 14
def State.selfPhys (s : State) : BitVec 14 := (s.pr .route 0 0x40).extractLsb' 0 14

/-- A direction's logical port that exists (R353). -/
def State.portOfDir (s : State) (d : Nat) : Option Nat :=
  (List.range 6).find? fun p =>
    let c := s.pr .port p 0x40
    c.getLsbD 31 && (c.extractLsb' 28 3).toNat == d

/-- The direction of a logical port. -/
def State.dirOf (s : State) (p : Nat) : Nat := ((s.pr .port p 0x40).extractLsb' 28 3).toNat

/-! ## Sending on a link -/

/-- Send a flit on a link, with the acknowledgement that is due on its logical port and one channel's credits
(R356, R365, R367). -/
def State.emitFlit (s : State) (l : Nat) (f : Flit) : State :=
  let x := s.link l
  let lp := s.lportOf l
  let p := lp.map s.port
  let due := (p.map (·.ackDue)).getD false
  let h := f.header &&& ~~~0x000FFF8000000000 &&& ~~~0x00000000007FF000
  let h := match due, p.bind (·.delivered) with
    | true, some d => h ||| (d.zeroExtend 64 <<< 40) ||| (1#64 <<< 39)
    | _, _ => h
  let cr := (x.owed.keys.head?).map fun vc => (vc, min 255 (x.owed.get 0 vc))
  let h := match cr with
    | some c => h ||| (BitVec.ofNat 64 c.1 <<< 20) ||| (BitVec.ofNat 64 c.2 <<< 12)
    | none => h
  let x := match cr with
    | some c => { x with owed := x.owed.put 0 c.1 (x.owed.get 0 c.1 - c.2) }
    | none => x
  let s := s.setLink l x
  let s := match lp with
    | some lp => s.setPort lp { s.port lp with ackDue := false }
    | none => s
  { s with lk := { s.lk with out := s.lk.out ++ [(Fin.ofNat 16 l, mkFlit h f.body)] } }

/-- Send a CONTROL flit: the message's bytes from byte 8 (R358). -/
def State.sendControl (s : State) (l : Nat) (msg : List Byte) : State :=
  s.emitFlit l (mkFlit (mkHeader 0 2 false false false 0 s.epoch) msg)

/-- Send an IDLE flit where an acknowledgement or credits are due (R357). -/
def State.sendIdle (s : State) (l : Nat) : State :=
  let due := ((s.lportOf l).map fun p => (s.port p).ackDue).getD false
  if due || decide ((s.link l).owed ≠ []) then s.emitFlit l (mkFlit (mkHeader 0 0 false false false 0 s.epoch) []) else s

/-! ## The transmitter (R354, R364–R366) -/

/-- Flits sent on a logical port that no acknowledgement covers. -/
def State.unacked (s : State) (p : Nat) : Nat := ((s.membersOf p).map fun l => (s.link l).buf.length).foldl (· + ·) 0

/-- Whether a member may take a new flit of a virtual channel (R354, R365, R369). -/
def State.memberReady (s : State) (l : Nat) (vc : BitVec 3) : Bool :=
  let x := s.link l
  x.st == 5 && x.replay.isNone && decide (x.buf.length < 512) && decide (x.spent.get 0 vc.toNat < 128)

/-- The member that takes the next flit (R354): round robin after the last. -/
def State.pickMember (s : State) (p : Nat) (vc : BitVec 3) : Option Nat :=
  let last := (s.port p).lastMember
  let ms := s.membersOf p
  ((ms.filter fun l => decide (last < l)) ++ (ms.filter fun l => decide (l ≤ last))).find? fun l => s.memberReady l vc

/-- The traffic class of a virtual channel (R364). -/
def vcClass (vc : BitVec 3) : Nat := vc.toNat / 2

/-- The packet that sends the next flit (R364): SYS first, then the packet that is partly sent, then COLL, STAGE and
BULK in turn; a packet whose channel has no member free is passed over. Only the oldest packet of each virtual
channel is a candidate. DEDUCED: assumption 95. -/
def State.pickPacket (s : State) (p : Nat) : Option (OutPkt × Nat) :=
  let x := s.port p
  let heads := (List.range 8).filterMap fun vc => x.txq.find? fun o => o.vc.toNat == vc
  let cls (c : Nat) := heads.filter fun o => vcClass o.vc == c
  let turn := (List.range 3).map fun i => (x.rr + i) % 3 + 1
  let rest := turn.flatMap cls
  let order := cls 0 ++ rest.filter (fun o => !o.first) ++ rest.filter (·.first)
  (order.filterMap fun o => (s.pickMember p o.vc).map fun m => (o, m)).head?

/-- Put `y` for the first element of a list that satisfies `f`; none drops it. -/
def replaceFirst {α : Type} (f : α → Bool) (y : Option α) : List α → List α
  | [] => []
  | x :: xs => if f x then (match y with | some y => y :: xs | none => xs) else x :: replaceFirst f y xs

/-- Whether an epoch change holds every source (R385). -/
def State.epochHold (s : State) : Bool := (s.commitOf ⟨.route, 0⟩).waiting

/-- Send the next DATA flit of a logical port, if one may go. -/
def State.sendNext (s : State) (p : Nat) : Option State :=
  if (s.port p).st ≠ 1 ∨ 2047 ≤ s.unacked p ∨ s.epoch = 0 ∨ s.epochHold then none
  else match s.pickPacket p with
    | none => none
    | some (o, m) => match o.bodies with
      | [] => none
      | b :: bs =>
        let x := s.port p
        let f := mkFlit (mkHeader x.next 1 o.first bs.isEmpty false o.vc s.epoch) b
        let k := s.link m
        let s := s.setLink m { k with
          buf := k.buf ++ [⟨x.next, f, o.hdr⟩]
          spent := k.spent.put 0 o.vc.toNat (k.spent.get 0 o.vc.toNat + 1)
          ackAt := if k.buf.isEmpty then s.sys.time else k.ackAt }
        let s := s.bump64 .lnk m 0x64 1
        let s := s.setPort p { x with
          next := x.next + 1, lastMember := m
          rr := if vcClass o.vc = 0 ∨ !bs.isEmpty then x.rr else vcClass o.vc % 3
          txq := replaceFirst (fun y => y.vc == o.vc)
            (if bs.isEmpty then none else some { o with bodies := bs, first := false }) x.txq }
        some (s.emitFlit m f)

/-- Send as many DATA flits of a logical port as may go. -/
def State.drainFrom (s : State) (p : Nat) : Nat → State
  | 0 => s
  | fuel + 1 => match s.sendNext p with
    | some s => State.drainFrom s p fuel
    | none => s

def State.drainPort (s : State) (p : Nat) : State :=
  s.drainFrom p (((s.port p).txq.map fun o => o.bodies.length).foldl (· + ·) 0)

/-! ## Packets (R359) -/

def pktAddr (h : BitVec 128) : BitVec 48 := h.extractLsb' 70 48
def pktVid (h : BitVec 128) : BitVec 12 := h.extractLsb' 58 12
def pktAmount (h : BitVec 128) : BitVec 8 := h.extractLsb' 50 8
def pktLen (h : BitVec 128) : Nat := (h.extractLsb' 38 12).toNat + 1
def pktPart (h : BitVec 128) : BitVec 6 := h.extractLsb' 32 6
def pktKind (h : BitVec 128) : Nat := (h.extractLsb' 28 4).toNat
def pktSrc (h : BitVec 128) : BitVec 14 := h.extractLsb' 14 14
def pktDst (h : BitVec 128) : BitVec 14 := h.extractLsb' 0 14

/-- A packet header; `len` data bytes, 0 where the kind carries none. -/
def mkPkt (addr : BitVec 48) (vid : BitVec 12) (amount : BitVec 8) (len part kind : Nat) (src dst : BitVec 14) :
    BitVec 128 :=
  (0#10) ++ addr ++ vid ++ amount ++ BitVec.ofNat 12 (len - 1) ++ BitVec.ofNat 6 part ++ BitVec.ofNat 4 kind ++ src ++ dst

/-- The traffic class of a packet kind (R359); reserved kinds have none. -/
def kindClass : Nat → Option Nat
  | 1 | 2 | 8 => some 3
  | 3 | 4 | 6 => some 0
  | 5 => some 2
  | 7 => some 1
  | _ => none

/-- Cut data into pieces of `n` bytes. -/
def chunksOf {α : Type} (n : Nat) : Nat → List α → List (List α)
  | 0, _ => []
  | fuel + 1, xs => if xs.isEmpty then [] else xs.take n :: chunksOf n fuel (xs.drop n)

/-- The flit bodies of a packet. -/
def pktBodies (h : BitVec 128) (data : List Byte) : List (List Byte) :=
  chunksOf 244 17 (leBytes 16 h.toNat ++ data)

/-! ## Routing (R372–R377) -/

/-- Where a packet goes next. -/
inductive Route where
  | here
  | out (port : Nat) (dateline : Bool)
  | unreachable
deriving DecidableEq, Repr

/-- A coordinate's value in dimension `d` (0 X, 1 Y, 2 Z). -/
def coordOf (c : BitVec 14) (d : Nat) : Nat :=
  if d = 0 then (c.extractLsb' 9 5).toNat else if d = 1 then (c.extractLsb' 4 5).toNat else (c.extractLsb' 0 4).toNat

/-- The size of dimension `d`, and whether it wraps. -/
def State.dimSize (s : State) (d : Nat) : Nat := coordOf ((s.pr .route 0 0x44).extractLsb' 0 14) d + 1
def State.dimWrap (s : State) (d : Nat) : Bool := (s.pr .route 0 0x44).getLsbD (16 + d)

/-- The logical port of a direction, where it has an ACTIVE member. -/
def State.liveDir (s : State) (d : Nat) (plus : Bool) : Option Nat :=
  (s.portOfDir (2 * d + (if plus then 0 else 1))).filter fun p => !(s.liveMembers p).isEmpty

/-- The dateline of a packet sent in dimension `d` (R374): that of its travel in the dimension so far, or dateline 1
where it leaves by the wrap link. DEDUCED: assumption 95. -/
def State.datelineOf (s : State) (d : Nat) (plus : Bool) (prev : Option (Nat × Bool)) : Bool :=
  let x := coordOf s.selfPhys d
  let before := match prev with
    | some (d', b) => d' == d && b
    | none => false
  before || (if plus then x == s.dimSize d - 1 else x == 0)

/-- The route to physical coordinate `dest` (R373, R374, R376); `prev` is the dimension and dateline in which a transit
packet arrived. -/
def State.routePhys (s : State) (dest : BitVec 14) (prev : Option (Nat × Bool)) : Route :=
  match [0, 1, 2].find? fun d => coordOf dest d ≠ coordOf s.selfPhys d with
  | none => .here
  | some d =>
    let x := coordOf s.selfPhys d
    let t := coordOf dest d
    let n := s.dimSize d
    let fwd := (t + n - x) % n
    let plus := if s.dimWrap d then decide (2 * fwd ≤ n) else decide (x < t)
    match s.liveDir d plus with
    | some p => .out p (s.datelineOf d plus prev)
    | none =>
      if s.dimWrap d then
        match s.liveDir d !plus with
        | some p => .out p (s.datelineOf d (!plus) prev)
        | none => .unreachable
      else .unreachable

/-- The map entry in force of a logical coordinate (R372). -/
def State.mapOf (s : State) (c : BitVec 14) : Word := s.lk.map.get 0 c.toNat

/-- The route to a logical coordinate. -/
def State.routeTo (s : State) (dst : BitVec 14) (prev : Option (Nat × Bool)) : Route :=
  let e := s.mapOf dst
  if e.getLsbD 31 then s.routePhys (e.extractLsb' 0 14) prev else .unreachable

/-- Whether a packet from this device reaches a first port, or this device. -/
def State.reachable (s : State) (dst : BitVec 14) : Bool := decide (s.routeTo dst none ≠ .unreachable)

/-- The key of what this device sends to itself, among the logical ports. DEDUCED: assumption 95. -/
abbrev loopPort : Nat := 6

/-- Append delivered flits to a logical port's receive sub-queue. -/
def State.pushRx (s : State) (p : Nat) (vc : BitVec 3) (fs : List RxFlit) : State :=
  let x := s.port p
  s.setPort p { x with rx := x.rx.put [] vc.toNat (x.rx.get [] vc.toNat ++ fs) }

/-- The flits of a packet as its receiver stores them. -/
def rxFlits (vc : BitVec 3) (bodies : List (List Byte)) : List RxFlit :=
  (List.range bodies.length).map fun i =>
    { seq := 0, vc := vc, sop := i == 0, eop := i + 1 == bodies.length, body := bodies.getD i [], member := 0
      credit := false, broken := false }

/-- Put a packet on a logical port's send queue. -/
def State.queuePacket (s : State) (p : Nat) (vc : BitVec 3) (h : BitVec 128) (bodies : List (List Byte)) : State :=
  let x := s.port p
  (s.setPort p { x with txq := x.txq ++ [⟨vc, h, bodies, true⟩] }).drainPort p

/-- Send a packet from this device on a given logical port, at the entry to its dimension. -/
def State.sendOn (s : State) (p : Nat) (dateline : Bool) (h : BitVec 128) (data : List Byte) : State :=
  match kindClass (pktKind h) with
  | some c => s.queuePacket p (BitVec.ofNat 3 (2 * c + dateline.toNat)) h (pktBodies h data)
  | none => s

/-- Send a packet from this device; none where its destination is unreachable (R376). -/
def State.sendPacket (s : State) (h : BitVec 128) (data : List Byte) : Option State :=
  match s.routeTo (pktDst h) none with
  | .unreachable => none
  | .out p d => some (s.sendOn p d h data)
  | .here => match kindClass (pktKind h) with
    | some c => some (s.pushRx loopPort (BitVec.ofNat 3 (2 * c)) (rxFlits (BitVec.ofNat 3 (2 * c)) (pktBodies h data)))
    | none => some s

/-- Count and charge a packet that a partition sends (R361, R395). DEDUCED: assumption 103. -/
def State.chargeLink (s : State) (p len : Nat) : State :=
  if p < 64 then (s.charge p 2 len).bump64 .part p 0x4C0 len else s

/-! ## Received packets (R359, R360) -/

/-- A packet at the head of a receive sub-queue. -/
structure Packet where
  hdr : BitVec 128
  data : List Byte
  broken : Bool
  flits : List RxFlit
deriving DecidableEq, Repr

/-- The flits up to and including the first EOP; none where it has not been stored. -/
def headFlits : List RxFlit → Option (List RxFlit)
  | [] => none
  | f :: fs => if f.eop then some [f] else (headFlits fs).map fun r => f :: r

/-- The head-of-line packet of a receive sub-queue, once its EOP flit is stored. -/
def State.headPacket (s : State) (p : Nat) (vc : BitVec 3) : Option Packet :=
  (headFlits ((s.port p).rx.get [] vc.toNat)).map fun fs =>
    let bs := fs.flatMap (·.body)
    let h := BitVec.ofNat 128 (leVal (bs.take 16))
    { hdr := h, data := (bs.drop 16).take (pktLen h)
      broken := (fs.any (·.broken)) || !((fs.head?.map (·.sop)).getD false), flits := fs }

/-- Take the head-of-line packet out of its sub-queue and owe its credits (R365). -/
def State.popPacket (s : State) (p : Nat) (vc : BitVec 3) (k : Packet) : State :=
  let x := s.port p
  let s := s.setPort p { x with rx := x.rx.put [] vc.toNat ((x.rx.get [] vc.toNat).drop k.flits.length) }
  let s := k.flits.foldl (fun s f =>
    if f.credit then
      let y := s.link f.member.val
      s.setLink f.member.val { y with owed := y.owed.put 0 vc.toNat (y.owed.get 0 vc.toNat + 1) }
    else s) s
  (s.membersOf p).foldl (fun s l => if (s.link l).st == 5 then s.sendIdle l else s) s

/-- Whether a packet is for this device (R373), and not this device's own coordinate under a stale map (R377). -/
def State.packetHere (s : State) (h : BitVec 128) : Bool :=
  decide (s.routeTo (pktDst h) none = .here)

/-- The error record of a link event: class LINK, severity INFO. DESIGN CHOICE: assumption 94. -/
def linkRec (l : Nat) : ErrRec := ErrRec.mk0 0x14 sevInfo (srcOf 5 l)

end Sys2Proof.Machine
end

