-- ==== Sys2Proof/Machine/Pipe.lean ====
section
/-! DEFINITION. What the stage engine shares with the movers and the links (R311–R338): its configuration, the
sequences, the ledger's views, the stage areas, the counters and the input arbiter of FWD_IN. -/

namespace Sys2Proof.Machine

/-! ## Configuration (R329, R348) -/

def State.stgReg (s : State) (off : Nat) : Word := s.pr .stg 0 off
def State.stgField (s : State) (off lo n : Nat) : Nat := ((s.stgReg off).extractLsb' lo n).toNat

/-- STAGES P, STAGE_INDEX s, VSTAGES v and MICROBATCHES M. -/
def State.stgP (s : State) : Nat := s.stgField 0x40 12 12
def State.stgS (s : State) : Nat := s.stgField 0x40 0 12
def State.stgV (s : State) : Nat := s.stgField 0x40 28 2 + 1
def State.stgSched (s : State) : Nat := s.stgField 0x40 30 2
def State.stgM (s : State) : Nat := s.stgField 0x44 0 12
def State.sramSlots (s : State) : Nat := s.stgField 0x48 16 6
def State.cellarSlots (s : State) : Nat := s.stgField 0x48 0 12
def State.stgAhead (s : State) : Nat := s.stgField 0x48 28 4
def State.stgSpare (s : State) : Nat := s.stgField 0x48 24 4
def State.itemWords (s : State) : Nat := s.stgField 0x4C 0 16
def State.itemBytes (s : State) : Nat := s.itemWords * 4096
/-- Words of a granule (R318). -/
def State.granule (s : State) : Nat := 2 ^ s.stgField 0x4C 16 4
/-- Entries of each sequence (R312). -/
def State.seqLen (s : State) : Nat := s.stgV * s.stgM

/-- The in-flight limit W (R329). -/
def State.stgW (s : State) : Nat :=
  let w :=
    if s.stgSched = 0 then min s.stgM (s.stgP - s.stgS)
    else if s.stgSched = 1 then min s.seqLen ((s.stgV - 1) * s.stgP + 2 * (s.stgP - s.stgS - 1) + 1)
    else s.stgM
  let cap := s.stgField 0x44 16 12
  if cap ≠ 0 then min w cap else w

/-- The step runs, and no JOB_FAULT waits to be handled (R339: it acts before all else). -/
def State.stgRuns (s : State) : Bool := s.stg.st == 2 && s.stg.pendingFault.isNone

/-! ## Sequences and tags (R311–R313) -/

/-- Entry `i` of the forward sequence: micro-batch and chunk. -/
def State.fwdSeq (s : State) (i : Nat) : Nat × Nat :=
  if s.stgV = 1 then (i, 0)
  else
    let n := i % (s.stgV * s.stgP)
    (i / (s.stgV * s.stgP) * s.stgP + n % s.stgP, n / s.stgP)

/-- Entry `i` of the backward sequence. -/
def State.bwdSeq (s : State) (i : Nat) : Nat × Nat :=
  let e := s.fwdSeq i
  (e.1, s.stgV - 1 - e.2)

/-- The place of a micro-batch and chunk in the forward sequence; none where it is no entry of the step. -/
def State.fwdIndex (s : State) (mb chunk : Nat) : Option Nat :=
  if s.stgM ≤ mb ∨ s.stgV ≤ chunk ∨ s.stgP = 0 then none
  else if s.stgV = 1 then some mb
  else some (mb / s.stgP * (s.stgV * s.stgP) + chunk * s.stgP + mb % s.stgP)

/-- A stage tag (R313). -/
def stageTag (mb chunk : Nat) (grad : Bool) : BitVec 16 :=
  (0#1) ++ BitVec.ofBool grad ++ BitVec.ofNat 2 chunk ++ BitVec.ofNat 12 mb

def tagMb (t : BitVec 16) : Nat := (t.extractLsb' 0 12).toNat
def tagChunk (t : BitVec 16) : Nat := (t.extractLsb' 12 2).toNat
def tagGrad (t : BitVec 16) : Bool := t.getLsbD 14

/-- The forward-sequence place that a forward tag names. -/
def State.fwdTagIndex (s : State) (t : BitVec 16) : Option Nat :=
  if tagGrad t ∨ t.getLsbD 15 then none else s.fwdIndex (tagMb t) (tagChunk t)

/-- Whether chunk `k` is the first or the last logical stage (R311). -/
def State.firstLogical (s : State) (k : Nat) : Bool := s.stgS == 0 && k == 0
def State.lastLogical (s : State) (k : Nat) : Bool := s.stgS + 1 == s.stgP && k + 1 == s.stgV

/-! ## Views -/

def State.setLedger (s : State) (e : Nat) (v : LedgerEnt) : State :=
  { s with stg := { s.stg with ledger := s.stg.ledger.put LedgerEnt.init e v } }

/-- The ledger entry of a micro-batch and chunk. -/
def State.ledgerFor (s : State) (mb chunk : Nat) : Option Nat :=
  (s.stg.ledger.find? fun e => decide (e.2.st ≠ 0) && e.2.tag == stageTag mb chunk false).map (·.1)

/-- Ledger entries that are not FREE. -/
def State.ledgerUsed (s : State) : Nat := (s.stg.ledger.filter fun e => decide (e.2.st ≠ 0)).length

/-- The lowest SRAM slot that no ledger entry holds, and how many are free. -/
def State.slotTaken (s : State) (j : Nat) : Bool := s.stg.ledger.any fun e => decide (e.2.st ≠ 0) && e.2.slot.toNat == j
/-- DEDUCED: assumption 83. -/
def State.freeSlots (s : State) : List Nat := (List.range s.sramSlots).filter fun j => !s.slotTaken j

/-- The cellar stash table (R328). -/
def State.cstash (s : State) (j : Nat) : Word := s.stg.cstash.get 0 j
def State.setCstash (s : State) (j : Nat) (v : Word) : State :=
  { s with stg := { s.stg with cstash := s.stg.cstash.put 0 j v } }

/-- The cellar slot that holds a micro-batch's stash. -/
def State.cstashFor (s : State) (mb chunk : Nat) : Option Nat :=
  (s.stg.cstash.find? fun e => e.2.getLsbD 31 && (e.2.extractLsb' 28 2).toNat == chunk && e.2.toNat % 4096 == mb).map
    (·.1)

/-- Whether a micro-batch lies in the prefetch window (R332). -/
def State.inWindow (s : State) (mb chunk : Nat) : Bool :=
  (List.range s.stgAhead).any fun i => decide (s.stg.bwd + i < s.seqLen) && s.bwdSeq (s.stg.bwd + i) == (mb, chunk)

/-! ## Areas and counters (R317, R324) -/

/-- The scratchpad address of word `w` of part `j` of a stage area that begins at `base`: parts of ITEM_WORDS words,
striped over the clusters. -/
def State.areaWord (s : State) (base j w : Nat) : Nat :=
  base + j * s.itemWords * 64 + w / 64 * 4096 + w % 64 * 0x8000000

/-- The device address of the handle in a field of the STG page. -/
def State.stgHandle (s : State) (off lo : Nat) : Handle := s.handleOf 0 (s.stgField off lo 12)

/-- Word addresses of SRAM stash slot `j`, gradient buffer `g` and send buffer `d`. -/
def State.slotWord (s : State) (j w : Nat) : Nat := s.areaWord (s.stgHandle 0x50 16).dev.toNat j w
def State.gradWord (s : State) (g w : Nat) : Nat := s.areaWord (s.stgHandle 0x54 16).dev.toNat g w
def State.outWord (s : State) (d w : Nat) : Nat := s.areaWord (s.stgHandle 0x54 0).dev.toNat d w

/-- The offset of cellar slot `j` in partition 0's cellar view. -/
def State.cslotAddr (s : State) (j : Nat) : Nat := (s.stgHandle 0x50 0).dev.toNat % 0x1000000000 + j * s.itemBytes

/-- Write one word of a stage area; a bank that is not partition 0's is a fault of the job (R180, R39). -/
def State.putWord (s : State) (addr : Nat) (data : List Byte) : State :=
  (s.partWrite 0 0 addr data).getD ((s.scopeNote 0 addr data.length).jobCause 1)

/-- Add granules to a stage counter of cluster 0. -/
def State.countGranules (s : State) (n k : Nat) : State :=
  if k = 0 then s else s.applyMsgs 0 [.add 0 n (BitVec.ofNat 16 k) none]

/-- Granules that end in going from `a` to `b` captured words; `fin` is the item's end, where a part granule counts as
one more (R318). -/
def State.granulesIn (s : State) (a b : Nat) (fin : Bool) : Nat :=
  b / s.granule - a / s.granule + (if fin ∧ b % s.granule ≠ 0 then 1 else 0)

/-! ## The input arbiter of FWD_IN (R322) -/

def State.stgTags (s : State) (q : Nat) : List (BitVec 16) := s.stg.tags.get [] q

def State.setStgTags (s : State) (q : Nat) (ts : List (BitVec 16)) : State :=
  { s with stg := { s.stg with tags := s.stg.tags.put [] q ts } }

/-- What the arbiter does with an item that comes to the head of a source. -/
inductive Arbit where
  | take | wait | bad
deriving DecidableEq, Repr

/-- The arbiter takes the item whose tag is the next unadmitted entry, once none with that tag is in FWD_IN.
DEDUCED: assumption 83. -/
def State.arbitrate (s : State) (t : BitVec 16) : Arbit :=
  match s.fwdTagIndex t with
  | none => .bad
  | some i =>
    if i < s.stg.admitted then .bad
    else if i = s.stg.admitted ∧ !(s.stgTags 0).contains t ∧ (s.que1 (.stg 0)).inWrite = 0 then .take
    else .wait

/-- STAGE_FEED's next word, number `w` of its item (R320): none where the source waits; the flag says whether the word
entered FWD_IN. A tag that no rule lets in raises JOB_FAULT (R322). -/
def State.feedWord (s : State) (t : BitVec 16) (w : Nat) (data : List Byte) : Option (Bool × State) :=
  if !s.stgRuns ∨ s.credits (.stg 0) = 0 then none
  else if w = 0 then
    match s.arbitrate t with
    | .bad => some (false, s.jobCause 3 (t.extractLsb' 0 12))
    | .wait => none
    | .take => some (true, (s.setStgTags 0 (s.stgTags 0 ++ [t])).queWrite (.stg 0) data (s.itemWords ≤ 1))
  else some (true, s.queWrite (.stg 0) data (decide (s.itemWords ≤ w + 1)))

end Sys2Proof.Machine
end

