-- ==== Sys2Proof/Machine/Mover.lean ====
section
/-! DEFINITION. The movers (R231–R248): descriptors, the linear stream in chunks of 4 KiB, skewing and the plane
coder, and what a chunk waits for, does and advances. -/

namespace Sys2Proof.Machine

/-! ## Descriptors (R233, R465, R467) -/

/-- The descriptor of a mover record. The completion tag is the record's index in its buffer. STAGE_FEED (R320) is a
linear copy of `item` bytes, which is operation 5 here. DESIGN CHOICE: assumption 51. -/
def LRec.descriptor (l : LRec) (item : Nat) : ChanCmd :=
  let op := if l.isFeed then 5 else l.opcode.toNat % 16
  let c0 := BitVec.ofNat 32 (if l.isFeed then item else l.immF 32 32)
  let c1 := BitVec.ofNat 16 (if l.isFeed then 1 else l.immF 16 16)
  let block := !l.params.isEmpty
  let plane := c0 * c1.zeroExtend 32
  let s1 (k : Nat) := if block then BitVec.ofNat 32 (l.paramF k 32 32) else c0
  let s2 (k : Nat) := if block then BitVec.ofNat 32 (l.paramF k 0 32) else plane
  let kind : BitVec 2 := if !l.sigEn || l.isFeed then 0 else if l.sigArrive then 2 else 1
  { ref := l.ref
    src := if op = 1 then l.param 2 else BitVec.ofNat 64 (l.addr 0)
    dst := BitVec.ofNat 64 (l.addr 1)
    aux := if op = 2 then (l.param 3).extractLsb' 0 32 |>.zeroExtend 64 else BitVec.ofNat 64 (l.addr 2)
    c0 := c0, c1 := c1, c2 := if l.isFeed then 1 else BitVec.ofNat 16 (l.immF 0 16)
    srcS1 := s1 0, srcS2 := s2 0, dstS1 := s1 1, dstS2 := s2 1
    done := 0, outDone := 0
    mode := if l.isFeed then 0x5000 else
      BitVec.ofNat 4 op ++ BitVec.ofBool (l.sub.getLsbD 6) ++ BitVec.ofBool (l.sub.getLsbD 3) ++
      BitVec.ofNat 2 (l.subF 4 2) ++ (0#8)
    ctr := kind ++ (0#2) ++ l.sigVid
    inc := l.sigAmount.extractLsb' 0 8 ++ l.sigAmount.extractLsb' 8 4 ++ (0#4)
    tag := l.ref.index, wait := 0, since := 0, hostData := none, collided := 0, page := none, sent := false
    awaits := [], paid := 0, failAt := none }

/-- The length of the linear stream (R235, R239, R240). -/
def ChanCmd.total (c : ChanCmd) : Nat :=
  if c.op = 2 then c.skewSlots * c.skewQuarters * (16 * c.skewBits) else c.c0.toNat * c.c1.toNat * c.c2.toNat

/-- Bytes of the chunk at the resume point. -/
def ChanCmd.chunkLen (c : ChanCmd) : Nat := min 4096 (c.total - 4096 * c.done.toNat)

/-- The pieces, one row each, of `n` bytes of a strided stream from byte `at_` (R235). -/
def rowPieces (base : BitVec 64) (s1 s2 : BitVec 32) (c0 c1 : Nat) : Nat → Nat → Nat → List (Nat × Nat)
  | 0, _, _ => []
  | fuel + 1, at_, n =>
    if n = 0 ∨ c0 = 0 ∨ c1 = 0 then []
    else
      let i0 := at_ % c0
      let i1 := at_ / c0 % c1
      let i2 := at_ / c0 / c1
      let k := min n (c0 - i0)
      (addrAdd base (i2 * s2.toInt + i1 * s1.toInt + i0), k) :: rowPieces base s1 s2 c0 c1 fuel (at_ + k) (n - k)

/-- The slots of SKEW's linear stream that a chunk touches: first slot index (over quarters), and how many. -/
def ChanCmd.skewSpan (c : ChanCmd) : Nat × Nat :=
  let sb := 16 * c.skewBits
  let lo := 4096 * c.done.toNat / sb
  (lo, (4096 * c.done.toNat + c.chunkLen + sb - 1) / sb - lo)

/-- The source of lane `j` of slot `u` in quarter `q` (R94, R95, R239): address, bytes and bit offset; none where the
lane holds zero. -/
def ChanCmd.lane (c : ChanCmd) (u q j : Nat) : Option (Nat × Nat × Nat) :=
  let rows := c.skewRows
  let row : Option Nat :=
    if c.skewRing then some ((u + rows * 128 - j) % rows) else if j ≤ u ∧ u - j < rows then some (u - j) else none
  row.map fun r =>
    let bit := (q * 128 + j) * c.skewBits
    (addrAdd c.src (r * c.srcS1.toInt + (bit / 8 : Nat)), (bit % 8 + c.skewBits + 7) / 8, bit % 8)

/-- The lanes of the slots a chunk touches, in slot order. -/
def ChanCmd.lanes (c : ChanCmd) : List (Option (Nat × Nat × Nat)) :=
  let sp := c.skewSpan
  (List.range sp.2).flatMap fun i =>
    let k := sp.1 + i
    (List.range 128).map fun j => c.lane (k / c.skewQuarters) (k % c.skewQuarters) j

/-- The source bytes that remain of UNPACK's coded range, at most one block. -/
def ChanCmd.codedLeft (c : ChanCmd) (l : LRec) : Nat :=
  match l.opnd 0 with
  | some o => min 4104 (o.hi.toNat + 1 - o.addr.toNat - c.outDone.toNat)
  | none => 0

/-- What the chunk at the resume point reads: pieces of the source, then of the reference. -/
def ChanCmd.srcPieces (c : ChanCmd) (l : LRec) : List (Nat × Nat) × List (Nat × Nat) :=
  let at_ := 4096 * c.done.toNat
  let ref := if c.xorRef then [((c.aux + BitVec.ofNat 64 at_).toNat, c.chunkLen)] else []
  match c.op with
  | 0 | 5 => (rowPieces c.src c.srcS1 c.srcS2 c.c0.toNat c.c1.toNat 4097 at_ c.chunkLen, [])
  | 2 => (c.lanes.filterMap fun x => x.map fun y => (y.1, y.2.1), [])
  | 3 => (rowPieces c.src c.srcS1 c.srcS2 c.c0.toNat c.c1.toNat 4097 at_ c.chunkLen, ref)
  | 4 => ([((c.src + c.outDone.zeroExtend 64).toNat, c.codedLeft l)], ref)
  | _ => ([], [])

/-- Where the chunk at the resume point is written; `n` bytes of coded output for PACK. -/
def ChanCmd.dstPieces (c : ChanCmd) (n : Nat) : List (Nat × Nat) :=
  let at_ := 4096 * c.done.toNat
  match c.op with
  | 2 =>
    let sb := 16 * c.skewBits
    let sp := c.skewSpan
    (List.range sp.2).filterMap fun i =>
      let k := sp.1 + i
      let lo := max at_ (k * sb)
      let hi := min (at_ + c.chunkLen) ((k + 1) * sb)
      if lo < hi then
        some (addrAdd c.dst ((k % c.skewQuarters) * c.dstS1.toInt + (k / c.skewQuarters * sb + (lo - k * sb) : Nat)), hi - lo)
      else none
  | 3 => [((c.dst + c.outDone.zeroExtend 64).toNat, n)]
  | 5 => []
  | _ => rowPieces c.dst c.dstS1 c.dstS2 c.c0.toNat c.c1.toNat 4097 at_ c.chunkLen

/-! ## The plane coder (R240, R241) -/

/-- Bit `b` of element `i` of a block of `w`-bit elements. -/
def planeBit (bs : Array Byte) (w b i : Nat) : Bool := (bs.getD (i * (w / 8) + b / 8) 0).getLsbD (b % 8)

/-- Plane `b` of a block, zero-filled to 4,096 B. -/
def plane (bs : Array Byte) (w b : Nat) : List Byte :=
  (List.range (4096 / w)).map fun d =>
    (List.range 8).foldl (fun v k => if planeBit bs w b (8 * d + k) then v ||| (1#8 <<< k) else v) 0

/-- A coded block. DEDUCED: assumption 55. -/
def packBlock (w : Nat) (bs : List Byte) : List Byte :=
  let a := bs.toArray
  let ps := (List.range w).map fun b => plane a w b
  let mask := (List.range w).foldl (fun m b => if (ps.getD b []).all (· == 0) then m else m + 2 ^ b) 0
  let code : Nat := if w = 8 then 0 else if w = 16 then 1 else 2
  leBytes 8 (code * 2 ^ 44 + (bs.length - 1) * 2 ^ 32 + mask) ++
    ((List.range w).filter fun b => mask.testBit b).flatMap fun b => ps.getD b []

/-- Decode one block (R241): the bytes consumed and the block, of which `want` bytes are expected.
DEDUCED: assumption 55. -/
def unpackBlock (w want : Nat) (src : List Byte) : Option (Nat × List Byte) :=
  let a := src.toArray
  let h := leVal (src.take 8)
  let mask := h % 2 ^ 32
  let len := h / 2 ^ 32 % 4096 + 1
  let code : Nat := if w = 8 then 0 else if w = 16 then 1 else 2
  let on := (List.range w).filter fun b => mask.testBit b
  let size := 8 + on.length * (4096 / w)
  if src.length < 8 ∨ h / 2 ^ 46 ≠ 0 ∨ h / 2 ^ 44 % 4 ≠ code ∨ 2 ^ w ≤ mask ∨ len ≠ want ∨ src.length < size then none
  else
    some (size, (List.range len).map fun i =>
      (List.range 8).foldl (fun v k =>
        let e := i / (w / 8)
        let b := 8 * (i % (w / 8)) + k
        match on.findIdx? (· == b) with
        | some x => if (a.getD (8 + x * (4096 / w) + e / 8) 0).getLsbD (e % 8) then v ||| (1#8 <<< k) else v
        | none => v) 0)

/-! ## What a chunk meets -/

/-- Why a chunk does not land now. -/
inductive ChunkStop where
  | fault (cause : BitVec 16)
  | held (page : Option Nat)
  | miss (write : Bool) (vpn : Nat)
  | host
deriving DecidableEq, Repr

/-- The request that a mover makes at a bank. -/
def ChanCmd.req (c : ChanCmd) (a : Nat) : NocReq :=
  { owner := if h : c.ref.part.val < 64 then .part ⟨c.ref.part.val, h⟩ else .dev, ref := some c.ref, master := 4
    addr := BitVec.ofNat 64 a }

/-- Every bank of a scratchpad range lets the channel in. -/
def State.moverPad (s : State) (c : ChanCmd) (a n : Nat) : Option ChunkStop :=
  if 0x200000000 < a + n then some (.fault 0x0004)
  else
    (List.range (padBank (a + n - 1) - padBank a + 1)).foldl (fun acc i => match acc with
      | some e => some e
      | none => match s.bankGate (c.req a) (padBank a + i) with
        | .ok => none
        | .fault x => some (.fault x)
        | _ => some (.held none)) none

/-- The answer of the cellar view of partition `p` as a chunk meets it. -/
def celStop (p : Nat) (write : Bool) : CelFault → ChunkStop
  | .miss v => .miss write v
  | .rights => .fault 0x001A
  | .scrubbing v => .held (some (p * 32768 + v))
  | .poison => .fault 0x001D

/-- Whether every 4 KiB page of a host range is in the translation cache of a function (R227). -/
def State.translated (s : State) (f a n : Nat) : Bool :=
  (List.range ((a + n - 1) / 4096 - a / 4096 + 1)).all fun i => s.cel.atc.contains (Fin.ofNat 65 f, a / 4096 + i)

/-- Read one piece; `hd` is what is left of the host data that has arrived. -/
def State.readPiece (s : State) (c : ChanCmd) (hd : Option (List Byte)) (a n : Nat) :
    Except ChunkStop (List Byte × Option (List Byte)) :=
  let p := c.ref.part.val
  match windowOf (BitVec.ofNat 64 a) with
  | .pad => match s.moverPad c a n with
    | some e => .error e
    | none => if s.poisoned a n then .error (.fault 0x001D) else .ok (s.padRead a n, hd)
  | .celView => match s.viewRead p (a % 0x1000000000) n with
    | .ok bs => .ok (bs, hd)
    | .error e => .error (celStop p false e)
  | .celPhys =>
    if p < 64 then .error (.fault 0x0005)
    else if s.halfBarred (a - 0x1000000000) n then .error (.fault 0x0004)
    else if s.celPoisoned (a - 0x1000000000) n then .error (.fault 0x001D)
    else .ok (s.celRead (s.keyOf 64) (a - 0x1000000000) n, hd)
  | .host => match hd with
    | some bs => .ok (bs.take n, some (bs.drop n))
    | none => .error .host
  | .hole =>
    if p = 0 ∧ infoBase ≤ a ∧ a + n ≤ infoBase + 64 then .ok ((s.stg.info.drop (a - infoBase)).take n, hd)
    else .error (.fault 0x0004)
  | _ => .error (.fault 0x0004)

/-- What the chunk at the resume point reads. UNPACK reads a block's header first, and then the planes that its mask
names (R240, R241); from host memory, up to a whole block. DEDUCED: assumption 140. -/
def State.chunkPieces (s : State) (c : ChanCmd) (l : LRec) : List (Nat × Nat) × List (Nat × Nat) :=
  let p := c.srcPieces l
  if c.op ≠ 4 then p
  else
    (p.1.map fun q =>
      if windowOf (BitVec.ofNat 64 q.1) == .host then q
      else match s.readPiece c none q.1 (min 8 q.2) with
        | .ok (h, _) =>
          let on := (List.range 32).filter fun b => (leVal (h.take 4)).testBit b
          (q.1, min q.2 (8 + on.length * (4096 / c.width)))
        | .error _ => (q.1, min 8 q.2), p.2)

/-- The bytes that the chunk at the resume point reads, `k` of them coded where it decodes (MOV.RD_BYTES). -/
def ChanCmd.readBytes (c : ChanCmd) (k : Nat) : Nat :=
  let ref := if c.xorRef then c.chunkLen else 0
  match c.op with
  | 1 => 0
  | 2 => (c.lanes.filterMap id).length * c.skewBits / 8
  | 4 => k + ref
  | _ => c.chunkLen + ref

/-- Read the pieces in order. -/
def State.gather (s : State) (c : ChanCmd) (ps : List (Nat × Nat)) (hd : Option (List Byte)) :
    Except ChunkStop (List Byte × Option (List Byte)) :=
  ps.foldl (fun acc q => match acc with
    | .error e => .error e
    | .ok (bs, hd) => match s.readPiece c hd q.1 q.2 with
      | .ok (x, hd) => .ok (bs ++ x, hd)
      | .error e => .error e) (.ok ([], hd))

/-- The first byte of the pieces whose read stops. DEDUCED: assumption 54. -/
def State.readFailAt (s : State) (c : ChanCmd) (hd : Option (List Byte)) (ps : List (Nat × Nat)) : Option (BitVec 64) :=
  ps.findSome? fun q => ((List.range q.2).find? fun i => match s.readPiece c hd (q.1 + i) 1 with
    | .ok _ => false
    | .error _ => true).map fun i => BitVec.ofNat 64 (q.1 + i)

/-- The pieces of a list that lie in host memory. -/
def hostPieces (ps : List (Nat × Nat)) : List (Nat × Nat) :=
  (ps.filter fun q => windowOf (BitVec.ofNat 64 q.1) == .host).map fun q => (q.1 % 2 ^ 63, q.2)

/-- The slots of SKEW from the bytes of their lanes (R94, R239). -/
def skewBytes (bits : Nat) (lanes : List (Option (Nat × Nat × Nat))) (bs : List Byte) : List Byte :=
  let vals := (lanes.foldl (fun (acc : List Nat × List Byte) x => match x with
    | none => (0 :: acc.1, acc.2)
    | some y => (leVal (acc.2.take y.2.1) / 2 ^ y.2.2 % 2 ^ bits :: acc.1, acc.2.drop y.2.1)) ([], bs)).1
  let word := vals.foldl (fun w v => w * 2 ^ bits + v) 0
  leBytes (16 * bits * (lanes.length / 128)) word

/-- The bytes that a chunk writes, and the coded bytes it produces or consumes. -/
def ChanCmd.output (c : ChanCmd) (src ref : List Byte) : Except ChunkStop (List Byte × Nat) :=
  let xor (bs : List Byte) : List Byte := if c.xorRef then List.zipWith (· ^^^ ·) bs ref else bs
  match c.op with
  | 0 | 5 => .ok (src, 0)
  | 1 => .ok ((List.range c.chunkLen).map fun i => c.src.extractLsb' (8 * (i % 8)) 8, 0)
  | 2 =>
    let sb := 16 * c.skewBits
    .ok (((skewBytes c.skewBits c.lanes src).drop (4096 * c.done.toNat - c.skewSpan.1 * sb)).take c.chunkLen, 0)
  | 3 => let out := packBlock c.width (xor src); .ok (out, out.length)
  | _ => match unpackBlock c.width c.chunkLen src with
    | some (k, bs) => .ok (xor bs, k)
    | none => .error (.fault 0x001C)

/-- Whether one destination piece may be written; remote pieces are checked at their destination. -/
def State.writeStop (s : State) (c : ChanCmd) (a n : Nat) : Option ChunkStop :=
  let p := c.ref.part.val
  if s.scopeHit p a n then some (.fault 0x0024)
  else match windowOf (BitVec.ofNat 64 a) with
    | .pad => s.moverPad c a n
    | .celView => (s.viewWritable p (a % 0x1000000000) n).map (celStop p true)
    | .celPhys => if p < 64 then some (.fault 0x0005) else none
    | .host => if s.translated (fnOf p) (a % 2 ^ 63) n then none else some .host
    | .remote => if s.reachable (BitVec.ofNat 14 (a / 2 ^ 48)) then none else some (.fault 0x000C)
    | _ => some (.fault 0x0004)

/-- The first byte of the pieces whose write stops. DEDUCED: assumption 54. -/
def State.writeFailAt (s : State) (c : ChanCmd) (ps : List (Nat × Nat)) : Option (BitVec 64) :=
  ps.findSome? fun q => ((List.range q.2).find? fun i => (s.writeStop c (q.1 + i) 1).isSome).map fun i =>
    BitVec.ofNat 64 (q.1 + i)

/-- Write one piece that `writeStop` let through. -/
def State.writePiece (s : State) (c : ChanCmd) (a : Nat) (data : List Byte) : State :=
  let p := c.ref.part.val
  match windowOf (BitVec.ofNat 64 a) with
  | .pad => (s.countRows (some p) a data.length true).bankWrite a data
  | .celView => s.viewWrite p (a % 0x1000000000) data
  | .celPhys => s.celWrite (s.keyOf 64) (a - 0x1000000000) data
  | .host => if s.mayRequest (fnOf p) then s.emit (.write (Fin.ofNat 65 (fnOf p)) (BitVec.ofNat 64 (a % 2 ^ 63)) data)
    else s
  | _ => s

/-- The tag that a CMPL returns for a WRITE (R362): the low 40 bits of its address on the destination.
DEDUCED: assumption 52. -/
def cmplTag (addr : BitVec 48) : BitVec 40 := addr.extractLsb' 0 40

/-- Send one remote piece as WRITE packets; the last of an increment event carries the increment (R237, R359). -/
def State.sendPieces (s : State) (c : ChanCmd) (vid : Option (BitVec 12)) :
    List (Nat × List Byte) → State × List (BitVec 40)
  | [] => (s, [])
  | (a, data) :: rest =>
    let p := c.ref.part.val
    let dst := BitVec.ofNat 14 (a / 2 ^ 48)
    let addr := BitVec.ofNat 48 a
    let inc := if rest.isEmpty then vid else none
    let peer := (s.pr .route 0 (0x60 + 4 * p)).toNat % 64
    let h := mkPkt addr (inc.getD 0) (if inc.isSome then c.amount.truncate 8 else 0) data.length peer
      (if inc.isSome then 2 else 1) s.selfLogical dst
    let s := (s.sendPacket h data).getD s
    let s := s.chargeLink p data.length
    let (s, ts) := State.sendPieces s c vid rest
    (s, cmplTag addr :: ts)

/-- Draw the tokens of the chunk's beats, as far as the regulators allow (R232, R508). DEDUCED: assumption 52. -/
def State.payBeats (s : State) (c : ChanCmd) (cel host : Nat) : Nat → State × ChanCmd
  | 0 => (s, c)
  | fuel + 1 =>
    let p := c.ref.part.val
    let t (r : Nat) := s.parts.tokens.get 0 (p * 5 + r)
    let ok := decide (64 ≤ p) || (decide (0 < t 0) && decide (cel = 0 ∨ (256 * cel : Int) - 64 < t 1) &&
      decide (host = 0 ∨ 0 < t 3))
    if c.paid * 256 < c.chunkLen ∧ ok then
      let s := s.charge p 0 256
      let s := s.charge p 1 (256 * cel)
      let s := s.charge p 3 (256 * host)
      State.payBeats s { c with paid := c.paid + 1 } cel host fuel
    else (s, c)

/-- The step boundary of a mover and the end of a chunk (R235, R237, R245): DONE advances, an increment event is
issued, the command completes behind its last chunk. -/
def State.advanceChan (s : State) (n : Nat) (c : ChanCmd) (l : LRec) (wrote k : Nat) (remote : Bool) (last : Nat) :
    State :=
  let p := c.ref.part.val
  let cl := n / 8
  let s := (s.bump64 .mov cl 0x60 (c.readBytes k)).bump64 .mov cl 0x68 wrote
  let src := s.chunkPieces c l
  let pads := (src.1 ++ src.2).filter fun q => windowOf (BitVec.ofNat 64 q.1) == .pad
  let s := pads.foldl (fun s q => s.countRows (some p) q.1 q.2 false) s
  let s := if p < 64 ∧ n % 8 < 6 then s.bump64 .part p 0x440 wrote else s
  let s := if c.op = 3 ∨ c.op = 4 then (s.bump64 .mov cl 0x80 c.chunkLen).bump64 .mov cl 0x88 k else s
  let fin := decide (c.total ≤ 4096 * (c.done.toNat + 1))
  let c' := { c with
    done := c.done + 1
    outDone := c.outDone + BitVec.ofNat 32 k
    wait := 0, hostData := none, collided := 0, page := none, sent := false, awaits := [], paid := 0, failAt := none }
  let event := c.ctrKind = 2 && (fin || c'.done.toNat % c.grain == 0)
  let s := if event && !remote then
      match s.incTarget (c.req last) (ArrInc.mk c.vid c.amount) with
      | some m => { s with pad := { s.pad with incs := s.pad.incs ++ [m], nextId := s.pad.nextId + 1 } }
      | none => s
    else s
  let s := if p < 64 then s.applyClears p else s
  if fin then
    let s := s.setChan n none
    let s := if c.ctrKind = 1 then s.directSignal p c.vid.toNat c.amount else s
    s.endFlight l.ref true
  else s.setChan n (some c')

/-- Stop a chunk: a fault, a hold, a miss record (R225), or a translation that fails (R228). -/
def State.stopChunk (s : State) (n : Nat) (c : ChanCmd) (hostOk : Bool) (pages : List Nat) (e : ChunkStop) : State :=
  let p := c.ref.part.val
  match e with
  | .fault x => (if x = 0x0024 then s.scopeRefuse else if x = 0x000C then s.bump .part p 0x4D4 else s).faultChan n c x
  | .held page =>
    s.setChan n (some { c with wait := waitHeld, page, since := if c.wait = waitHeld then c.since else s.sys.time })
  | .miss w v =>
    let s := (s.bump .mov (n / 8) 0x70).setChan n (some { c with wait := waitMiss, since := s.sys.time })
    let s := if p < 64 then s.bump .part p 0x44C else s
    ({ s with cel := { s.cel with
        misses := s.cel.misses ++ [Miss.mk w (Fin.ofNat 64 p) (Fin.ofNat 512 n) (Fin.ofNat 32768 v)] } }).raise .cel 0 1
  | .host =>
    let f := fnOf p
    if !s.mayRequest f then s.faultChan n c 0x001B
    else if hostOk then
      { s with cel := { s.cel with
          atc := (s.cel.atc ++ (pages.map fun x => (Fin.ofNat 65 f, x)).filter fun e => !s.cel.atc.contains e).reverse.take
            4096 |>.reverse } }
    else if s.cel.prg.get false n then s
    else
      let a := (pages.find? fun x => !s.cel.atc.contains (Fin.ofNat 65 f, x)).getD 0 * 4096
      let s := (s.bump .mov (n / 8) 0x74).setChan n (some { c with wait := waitPage, since := s.sys.time })
      let s := if p < 64 then s.bump .part p 0x450 else s
      { s with cel := { s.cel with prg := s.cel.prg.put false n true } }.emit
        (.pageRequest (Fin.ofNat 65 f) (BitVec.ofNat 9 n) (BitVec.ofNat 64 a) (c.op != 0))

/-- The 4 KiB pages of host pieces. -/
def pagesOf (ps : List (Nat × Nat)) : List Nat :=
  ps.flatMap fun q => (List.range ((q.1 + q.2 - 1) / 4096 - q.1 / 4096 + 1)).map (· + q.1 / 4096)

/-- Send the host reads of a chunk (R227): one request per piece, answered together. DESIGN CHOICE: assumption 51. -/
def State.readHost (s : State) (n : Nat) (c : ChanCmd) (ps : List (Nat × Nat)) : State :=
  let f := Fin.ofNat 65 (fnOf c.ref.part.val)
  let id := s.host.nextRead
  let s := { s with host := { s.host with
    reads := s.host.reads ++ [HostRead.mk id f (some c.ref) (.mover n) ps], nextRead := id + 1 } }
  let s := ps.foldl (fun s q => s.emit (.read f id (BitVec.ofNat 64 q.1) q.2)) s
  s.setChan n (some { c with wait := waitData })

/-- Cut pieces and their data into packets' data. -/
def packetPieces (ps : List (Nat × Nat)) (data : List Byte) : List (Nat × List Byte) :=
  (ps.foldl (fun (acc : List (Nat × List Byte) × List Byte) q =>
    let cuts := chunksOf 3888 8 (acc.2.take q.2)
    (acc.1 ++ ((List.range cuts.length).map fun i => (q.1 + 3888 * i, cuts.getD i [])), acc.2.drop q.2)) ([], data)).1

/-- Write the chunk's bytes (R235): all at once here, or as packets toward a remote device, which land when their
CMPL packets have arrived (R362). -/
def State.writeChunk (s : State) (n : Nat) (c : ChanCmd) (l : LRec) (out : List Byte) (k : Nat) (collide : Bool) :
    State :=
  let ps := c.dstPieces out.length
  let win := (ps.head?.map fun q => windowOf (BitVec.ofNat 64 q.1)).getD .pad
  let p := c.ref.part.val
  let fin := decide (c.total ≤ 4096 * (c.done.toNat + 1))
  let event := c.ctrKind = 2 && (fin || (c.done.toNat + 1) % c.grain == 0)
  let last := (ps.getLast?.map (·.1)).getD 0
  if win = .remote then
    let (s, ts) := s.sendPieces c (if event then some c.vid else none) (packetPieces ps out)
    let first := (ps.head?.map fun q => BitVec.ofNat 64 q.1)
    s.setChan n (some { c with sent := true, awaits := ts, wait := waitNone, since := s.sys.time, failAt := first })
  else if win = .pad ∧ event ∧ (s.incTarget (c.req last) (ArrInc.mk c.vid c.amount)).isNone then
    s.faultChan n { c with failAt := some (BitVec.ofNat 64 last) } 0x0010
  else if win = .pad ∧ collide then
    let s := s.bump .clu (padCluster last) 0x520
    let s := if p < 64 then s.bump .part p 0x410 else s
    if 3 ≤ c.collided then s.faultChan n { c with failAt := some (BitVec.ofNat 64 last) } 0x0015
    else
      let s := s.bump .mov (n / 8) 0x7C
      s.setChan n (some { c with collided := c.collided + 1, wait := waitCollide })
  else
    let s := (ps.foldl (fun (acc : State × List Byte) q =>
      (acc.1.writePiece c q.1 (acc.2.take q.2), acc.2.drop q.2)) (s, out)).1
    s.advanceChan n c l out.length k false last

/-- Attempt the chunk at a channel's resume point: its tokens, its fence, its source, its destination, its writes. -/
def State.tryChunk (s : State) (n : Nat) (c : ChanCmd) (l : LRec) (hostOk collide : Bool) : State :=
  let pieces := s.chunkPieces c l
  let rd := pieces.1 ++ pieces.2
  let inCel (ps : List (Nat × Nat)) : Nat := if ps.any fun q => windowOf (BitVec.ofNat 64 q.1) == .celView then 1 else 0
  let inHost (ps : List (Nat × Nat)) : Nat := if ps.any fun q => windowOf (BitVec.ofNat 64 q.1) == .host then 1 else 0
  let wr := c.dstPieces c.chunkLen
  let (s, c) := s.payBeats c (inCel rd + inCel wr) (inHost rd + inHost wr) 16
  let c := { c with failAt := none }
  let s := s.setChan n (some c)
  if c.paid * 256 < c.chunkLen then s.setChan n (some { c with wait := waitTokens })
  else if c.fence && decide (c.done = 0) && (s.pad.incs.any fun m => m.part == c.ref.part.val) then
    s.setChan n (some { c with wait := 6 })
  else
    let hp := hostPieces rd
    match s.gather c rd c.hostData with
    | .error .host =>
      if hp.all fun q => s.translated (fnOf c.ref.part.val) q.1 q.2 then
        let c := { c with failAt := s.readFailAt c none rd }
        if s.mayRequest (fnOf c.ref.part.val) then s.readHost n c hp else s.faultChan n c 0x001B
      else s.stopChunk n { c with failAt := s.readFailAt c none rd } hostOk (pagesOf hp) .host
    | .error (.fault 0x001D) =>
      let s := rd.foldl (fun s q => match windowOf (BitVec.ofNat 64 q.1) with
        | .pad => s.notePoison q.1 q.2
        | .celView => s.noteView c.ref.part.val (q.1 % 0x1000000000) q.2
        | .celPhys => s.noteCel (q.1 - 0x1000000000) q.2
        | _ => s) s
      s.faultChan n { c with failAt := s.readFailAt c c.hostData rd } 0x001D
    | .error e => s.stopChunk n { c with failAt := s.readFailAt c c.hostData rd } hostOk [] e
    | .ok (bs, _) =>
      let nsrc := (pieces.1.map (·.2)).foldl (· + ·) 0
      match c.output (bs.take nsrc) (bs.drop nsrc) with
      | .error e => s.stopChunk n c hostOk [] e
      | .ok (out, k) =>
        if c.op = 5 then
          match s.feedWord l.sub c.done.toNat out with
          | some (true, s) => s.advanceChan n c l out.length 0 true 0
          | some (false, s) => s
          | none => s.stopChunk n c hostOk [] (.held none)
        else
        let wr := c.dstPieces out.length
        match wr.findSome? fun q => s.writeStop c q.1 q.2 with
        | some e => s.stopChunk n { c with failAt := s.writeFailAt c wr } hostOk (pagesOf (hostPieces wr)) e
        | none => s.writeChunk n c l out k collide

/-- Attempt the chunk of a channel; one that a scrub held is served through its entry even where a write has cleared
V since (R223). DEDUCED: assumption 139. -/
def State.retryChunk (s : State) (n : Nat) (c : ChanCmd) (l : LRec) (hostOk collide : Bool) : State :=
  match c.page with
  | some key =>
    if c.wait = waitHeld then
      let t := ({ s with cel := { s.cel with unmapping := s.cel.unmapping.put none key none } }).tryChunk n c l hostOk collide
      { t with cel := { t.cel with unmapping := s.cel.unmapping } }
    else s.tryChunk n c l hostOk collide
  | none => s.tryChunk n c l hostOk collide

/-! ## The rows -/

/-- The oldest mover record of a channel that has not started (R236); it may be held at its pre-wait. -/
def State.nextMover (s : State) (n : Nat) : Option Flight :=
  s.fe.flights.find? fun f =>
    f.lrec.usesChan && (f.st == .queued || f.st == .waiting) && s.moverChan f.lrec == n

/-- Start a mover record on its idle channel (R236). -/
def State.startMover (s : State) (op : BitVec 8) (r : RecRef) : State :=
  match s.flight? r with
  | none => s
  | some f =>
    let n := s.moverChan f.lrec
    if (s.chanOf n).isSome || (s.nextMover n).map (·.lrec.ref) ≠ some r then s
    else s.start r op fun l s => s.setChan n (some (l.descriptor s.itemBytes))

/-- COPY (R235). -/
def execCopy (r : RecRef) (s : State) : Out := .next (s.startMover 0x40 r)

/-- FILL (R235). -/
def execFill (r : RecRef) (s : State) : Out := .next (s.startMover 0x41 r)

/-- SKEW (R239). -/
def execSkew (r : RecRef) (s : State) : Out := .next (s.startMover 0x42 r)

/-- PACK (R240). -/
def execPack (r : RecRef) (s : State) : Out := .next (s.startMover 0x43 r)

/-- UNPACK (R241). -/
def execUnpack (r : RecRef) (s : State) : Out := .next (s.startMover 0x44 r)

/-- MOVER_CHUNK_DONE (R235): the chunk at the channel's resume point is tried. `hostOk` says whether the host
translates the pages that it asks for (R228), and `collide` whether the bank's port refuses the write (R179).
DESIGN CHOICE: assumption 53; DEDUCED: assumption 56. -/
def execMoverChunkDone (n : Fin 512) (hostOk collide : Bool) (s : State) : Out :=
  match s.chanOf n.val with
  | none => .next s
  | some c =>
    match s.flight? c.ref with
    | none => .next s
    | some f =>
      if s.pwr.trip ∨ c.wait = waitMiss ∨ c.wait = waitPage ∨ (c.wait = waitData ∧ c.hostData.isNone) then .next s
      else if c.sent then
        if c.awaits.isEmpty then .next (s.advanceChan n.val c f.lrec c.chunkLen 0 true 0) else .next s
      else .next (s.retryChunk n.val c f.lrec hostOk collide)

/-- HOST_READ_COMPLETION (R577): the data of a host read, or the end of the command that made it. A completion brings
as many bytes as were asked for; any other is no such event. DESIGN CHOICE: assumptions 6, 51. -/
def execHostReadCompletion (id : Nat) (status : CplStatus) (data : List Byte) (s : State) : Out :=
  match s.host.reads.find? fun r => r.id == id with
  | none => .next s
  | some r =>
    let want := (r.segs.map (·.2)).foldl (· + ·) 0
    if status = .ok ∧ data.length ≠ want then .next s
    else
      let s := { s with host := { s.host with reads := s.host.reads.filter fun x => x.id ≠ id } }
      let s := s.finishInval
      match status with
      | .ok => match r.purpose with
        | .mover n => match s.chanOf n with
          | some c =>
            if some c.ref = r.ref ∧ c.wait = waitData then
              .next (s.setChan n (some { c with hostData := some data, wait := waitNone }))
            else .next s
          | none => .next s
        | .ingest p => .next (s.setPart p.val { s.partOf p.val with arrived := some (data, false) })
      | .poisoned => .next (s.failHostRead r 0x001D)
      | _ => .next (s.failHostRead r 0x001B)

/-- HOST_COMPLETION_TIMEOUT (R577). -/
def execHostCompletionTimeout (id : Nat) (s : State) : Out :=
  match s.host.reads.find? fun r => r.id == id with
  | none => .next s
  | some r =>
    let s := { s with host := { s.host with reads := s.host.reads.filter fun x => x.id ≠ id } }
    .next ((s.failHostRead r 0x0025).finishInval)

end Sys2Proof.Machine
end

