-- ==== Sys2Proof/Machine/Packet.lean ====
section
/-! DEFINITION. Received packets (R360–R363, R375–R377): remote writes, arrivals, completions and transit, and the
ARRIVE command. -/

namespace Sys2Proof.Machine

/-- Drop a packet that no rule lets act, and log it (R359, R377). -/
def State.dropPacket (s : State) (p : Nat) (vc : BitVec 3) (k : Packet) : State :=
  (s.popPacket p vc k).record (linkRec (k.flits.head?.map (·.member.val) |>.getD 0))

/-- The packet at the head of a receive sub-queue where it is of the kind asked for and for this device (R360, R372,
R377). A broken packet, one of a reserved kind and one that another device's map sent here are dropped. -/
def State.openPacket (s : State) (p : Nat) (vc : BitVec 3) (kinds : List Nat) : State × Option Packet :=
  match s.headPacket p vc with
  | none => (s, none)
  | some k =>
    if k.broken then (s.popPacket p vc k, none)
    else if (kindClass (pktKind k.hdr)).isNone then (s.dropPacket p vc k, none)
    else if s.packetHere k.hdr then
      if pktDst k.hdr ≠ s.selfLogical then
        (((s.dropPacket p vc k).bump .route 0 0x164).raise .route 0 4, none)
      else if kinds.contains (pktKind k.hdr) then (s, some k) else (s, none)
    else (s, none)

/-- Answer a WRITE (R362): a CMPL to its sender. DEDUCED: assumption 52. -/
def State.sendCmpl (s : State) (h : BitVec 128) (status : BitVec 8) : State :=
  let c := mkPkt (status ++ cmplTag (pktAddr h)) 0 0 1 (pktPart h).toNat 4 s.selfLogical (pktSrc h)
  (s.sendPacket c []).getD s

/-- The entry ROUTE.PEER_PARTp (R361). -/
def State.peerPart (s : State) (p : Nat) : Word := s.pr .route 0 (0x60 + 4 * p)

/-- Whether a bank is lent: its owner does not own its cluster (R181). -/
def State.bankLent (s : State) (b : Nat) : Bool :=
  (s.bankOf b).owner.isSome && s.clusterOwner (bankCluster b) != (s.bankOf b).owner

/-- Reject an add from another device (R297). -/
def State.rejectAdd (s : State) (p : Nat) : State :=
  let s := s.bump .part p 0x4B0
  let s := s.record { ErrRec.mk0 0x14 sevInfo (srcOf 6 0) with owner := ownerByte (some (Fin.ofNat 64 p)) }
  if p = 0 then s.jobCause 4 else s

/-- The arrival increment of a WRITE_INC whose data has landed: applied before its CMPL leaves (R362). -/
def State.applyRemoteInc (s : State) (q : Nat) (vid : BitVec 12) (amount : BitVec 8) : State :=
  if vmapRemote (s.vmapOf q vid.toNat) ∨ (s.sys.stageMode ∧ q = 0 ∧ 4088 ≤ vid.toNat) then
    s.directSignal q vid.toNat (amount.zeroExtend 16)
  else s.rejectAdd q

/-- A received WRITE or WRITE_INC (R361, R362). The write waits while its bank is being handed over, or while its tier
wakes; `refused` counts the COLLIDE responses it meets, the fourth of which fails it (R179).
DEDUCED: assumptions 43, 52. -/
def State.receiveWrite (s : State) (p : Nat) (vc : BitVec 3) (kind : Nat) (refused : Fin 5) : State :=
  match s.openPacket p vc [kind] with
  | (s, none) => s
  | (s, some k) =>
    let h := k.hdr
    let q := (pktPart h).toNat
    let a := (pktAddr h).toNat
    let n := k.data.length
    let fail (s : State) (st : BitVec 8) : State := (s.popPacket p vc k).sendCmpl h st
    let inc := kind == 2
    let target : Bool := match s.vid q (pktVid h).toNat with
      | some (c, _) => c == padCluster a && !s.bankLent (padBank a)
      | none => false
    if !(s.peerPart q).getLsbD 30 then fail s 1
    else if s.scopeHit q a n then fail s.scopeRefuse 2
    else
      let req : NocReq := ⟨.part (Fin.ofNat 64 q), none, 7, BitVec.ofNat 64 a⟩
      let gate := if windowOf (BitVec.ofNat 64 a) ≠ .pad ∨ 0x200000000 < a + n ∨ n = 0 then PadGate.fault 4
        else (List.range (padBank (a + n - 1) - padBank a + 1)).foldl
          (fun g i => if g = .ok then s.bankGate req (padBank a + i) else g) PadGate.ok
      match gate with
      | .fault _ => fail s 2
      | .heldBank => s
      | .heldTier =>
        let r := regionOfCluster (padCluster a)
        match s.tierOf r (padTier a) with
        | .retained | .entering _ => s.setTier r (padTier a) (.waking (s.sys.time + 6000))
        | _ => s
      | .ok =>
        if inc && !target then fail s 2
        else
          let s := (s.bump .clu (padCluster a) 0x520 refused.val).bump .part q 0x410 refused.val
          if refused = 4 then fail (s.unitFault q 0x0015 a) 2
          else
            let s := ((s.countRows (some q) a k.data.length true).bankWrite a k.data).bump64 .part q 0x4C8 n
            let s := if inc then s.applyRemoteInc q (pktVid h) (pktAmount h) else s
            fail s 0

/-- WRITE_PACKET (R361). -/
def execWritePacket (p : Fin 7) (vc : BitVec 3) (refused : Fin 5) (s : State) : Out :=
  .next (s.receiveWrite p.val vc 1 refused)

/-- WRITE_INC_PACKET (R361). -/
def execWriteIncPacket (p : Fin 7) (vc : BitVec 3) (refused : Fin 5) (s : State) : Out :=
  .next (s.receiveWrite p.val vc 2 refused)

/-- ARRIVE_PACKET (R297, R361). -/
def execArrivePacket (p : Fin 7) (vc : BitVec 3) (s : State) : Out :=
  match s.openPacket p.val vc [3] with
  | (s, none) => .next s
  | (s, some k) =>
    let q := (pktPart k.hdr).toNat
    let vid := (pktVid k.hdr).toNat
    let pop := s.popPacket p.val vc k
    if !(s.peerPart q).getLsbD 30 then .next pop
    else
      let remote := vmapRemote (s.vmapOf q vid) || (s.sys.stageMode && q == 0 && decide (4088 ≤ vid))
      match s.vid q vid with
      | some (c, n) =>
        if !remote then .next (pop.rejectAdd q)
        else if s.inputRoom c then .next (pop.sendSync c (.add q n ((pktAddr k.hdr).extractLsb' 0 16) none))
        else .next s
      | none => .next (pop.rejectAdd q)

/-- The channel whose remote chunk awaits a tag from a device (R362). -/
def State.awaiting (s : State) (src : BitVec 14) (tag : BitVec 40) : Option (Nat × ChanCmd) :=
  s.cel.chans.findSome? fun e => match e.2 with
    | some c => if (c.sent && c.awaits.contains tag && c.dst.extractLsb' 48 14 == src) = true then some (e.1, c) else none
    | none => none

/-- CMPL_PACKET (R362): the packet has landed, or its command ends with "remote refused". -/
def execCmplPacket (p : Fin 7) (vc : BitVec 3) (s : State) : Out :=
  match s.openPacket p.val vc [4] with
  | (s, none) => .next s
  | (s, some k) =>
    let s := s.popPacket p.val vc k
    let tag := (pktAddr k.hdr).extractLsb' 0 40
    match s.awaiting (pktSrc k.hdr) tag with
    | none => .next s
    | some (n, c) =>
      if (pktAddr k.hdr).extractLsb' 40 8 ≠ 0 then
        .next ((if c.ref.part.val < 64 then s.bump .part c.ref.part.val 0x4D4 else s).faultChan n c 0x001F)
      else
        let c := { c with awaits := c.awaits.erase tag }
        let s := s.setChan n (some c)
        match s.flight? c.ref with
        | some f => if c.awaits.isEmpty then .next (s.advanceChan n c f.lrec c.chunkLen 0 true 0) else .next s
        | none => .next s

/-- TRANSIT_FORWARD (R373–R377): the packet at the head of a sub-queue goes on toward its destination.
DEDUCED: assumption 96. -/
def execTransitForward (p : Fin 7) (vc : BitVec 3) (s : State) : Out :=
  match s.openPacket p.val vc [] with
  | (s', _) => match s'.headPacket p.val vc with
    | none => .next s'
    | some k =>
      match s'.routeTo (pktDst k.hdr) (some (s'.dirOf p.val / 2, vc.getLsbD 0)) with
      | .here => .next s'
      | .unreachable => .next (((s'.popPacket p.val vc k).bump .route 0 0x160).raise .route 0 2)
      | .out o d =>
        .next ((s'.popPacket p.val vc k).queuePacket o (BitVec.ofNat 3 (vcClass vc * 2 + d.toNat)) k.hdr
          (k.flits.map (·.body)))

/-- ARRIVE (R280, R297, R361). -/
def execArrive (r : RecRef) (s : State) : Out :=
  .next <| s.start r 0x52 fun l s =>
    let dst := BitVec.ofNat 14 (l.immF 50 14)
    let peer := (s.peerPart l.part).toNat % 64
    let h := mkPkt (BitVec.ofNat 48 (l.immF 0 16)) (BitVec.ofNat 12 (l.immF 32 12)) 0 1 peer 3 s.selfLogical dst
    if !s.hasTokens l.part 2 then s.setFlight r .queued
    else match s.sendPacket h [] with
      | some s => (s.chargeLink l.part 0).endFlight r true
      | none => (s.bump .part l.part 0x4D4).failFlight r (engineFault 0x000C)

end Sys2Proof.Machine
end

