-- ==== Sys2Proof/Machine/Stage.lean ====
section
/-! DEFINITION. The pipeline stage engine (R308–R348): a step's beginning, admission, capture, dispatch, sends,
spills, prefetches, the update section's commands and its register commands. The step boundary and job faults, which
also reach the collective and checkpoint engines, are in Machine/Job.lean. -/

namespace Sys2Proof.Machine

/-! ## The queues' words -/

/-- Take up to `n` words of the item at the front of a queue, for a capture that has started it. -/
def State.takeWords (s : State) (q : QInst) : Nat → State × List QWord
  | 0 => (s, [])
  | n + 1 =>
    let st := s.que1 q
    let ready := st.inRead || itemAvailable ((s.queCfg q).toNat % 65536) st.words
    if !st.owed ∧ (st.words.isEmpty || !ready) then (s, [])
    else
      let s := s.queRead q
      match s.que.readWord with
      | none => (s, [])
      | some w =>
        if w.eoi then (s, [w])
        else
          let r := State.takeWords s q n
          (r.1, w :: r.2)

/-- Return stage credits toward the sender of a direction's items: for each 64 words that have left the queue, and at
the end of each item (R363). -/
def State.returnCredits (s : State) (d n : Nat) (fin : Bool) : State :=
  let have_ := s.stg.returned.get 0 d + n
  let due := if fin then have_ else have_ / 64 * 64
  let s := { s with stg := { s.stg with returned := s.stg.returned.put 0 d (have_ - due) } }
  let peers := s.stgReg 0x60
  let dst : BitVec 14 := if d = 0 then peers.extractLsb' 16 14 else peers.extractLsb' 0 14
  let valid := if d = 0 then peers.getLsbD 31 else peers.getLsbD 15
  (chunksOf 65535 (due / 65535 + 1) (List.replicate due ())).foldl (fun s c =>
    if valid then
      (s.sendPacket (mkPkt (BitVec.ofNat 48 (c.length + d * 65536)) 0 0 1 0 6 s.selfLogical dst) []).getD s
    else s) s

/-! ## Leaving states (R325) -/

/-- An entry that no longer runs a forward: READY_B within the window, STASHED outside it. -/
def State.settle (s : State) (e : Nat) : State :=
  let x := s.ledger e
  s.setLedger e { x with st := if s.inWindow (tagMb x.tag) (tagChunk x.tag) then 7 else 4 }

/-- The prefetch window has moved (R325, R335): stashes in it become READY_B, and a spill in it is abandoned. -/
def State.moveWindow (s : State) : State :=
  s.stg.ledger.keys.foldl (fun s e =>
    let x := s.ledger e
    if s.inWindow (tagMb x.tag) (tagChunk x.tag) then
      if x.st = 4 then s.setLedger e { x with st := 7 }
      else if x.st = 5 then
        let s := s.setLedger e { x with st := 7, abandoned := true, cslot := 0xFFFF }
        { s with stg := { s.stg with spill := none } }.bump .stg 0 0x94
      else s
    else s) s

/-- A send has sent its last word and its program has completed (R325): the forward's entry leaves SENDING, the
backward's RETIRING. -/
def State.endSend (s : State) (d : Nat) : State :=
  match s.stg.send.get none d with
  | none => s
  | some x =>
    if x.complete && decide (s.itemWords ≤ x.sent) then
      let s := { s with stg := { s.stg with send := s.stg.send.put none d none } }
      let e := s.ledger x.entry
      if d = 0 then (if e.st = 3 then s.settle x.entry else s)
      else if e.st = 10 then s.setLedger x.entry LedgerEnt.init
      else s
    else s

/-! ## Steps (R340) -/

/-- Start a step: both sequences at entry 0, and the stage credits at the depths of the receiving queues.
DEDUCED: assumption 82. -/
def State.beginStep (s : State) : State :=
  { s with stg := { s.stg with
      st := 2, admitted := 0, fwd := 0, bwd := 0, bwdDone := 0, gradNext := 0, gcap := none, lateAt := none
      throttled := false, returned := []
      credits := [(0, s.depth (.stg 0)), (1, s.depth (.stg 1))] } }

/-- STEP_BEGIN (R340, R343). DEDUCED: assumption 82. -/
def execStepBegin (s : State) : Out :=
  .next (if s.stg.st = 1 ∧ s.stg.stepsLeft ≠ 0 ∧ !(s.stgReg 0x08).getLsbD 1 then s.beginStep else s)

/-! ## Programs (R314–R316, R331) -/

/-- The ring entry of a stage invocation (R476). -/
def stageEntry (handle records precords : Nat) (tag : BitVec 16) (prog slot gbuf send entry : Nat) : List Byte :=
  leBytes 8 handle ++ [0x10, 0] ++ leBytes 2 records ++ leBytes 2 precords ++ [0, 0] ++ leBytes 4 tag.toNat ++
  List.replicate 12 0 ++ [BitVec.ofNat 8 prog, BitVec.ofNat 8 slot, BitVec.ofNat 8 gbuf, BitVec.ofNat 8 send,
    BitVec.ofNat 8 entry] ++ List.replicate 27 0

/-- The ring entry that invokes a program for ledger entry `e`, which holds `le` (R314, R315).
DESIGN CHOICE: assumptions 84, 85. -/
def State.invokeEntry (s : State) (prog : BitVec 2) (handle e : Nat) (le : LedgerEnt) : List Byte :=
  let h := s.handleOf 0 handle
  let pr := Config.progRecords h.dev h.size
  let records := 1 + pr.1 % 16384
  let precords := pr.2 % (16385 - records)
  let upd := prog == 3
  stageEntry handle records precords (if upd then 0 else le.tag) prog.toNat
    (if upd then 0xFF else le.slot.toNat) (if prog = 2 then le.gbuf.toNat else 0xFF)
    (if prog = 0 then (if s.lastLogical (tagChunk le.tag) then 0xFF else 0)
      else if prog = 2 then (if s.firstLogical (tagChunk le.tag) then 0xFF else 1) else 0xFF)
    (if upd then 0xFF else e)

/-- The offset in its ring of the entry that queue 0 takes next. -/
def State.invokeAt (s : State) : Nat :=
  (s.qReg 0 0 0x0C ++ s.qReg 0 0 0x08).toNat + 64 * ((s.queueOf 0 0).tail.toNat % 2 ^ s.ringLog2 0 0)

/-- Invoke a program on queue 0 (R314): the ring entry is written and TAIL advances. A queue that takes no entry is a
fault of the job (R39). -/
def State.invoke (s : State) (prog : BitVec 2) (handle e : Nat) : State :=
  let x := s.queueOf 0 0
  let ring := (s.qReg 0 0 0x04).toNat % 4096
  if x.st ≠ .ready then s.jobCause 1
  else match s.handleWrite 0 ring s.invokeAt (s.invokeEntry prog handle e (s.ledger e)) with
    | none => (s.handleNote 0 ring s.invokeAt 64).jobCause 1
    | some s =>
      let s := s.setQueue 0 0 { s.queueOf 0 0 with tail := ptrInc (s.ringLog2 0 0) x.tail }
      { s with stg := { s.stg with inv := some ⟨prog, e, x.tail⟩ } }

/-- The outstanding invocation's last command has completed (R315). -/
def State.invEnded (s : State) : Bool :=
  match s.stg.inv with
  | some i =>
    let x := s.queueOf 0 0
    x.st == .ready && x.head == ptrInc (s.ringLog2 0 0) i.num
  | none => false

/-- UPDATE_INVOKE (R340): every backward has completed, every send has finished and the ledger is empty. -/
def execUpdateInvoke (s : State) : Out :=
  if s.stgRuns ∧ s.stg.inv.isNone ∧ s.stg.bwdDone = s.seqLen ∧ s.ledgerUsed = 0 ∧ s.stg.send = [] then
    let s := { s with stg := { s.stg with st := 3 }, coll := { s.coll with lastSkip := false } }
    .next (s.invoke 3 (s.stgField 0x5C 0 12) 0)
  else .next s

/-- Start the backward invocation of a ledger entry: its gradient buffer, its send buffer, its state. -/
def State.invokeBackward (s : State) (e : Nat) : State :=
  let x := s.ledger e
  let k := tagChunk x.tag
  let s := s.setLedger e { x with st := 9 }
  let s := if s.firstLogical k then s
    else { s.setCount 0 255 0 with stg := { s.stg with send := s.stg.send.put none 1 (some ⟨e, 0, 0, false⟩) } }
  s.invoke 2 (s.stgField 0x58 0 12) e

/-- The gradient buffer that serves backward entry `i`. -/
def State.gbufFor (s : State) (i : Nat) : Option Nat :=
  [0, 1].find? fun g => match s.stg.gbufs.get none g with
    | some b => b.pos == i
    | none => false

/-- Whether a stash is in SRAM for the backward: READY_B, or PREFETCHING with IN_CTR at least 1 (R331). -/
def State.stashReady (s : State) (e : Nat) : Bool :=
  let x := s.ledger e
  x.st == 7 || (x.st == 6 && decide (s.countOf 0 (192 + x.slot.toNat) ≠ 0))

/-- The gradient side of a dispatchable backward, entry `i` of its sequence (R331). -/
def State.gradReady (s : State) (i : Nat) : Bool :=
  let k := (s.bwdSeq i).2
  let arrived := match s.gbufFor i with
    | some g => decide (s.countOf 0 (252 + g) ≠ 0)
    | none => false
  (arrived || s.lastLogical k) && (s.firstLogical k || (s.stg.send.get none 1).isNone)

/-- Dispatch the next backward: the recompute invocation where recompute is on (R315). -/
def State.dispatchBackward (s : State) (e : Nat) : State :=
  let i := s.stg.bwd
  let g := if s.lastLogical (s.bwdSeq i).2 then none else s.gbufFor i
  let x := s.ledger e
  let x := { x with
    tBwd := s.sys.time
    gbuf := match g with
      | some g => BitVec.ofNat 8 g
      | none => 0xFF
    gradWords := match g with
      | some g => BitVec.ofNat 32 (((s.stg.gbufs.get none g).map (·.words)).getD 0)
      | none => 0 }
  let s := s.setLedger e x
  let s := { s with stg := { s.stg with bwd := i + 1 } }
  let s :=
    if (s.stgReg 0x5C).getLsbD 28 then (s.setLedger e { x with st := 8 }).invoke 1 (s.stgField 0x5C 16 12) e
    else s.invokeBackward e
  s.moveWindow

/-- Dispatch the next forward (R331). -/
def State.dispatchForward (s : State) (e : Nat) : State :=
  let x := s.ledger e
  let k := tagChunk x.tag
  let s := s.setLedger e { x with st := 2, tFwd := s.sys.time }
  let s := { s with stg := { s.stg with fwd := s.stg.fwd + 1 } }
  let s := if s.lastLogical k then s
    else { s.setCount 0 254 0 with stg := { s.stg with send := s.stg.send.put none 0 (some ⟨e, 0, 0, false⟩) } }
  s.invoke 0 (s.stgField 0x58 16 12) e

/-- The next forward, where it is dispatchable (R331). -/
def State.forwardReady (s : State) : Option Nat :=
  if s.seqLen ≤ s.stg.fwd then none
  else
    let f := s.fwdSeq s.stg.fwd
    (s.ledgerFor f.1 f.2).filter fun e =>
      let x := s.ledger e
      x.st == 1 && decide (s.countOf 0 (192 + x.slot.toNat) ≠ 0) &&
        (s.lastLogical f.2 || (s.stg.send.get none 0).isNone)

/-- The next backward, where it is dispatchable (R331). -/
def State.backwardReady (s : State) : Option Nat :=
  if s.seqLen ≤ s.stg.bwd then none
  else
    let b := s.bwdSeq s.stg.bwd
    (s.ledgerFor b.1 b.2).filter fun e => s.stashReady e && s.gradReady s.stg.bwd

/-- Count a backward that waits only for its stash, once (R336). -/
def State.noteLate (s : State) : State :=
  let b := s.bwdSeq s.stg.bwd
  let e := s.ledgerFor b.1 b.2
  let outside : Bool := match e with
    | some e => (s.ledger e).st == 6
    | none => (s.cstashFor b.1 b.2).isSome
  if s.stg.bwd < s.seqLen ∧ outside = true ∧ s.gradReady s.stg.bwd ∧ s.stg.lateAt ≠ some s.stg.bwd then
    let s := { s with stg := { s.stg with lateAt := some s.stg.bwd } }.bump .stg 0 0x90
    match e with
    | some e => s.setLedger e { s.ledger e with late := true }
    | none => s
  else s

/-- STAGE_DISPATCH (R331). -/
def execStageDispatch (s : State) : Out :=
  if !s.stgRuns ∨ s.stg.inv.isSome then .next s
  else if s.stgSched = 2 ∧ s.stg.fwd < s.seqLen then
    match s.forwardReady with
    | some e => .next (s.dispatchForward e)
    | none => .next s
  else match s.backwardReady with
    | some e => .next (s.dispatchBackward e)
    | none =>
      let s := s.noteLate
      match s.forwardReady with
      | some e => .next (s.dispatchForward e)
      | none => .next s

/-- INVOCATION_DONE (R315, R325). DEDUCED: assumption 83. -/
def execInvocationDone (s : State) : Out :=
  match s.stg.inv with
  | none => .next s
  | some i =>
    if !s.invEnded ∨ i.prog = 3 ∨ !s.stgRuns then .next s
    else
      let x := s.ledger i.entry
      let k := tagChunk x.tag
      let s := { s with stg := { s.stg with inv := none } }
      let close (s : State) (d : Nat) : State :=
        let y := (s.stg.send.get none d).map fun y => { y with complete := true }
        { s with stg := { s.stg with send := s.stg.send.put none d y } }.endSend d
      if i.prog = 0 then
        let s := s.bump .stg 0 0x80
        if s.lastLogical k then .next (s.settle i.entry)
        else .next (close (s.setLedger i.entry { x with st := 3 }) 0)
      else if i.prog = 1 then .next (s.invokeBackward i.entry)
      else
        let s := s.bump .stg 0 0x84
        let s := { s with stg := { s.stg with
          bwdDone := s.stg.bwdDone + 1
          gbufs := if x.gbuf = 0xFF then s.stg.gbufs else s.stg.gbufs.put none x.gbuf.toNat none } }
        if s.firstLogical k then .next (s.setLedger i.entry LedgerEnt.init)
        else .next (close (s.setLedger i.entry { x with st := 10, slot := 0xFF, gbuf := 0xFF }) 1)

/-! ## Admission (R337, R338) -/

/-- The stashes held, in SRAM and in the cellar; one being prefetched is one stash. -/
def State.stashesHeld (s : State) : Nat :=
  (s.stg.ledger.filter fun e => decide (e.2.st ≠ 0) && e.2.slot != 0xFF).length +
  (s.stg.cstash.filter fun e => e.2.getLsbD 31).length - s.stg.prefetch.length

/-- Whether a ledger entry can be allocated (R327). -/
def State.canAlloc (s : State) : Bool := (s.ledger s.stg.alloc).st == 0

/-- Whether FWD_IN holds an available item that is not being captured. DEDUCED: assumption 87. -/
def State.itemWaits (s : State) : Bool :=
  s.stg.capture.isNone && decide (s.stgTags 0 ≠ []) &&
    itemAvailable ((s.queCfg (.stg 0)).toNat % 65536) (s.que1 (.stg 0)).words

/-- The step number (R343). -/
def State.stepNo (s : State) : BitVec 64 := s.pr64 .stg 0 0x70

/-- ADMISSION (R337), or the throttle (R338). -/
def execAdmission (s : State) : Out :=
  if !s.stgRuns then .next s
  else
    let a := decide (s.stg.admitted + 1 - s.stg.bwd ≤ s.stgW)
    let b := decide (s.stashesHeld + 2 ≤ s.sramSlots + s.cellarSlots)
    let d := s.canAlloc
    if !s.itemWaits then .next { s with stg := { s.stg with throttled := false } }
    else match s.freeSlots with
      | j :: _ =>
        if a && b && d then
          let e := s.stg.alloc
          let s := s.setLedger e { LedgerEnt.init with
            tag := (s.stgTags 0).headD 0, st := 1, slot := BitVec.ofNat 8 j, step := s.stepNo }
          let s := s.setCount 0 (192 + j) 0
          .next { s with stg := { s.stg with
            admitted := s.stg.admitted + 1, alloc := (e + 1) % 64, capture := some (e, 0), throttled := false } }
        else
          let t := a && d && !b
          let s' := { s with stg := { s.stg with throttled := t } }
          .next (if t && !s.stg.throttled then s'.raise .stg 0 8 else s')
      | [] =>
        let t := a && d
        let s' := { s with stg := { s.stg with throttled := t } }
        .next (if t && !s.stg.throttled then s'.raise .stg 0 8 else s')

/-! ## Capture (R318, R322, R323) -/

/-- Write captured words from word `w` on to the addresses that `at_` gives. DEDUCED: assumption 87. -/
def State.storeWords (s : State) (at_ : Nat → Nat) : Nat → List QWord → State
  | _, [] => s
  | w, x :: xs => State.storeWords (s.putWord (at_ w) x.data) at_ (w + 1) xs

/-- Capture of FWD_IN into the SRAM slot of the entry admitted last. DEDUCED: assumption 83. -/
def State.captureForward (s : State) : State :=
  match s.stg.capture with
  | none => s
  | some (e, w) =>
    let x := s.ledger e
    let (s, ws) := s.takeWords (.stg 0) 32768
    let fin := (ws.getLast?.map (·.eoi)).getD false
    let w' := w + ws.length
    let s := s.storeWords (s.slotWord x.slot.toNat) w ws
    let s := s.setLedger e { s.ledger e with inWords := BitVec.ofNat 32 w' }
    let s := s.countGranules (192 + x.slot.toNat) (s.granulesIn w w' fin)
    let s := if s.firstLogical (tagChunk x.tag) then s else s.returnCredits 0 ws.length fin
    let s := if ws.any (·.broken) then s.jobCause 5 (x.tag.extractLsb' 0 12) else s
    if fin then { s.setStgTags 0 (s.stgTags 0).tail with stg := { s.stg with
      capture := none, tags := s.stg.tags.put [] 0 (s.stgTags 0).tail } }
    else { s with stg := { s.stg with capture := some (e, w') } }

/-- The backward entry from `i` on that GRAD_IN serves: entries of the last logical stage are skipped. -/
def State.nextGrad (s : State) (i : Nat) : Nat → Nat
  | 0 => i
  | fuel + 1 => if s.lastLogical (s.bwdSeq i).2 then State.nextGrad s (i + 1) fuel else i

/-- Start the capture of the next GRAD_IN item, where a gradient buffer is free (R316, R322). -/
def State.openGradient (s : State) : State :=
  let i := s.nextGrad s.stg.gradNext s.stgP
  match s.stg.gcap, s.stgTags 1, [0, 1].find? (fun g => (s.stg.gbufs.get none g).isNone) with
  | none, t :: _, some g =>
    if !itemAvailable ((s.queCfg (.stg 1)).toNat % 65536) (s.que1 (.stg 1)).words then s
    else if s.seqLen ≤ i ∨ t ≠ stageTag (s.bwdSeq i).1 (s.bwdSeq i).2 true then s.jobCause 3 (t.extractLsb' 0 12)
    else
      let s := s.setCount 0 (252 + g) 0
      { s with stg := { s.stg with
          gbufs := s.stg.gbufs.put none g (some ⟨i, 0, false⟩), gcap := some g, gradNext := i + 1 } }
  | _, _, _ => s

/-- Capture of GRAD_IN into a gradient buffer. -/
def State.captureGradient (s : State) : State :=
  let s := s.openGradient
  match s.stg.gcap with
  | none => s
  | some g => match s.stg.gbufs.get none g with
    | none => s
    | some b =>
      let (s, ws) := s.takeWords (.stg 1) 32768
      let fin := (ws.getLast?.map (·.eoi)).getD false
      let w' := b.words + ws.length
      let s := s.storeWords (s.gradWord g) b.words ws
      let s := s.countGranules (252 + g) (s.granulesIn b.words w' fin)
      let s := s.returnCredits 1 ws.length fin
      let t := s.bwdSeq b.pos
      let s := match s.ledgerFor t.1 t.2 with
        | some e =>
          let x := s.ledger e
          if x.gbuf.toNat = g then s.setLedger e { x with gradWords := BitVec.ofNat 32 w' } else s
        | none => s
      let s := if ws.any (·.broken) then s.jobCause 5 (BitVec.ofNat 12 t.1) else s
      { s with stg := { s.stg with
          gbufs := s.stg.gbufs.put none g (some { b with words := w', done := fin })
          gcap := if fin then none else some g
          tags := if fin then s.stg.tags.put [] 1 (s.stgTags 1).tail else s.stg.tags } }

/-- Read `n` bytes of partition 0's cellar view, for channel 6. -/
def State.stashRead (s : State) (v n : Nat) : Option (List Byte) :=
  match s.viewRead 0 v n with
  | .ok bs => some bs
  | .error _ => none

/-- Channel 6 and capture move one granule of the oldest prefetch that is not whole (R334): its words pass through the
RECOMPUTE queue. -/
def State.captureRecompute (s : State) : State :=
  match s.stg.prefetch.find? fun m => decide (m.words < s.itemWords) with
  | none => s
  | some m =>
    let k := min s.granule (s.itemWords - m.words)
    let x := s.ledger m.entry
    match s.stashRead (s.cslotAddr m.cslot + m.words * 4096) (k * 4096) with
    | none => (s.noteView 0 (s.cslotAddr m.cslot + m.words * 4096) (k * 4096)).jobCause 1 (x.tag.extractLsb' 0 12)
    | some bs =>
      let w' := m.words + k
      let fin := decide (s.itemWords ≤ w')
      let ws := (chunksOf 4096 (k + 1) bs).map fun d => QWord.mk d false false false false
      let s := s.storeWords (s.slotWord x.slot.toNat) m.words ws
      let s := s.setLedger m.entry { s.ledger m.entry with
        moveWords := BitVec.ofNat 32 w', inWords := BitVec.ofNat 32 w' }
      let s := s.countGranules (192 + x.slot.toNat) (s.granulesIn m.words w' fin)
      { s with stg := { s.stg with prefetch := s.stg.prefetch.map fun y =>
          (if y.entry = m.entry then { y with words := w' } else y) } }

/-- CAPTURE_ITEM (R318, R322, R323): capture takes the words at hand of a queue's item. -/
def execCaptureItem (q : Fin 5) (s : State) : Out :=
  if !s.stgRuns then .next s
  else if q = 0 then .next s.captureForward
  else if q = 1 then .next s.captureGradient
  else if q = 4 then .next s.captureRecompute
  else .next s

/-! ## Sends (R311, R318, R323, R363) -/

/-- The STAGE packets of one word: 3,888 B and the rest. DESIGN CHOICE: assumption 84. -/
def stagePieces (w : Nat) (data : List Byte) : List (Nat × List Byte) :=
  let cuts := chunksOf 3888 3 data
  (List.range cuts.length).map fun i => (w * 4096 + 3888 * i, cuts.getD i [])

/-- The tag that the receiver gives the item of chunk `k` sent in direction `d`. -/
def State.peerTag (s : State) (t : BitVec 16) (d : Nat) : BitVec 16 :=
  let k := tagChunk t
  let k' := if d = 0 then (if s.stgS + 1 = s.stgP then k + 1 else k) else if s.stgS = 0 then k - 1 else k
  stageTag (tagMb t) k' (d == 1)

/-- SEND_GRANULE (R318, R323): the words that OUT_CTR covers, or the rest once the program has completed, go to the
peer as far as stage credits allow. DESIGN CHOICE: assumption 84. -/
def execSendGranule (d : Fin 2) (s : State) : Out :=
  match s.stg.send.get none d.val with
  | none => .next s
  | some x =>
    if !s.stgRuns then .next s
    else
      let covered := if x.complete then s.itemWords
        else min s.itemWords ((s.countOf 0 (254 + d.val)).toNat * s.granule)
      let n := min (covered - x.sent) (s.stg.credits.get 0 d.val)
      let peers := s.stgReg 0x60
      let dst : BitVec 14 := if d.val = 0 then peers.extractLsb' 0 14 else peers.extractLsb' 16 14
      let valid := if d.val = 0 then peers.getLsbD 15 else peers.getLsbD 31
      let e := s.ledger x.entry
      let tag := s.peerTag e.tag d.val
      let ws := (List.range n).flatMap fun i =>
        stagePieces (x.sent + i) (s.padRead (s.outWord d.val (x.sent + i)) 4096)
      if !valid ∨ !s.reachable dst then
        .next (if n = 0 then s else s.jobCause 5 (e.tag.extractLsb' 0 12))
      else
        let s := ws.foldl (fun s y =>
          (s.sendPacket (mkPkt (BitVec.ofNat 32 y.1 ++ tag) 0 0 y.2.length 0 5 s.selfLogical dst) y.2).getD s) s
        let s := s.setLedger x.entry { s.ledger x.entry with sentWords := BitVec.ofNat 32 (x.sent + n) }
        let s := { s with stg := { s.stg with
          credits := s.stg.credits.put 0 d.val (s.stg.credits.get 0 d.val - n)
          send := s.stg.send.put none d.val (some { x with offered := x.sent + n, sent := x.sent + n }) } }
        .next (s.endSend d.val)

/-! ## Spill and prefetch (R333–R335) -/

/-- The spill's victim (R333): the STASHED entry that is earliest in the forward sequence. -/
def State.victim (s : State) : Option Nat :=
  ((List.range s.seqLen).filterMap fun i =>
    let f := s.fwdSeq i
    (s.ledgerFor f.1 f.2).filter fun e => (s.ledger e).st == 4).head?

/-- SPILL_START (R333). -/
def execSpillStart (s : State) : Out :=
  let freeCel := (List.range s.cellarSlots).find? fun j => !(s.cstash j).getLsbD 31
  match s.victim, freeCel with
  | some e, some j =>
    if s.stgRuns ∧ s.freeSlots.length < s.stgSpare ∧ s.stg.spill.isNone then
      let s := s.setLedger e { s.ledger e with st := 5, cslot := BitVec.ofNat 16 j, moveWords := 0 }
      .next { s with stg := { s.stg with spill := some ⟨e, j, 0⟩ } }
    else .next s
  | _, _ => .next s

/-- SPILL_DONE (R325, R328, R333): the slot's words stand in the cellar slot. DESIGN CHOICE: assumption 84. -/
def execSpillDone (s : State) : Out :=
  match s.stg.spill with
  | none => .next s
  | some m =>
    let x := s.ledger m.entry
    let bs := (List.range s.itemWords).flatMap fun w => s.padRead (s.slotWord x.slot.toNat w) 4096
    let dev := 0x4000000000 + s.cslotAddr m.cslot
    if (s.viewWritable 0 (s.cslotAddr m.cslot) s.itemBytes).isSome || s.scopeHit 0 dev s.itemBytes then
      .next ((s.scopeNote 0 dev s.itemBytes).jobCause 1 (x.tag.extractLsb' 0 12))
    else
      let s := s.viewWrite 0 (s.cslotAddr m.cslot) bs
      let s := s.setCstash m.cslot (0x80000000 ||| (BitVec.ofNat 32 (tagChunk x.tag) <<< 28) ||| BitVec.ofNat 32 (tagMb x.tag))
      let s := (s.setLedger m.entry LedgerEnt.init).bump .stg 0 0x88
      .next { s with stg := { s.stg with spill := none } }

/-- The first window entry whose stash is in the cellar and is not on its way back (R334): its place in the backward
sequence and its cellar slot. -/
def State.nextPrefetch (s : State) : Option (Nat × Nat) :=
  ((List.range s.stgAhead).filterMap fun i =>
    let n := s.stg.bwd + i
    let b := s.bwdSeq n
    if n < s.seqLen ∧ (s.ledgerFor b.1 b.2).isNone then (s.cstashFor b.1 b.2).map fun j => (n, j) else none).head?

/-- PREFETCH_START (R334). -/
def execPrefetchStart (s : State) : Out :=
  match s.nextPrefetch, s.freeSlots with
  | some (n, c), j :: _ =>
    if s.stgRuns ∧ s.canAlloc then
      let b := s.bwdSeq n
      let e := s.stg.alloc
      let s := s.setLedger e { LedgerEnt.init with
        tag := stageTag b.1 b.2 false, st := 6, slot := BitVec.ofNat 8 j, cslot := BitVec.ofNat 16 c
        spilled := true, late := s.stg.lateAt == some n, step := s.stepNo }
      let s := s.setCount 0 (192 + j) 0
      .next { s with stg := { s.stg with alloc := (e + 1) % 64, prefetch := s.stg.prefetch ++ [StgMove.mk e c 0] } }
    else .next s
  | _, _ => .next s

/-- PREFETCH_DONE (R325, R334). -/
def execPrefetchDone (s : State) : Out :=
  match s.stg.prefetch with
  | [] => .next s
  | m :: rest =>
    if m.words < s.itemWords then .next s
    else
      let x := s.ledger m.entry
      let s := s.setLedger m.entry { x with st := if x.st = 6 then 7 else x.st, cslot := 0xFFFF }
      let s := (s.setCstash m.cslot 0).bump .stg 0 0x8C
      .next { s with stg := { s.stg with prefetch := rest } }

/-! ## Packets (R313, R363) -/

/-- End an item whose packets were lost (R389): its last word carries BROKEN. DEDUCED: assumption 92. -/
def State.breakItem (s : State) (q : Nat) : State :=
  let s := { s with stg := { s.stg with asm := s.stg.asm.put none q none } }
  let i : QInst := .stg (Fin.ofNat 5 q)
  let s := s.queWrite i (List.replicate 4096 0) true
  let st := s.que1 i
  s.setQue i { st with words := breakLast st.taint st.words }

/-- The bytes of a packet join their item: whole words enter the queue, the last with EOI. -/
def State.joinItem (s : State) (q : Nat) (a : StgAsm) (data : List Byte) : State :=
  let i : QInst := .stg (Fin.ofNat 5 q)
  let bs := a.bytes ++ data
  let k := bs.length / 4096
  let got := a.got + data.length
  let fin := decide (s.itemBytes ≤ got)
  let ws := (chunksOf 4096 (k + 1) bs).take k
  let s := (List.range ws.length).foldl (fun s n => s.queWrite i (ws.getD n []) (fin && n + 1 == ws.length)) s
  { s with stg := { s.stg with
      asm := s.stg.asm.put none q (if fin then none else some { a with got := got, bytes := bs.drop (4096 * k) }) } }

/-- STAGE_PACKET (R322, R363): the stage path packs the data into words of FWD_IN or GRAD_IN. A packet waits at the
head of its sub-queue while the arbiter does not take its item, or while the queue holds no room. -/
def execStagePacket (p : Fin 7) (vc : BitVec 3) (s : State) : Out :=
  match s.openPacket p.val vc [5] with
  | (s, none) => .next s
  | (s, some k) =>
    let pop := s.popPacket p.val vc k
    if s.stg.st = 0 ∨ s.stg.st = 5 then .next pop
    else if !s.stgRuns then .next s
    else
      let tag : BitVec 16 := (pktAddr k.hdr).extractLsb' 0 16
      let off := ((pktAddr k.hdr).extractLsb' 16 32).toNat
      let q := if tagGrad tag then 1 else 0
      let need := (((s.stg.asm.get none q).map (·.bytes.length)).getD 0 + k.data.length) / 4096
      if s.credits (.stg (Fin.ofNat 5 q)) < max need 1 then .next s
      else match s.stg.asm.get none q with
        | some a =>
          if a.tag = tag ∧ a.got = off then .next (pop.joinItem q a k.data)
          else if a.tag = tag ∧ off ≠ 0 then .next (pop.breakItem q)
          else .next (s.breakItem q)
        | none =>
          if off ≠ 0 then .next pop
          else
            let open_ (s : State) : State := (s.setStgTags q (s.stgTags q ++ [tag])).joinItem q ⟨tag, 0, [], false⟩ k.data
            if q = 1 then .next (open_ pop)
            else match s.arbitrate tag with
              | .take => .next (open_ pop)
              | .wait => .next s
              | .bad => .next (s.jobCause 3 (tag.extractLsb' 0 12))

/-- CREDIT_PACKET (R363). -/
def execCreditPacket (p : Fin 7) (vc : BitVec 3) (s : State) : Out :=
  match s.openPacket p.val vc [6] with
  | (s, none) => .next s
  | (s, some k) =>
    let s := s.popPacket p.val vc k
    let n := ((pktAddr k.hdr).extractLsb' 0 16).toNat
    let d := if (pktAddr k.hdr).getLsbD 16 then 1 else 0
    .next (if s.stgRuns then
      { s with stg := { s.stg with credits := s.stg.credits.put 0 d (s.stg.credits.get 0 d + n) } }
    else s)

/-! ## Stage commands (R320, R341, R342) -/

/-- STAGE_FEED (R320): the command takes its mover channel, whose chunks are the item's words.
DESIGN CHOICE: assumption 66. -/
def execStageFeed (r : RecRef) (s : State) : Out := .next (s.startMover 0x60 r)

/-- Whether every earlier command of a record's ring entry has completed. -/
def State.earlierDone (s : State) (l : LRec) : Bool :=
  match (s.queueOf l.part l.queue).entries.find? fun e => e.num == l.ref.entry with
  | some e => (List.range l.ref.index.toNat).all fun j => e.done.contains j
  | none => false

/-- CRIT_ENTER (R341, R424): it waits for the reduction's verdict and for the checkpoint of the previous boundary; a
verdict with SKIP completes it as skipped. DEDUCED: assumption 87. -/
def execCritEnter (r : RecRef) (s : State) : Out :=
  .next <| s.start r 0x61 fun l s =>
    if s.stg.st ≠ 3 ∨ !s.earlierDone l ∨ s.ckpt.st = 1 ∨ s.ckpt.uncommitted then s.setFlight r .queued
    else if s.coll.lastSkip then
      { s with stg := { s.stg with skipping := true } }.endFlight r true
    else { s with stg := { s.stg with st := 4 } }.endFlight r true

/-- Whether every write that an earlier command of partition 0 issued has landed. DEDUCED: assumption 56. -/
def State.writesLanded (s : State) : Bool :=
  (s.pad.held.all fun h => h.req.owner.part? != some 0) && (s.pad.retries.all fun h => h.req.owner.part? != some 0) &&
  (s.pad.incs.all fun m => m.part != 0)

/-- CRIT_EXIT (R342). DEDUCED: assumption 87. -/
def execCritExit (r : RecRef) (s : State) : Out :=
  .next <| s.start r 0x62 fun l s =>
    if !s.earlierDone l ∨ !s.writesLanded then s.setFlight r .queued
    else
      let s := if s.stg.st = 4 then { s with stg := { s.stg with st := 3 } } else s
      s.endFlight r true

/-! ## Register commands (R347, R348) -/

/-- STG_FAULT_CLR (R347): a write of STG.CTRL; FAULT_CLR in any state but FAULTED is logged. A rollback has then ended
(R453). DEDUCED: assumptions 87, 128. -/
def execStgFaultClr (f : Fn) (v : Word) (s : State) : Out :=
  match s.openAt f ⟨.stg, 0⟩ 0x08 v with
  | .error s => .next s
  | .ok t =>
    if v.getLsbD 0 then
      if s.stg.st = 5 then
        let s := s.setPr .stg 0 0x08 (v &&& 2)
        .next { s with
          stg := { s.stg with st := 1 }
          ckpt := { s.ckpt with afterRestore := true, uncommitted := false } }
      else .next (s.rejectState f t)
    else .next (s.setPr .stg 0 0x08 (v &&& 2))

/-- STEP_GO (R348): the steps are added to STEPS_LEFT, which saturates. DEDUCED: assumption 128. -/
def execStepGo (f : Fn) (v : Word) (s : State) : Out :=
  match s.openAt f ⟨.stg, 0⟩ 0x6C v with
  | .error s => .next s
  | .ok _ =>
    let n := s.stg.stepsLeft.toNat + v.toNat % 65536
    .next { s with stg := { s.stg with stepsLeft := BitVec.ofNat 16 (min n 65535) } }

end Sys2Proof.Machine
end

