-- ==== Sys2Proof/Machine/Ckpt.lean ====
section
/-! DEFINITION. The checkpoint engine (R432–R455): the scope and its shards, capture, sending, the buddy's halves
with their images and journals, commit and undo, and restore. -/

namespace Sys2Proof.Machine

/-! ## The scope (R433, R434) -/

/-- A shard: its index, its region, whether it is a cellar page, its address (a partition-view offset or a scratchpad
address), its offset within the region, its length. -/
structure CkptShard where
  index : Nat
  region : BitVec 16
  cel : Bool
  addr : Nat
  off : Nat
  len : Nat
deriving DecidableEq, Repr

/-- The shards of one scope entry, numbered from `n`. -/
def entryShards (h : Handle) (region : BitVec 16) (n : Nat) : List CkptShard :=
  let cel := h.kind == 1
  let len := if cel then 0x200000 else 0x20000
  let base := if cel then h.dev.toNat % 0x1000000000 else h.dev.toNat
  (List.range (h.size.toNat / len)).map fun i => ⟨n + i, region, cel, base + i * len, i * len, len⟩

/-- The shards of the scope, in scope-entry order and then in ascending address. -/
def State.scopeShards (s : State) : List CkptShard :=
  (List.range 16).foldl (fun acc i =>
    let e := s.ckpt.scope.get 0 i
    if e.getLsbD 31 then acc ++ entryShards (s.handleOf 0 (e.toNat % 4096)) (e.extractLsb' 12 16) acc.length
    else acc) []

/-- The bytes that a digest of the scope table covers (R448): each entry's size and region ID, in order.
DEDUCED: assumption 106. -/
def State.scopeBytes (s : State) : List Byte :=
  (List.range 16).flatMap fun i =>
    let e := s.ckpt.scope.get 0 i
    if e.getLsbD 31 then
      leBytes 8 (s.handleOf 0 (e.toNat % 4096)).size.toNat ++ leBytes 2 (e.extractLsb' 12 16).toNat
    else []

/-- A digest as a number: its bytes in order, the first lowest. -/
def digest (bs : List Byte) : BitVec 256 := BitVec.ofNat 256 (leVal (sha256 bs))

def State.ckptBuddy (s : State) : Word := s.pr .ckpt 0 0x4C
def State.ckptPartner (s : State) : Word := s.pr .ckpt 0 0x50

/-- The device that field A (0) or B (1) of BUDDY or PARTNER names. -/
def abField (w : Word) (ab : Nat) : Option (BitVec 14) :=
  if ab = 0 then (if w.getLsbD 31 then some (w.extractLsb' 16 14) else none)
  else if w.getLsbD 15 then some (w.extractLsb' 0 14) else none

/-- Which buddy keeps shard `i`, and the shard's index within its half there (R434). -/
def State.buddyOf (s : State) (i : Nat) : Option (Nat × Nat) :=
  match abField s.ckptBuddy 0, abField s.ckptBuddy 1 with
  | some _, some _ => some (i % 2, i / 2)
  | some _, none => some (0, i)
  | none, some _ => some (1, i)
  | none, none => none

/-- The scope index of shard `k` of buddy `ab`'s half. DEDUCED: assumption 104. -/
def State.shardOfHalf (s : State) (ab k : Nat) : Nat :=
  match abField s.ckptBuddy 0, abField s.ckptBuddy 1 with
  | some _, some _ => 2 * k + ab
  | _, _ => k

/-- Which of BUDDY's devices a coordinate is. -/
def whichAb (w : Word) (c : BitVec 14) : Option Nat := [0, 1].find? fun ab => abField w ab == some c

/-- The bytes of a shard; none where they cannot be read. -/
def State.shardRead (s : State) (x : CkptShard) : Option (List Byte) :=
  if x.cel then
    match s.viewRead 0 x.addr x.len with
    | .ok bs => some bs
    | .error _ => none
  else if s.poisoned x.addr x.len then none else some (s.padRead x.addr x.len)

/-- Record the uncorrectable units or words of a shard that a read found (R543, R551). -/
def State.shardNote (s : State) (x : CkptShard) : State :=
  if x.cel then s.noteView 0 x.addr x.len else s.notePoison x.addr x.len

/-- Whether a shard has been written since its dirty bits were last cleared (R438). -/
def State.shardDirty (s : State) (x : CkptShard) : Bool :=
  if x.cel then (s.pteOf 0 (x.addr / 0x200000)).getLsbD 60 else s.ckpt.bankDirty.get false (x.addr / 0x20000)

/-- Clear a shard's dirty bits. -/
def State.shardClean (s : State) (x : CkptShard) : State :=
  if x.cel then s.setPte 0 (x.addr / 0x200000) (s.pteOf 0 (x.addr / 0x200000) &&& ~~~(1#64 <<< 60))
  else { s with ckpt := { s.ckpt with bankDirty := s.ckpt.bankDirty.put false (x.addr / 0x20000) false } }

/-! ## Packets (R441) -/

/-- A CKPT packet's ADDR. DEDUCED: assumption 104. -/
def ckptAddr (op : BitVec 4) (cseq : BitVec 12) (shard off : Nat) : BitVec 48 :=
  op ++ cseq ++ BitVec.ofNat 16 shard ++ BitVec.ofNat 16 off

def ckptOp (a : BitVec 48) : BitVec 4 := a.extractLsb' 44 4
def ckptCseq (a : BitVec 48) : BitVec 12 := a.extractLsb' 32 12
def ckptShard (a : BitVec 48) : Nat := (a.extractLsb' 16 16).toNat
def ckptOff (a : BitVec 48) : Nat := (a.extractLsb' 0 16).toNat

/-- Send a CKPT packet; a packet that reaches no link is lost (R444). -/
def State.sendCkpt (s : State) (dst : BitVec 14) (a : BitVec 48) (data : List Byte) : State :=
  (s.sendPacket (mkPkt a 0 0 data.length 0 8 s.selfLogical dst) data).getD s

/-- Send a shard's data and its end, the digest. -/
def State.sendShard (s : State) (dst : BitVec 14) (dataOp endOp : BitVec 4) (cseq : BitVec 12) (k : Nat)
    (data sha : List Byte) : State :=
  let cuts := chunksOf 3872 (data.length / 3872 + 1) data
  let s := (List.range cuts.length).foldl (fun s i =>
    s.sendCkpt dst (ckptAddr dataOp cseq k (i * 121)) (cuts.getD i [])) s
  s.sendCkpt dst (ckptAddr endOp cseq k 0) sha

/-- The packet at the head of a sub-queue, where it is a CKPT packet of the given operation. One whose operation is
reserved is dropped and logged. -/
def State.openCkpt (s : State) (p : Nat) (vc : BitVec 3) (op : BitVec 4) : State × Option Packet :=
  match s.openPacket p vc [8] with
  | (s, none) => (s, none)
  | (s, some k) =>
    let o := ckptOp (pktAddr k.hdr)
    if o = 0 ∨ 8 < o.toNat then (s.dropPacket p vc k, none)
    else if o = op then (s, some k) else (s, none)

/-! ## Capture (R436–R439) -/

/-- The staged fields of the page take effect (R455): at a commit while STATE is IDLE, otherwise at a capture. The
scope entry that SCOPE_SEL names takes its staged value; a buddy that BUDDY newly names holds no image of this
device. DEDUCED: assumption 107. -/
def State.ckptApply (s : State) : State :=
  let key := rk .ckpt 0 0x58
  let s := if s.nextVal (rk .ckpt 0 0x4C) = s.pr .ckpt 0 0x4C then s
    else { s with ckpt := { s.ckpt with holds := [] } }
  let s := match s.stagedOf key with
    | some v =>
      let sel := (s.pr .ckpt 0 0x54).toNat % 16
      { s with ckpt := { s.ckpt with scope := s.ckpt.scope.put 0 sel v } }
    | none => s
  (s.applyStaged ⟨.ckpt, 0⟩ 1).setReg key 0

/-- A capture (R438). DEDUCED: assumption 107. -/
def State.ckptCapture (s : State) : State :=
  let c := s.commitOf ⟨.ckpt, 0⟩
  let s := if c.waiting then s.ckptApply.safePoints ⟨.ckpt, 0⟩ else s
  let sh := s.scopeShards
  let full := s.ckpt.full || ([0, 1].any fun ab =>
    (abField s.ckptBuddy ab).isSome && !s.ckpt.holds.get false ab)
  let add := (sh.filter fun x => full || s.shardDirty x).map (·.index)
  let s := sh.foldl State.shardClean s
  { s with ckpt := { s.ckpt with
      capture := (sh.map (·.index)).filter fun i => add.contains i || s.ckpt.capture.contains i
      cseq := s.ckpt.cseq + 1, step := s.stepNo, capturedAt := s.sys.time, st := 1, err := 0, tx := []
      boundaries := 0, warned := false, selected := false, take := false, full := false, prevFailed := false
      afterRestore := false, uncommitted := true } }

/-- The checkpoint is complete once every shard of its capture set has been acknowledged (R445). -/
def State.ckptCheck (s : State) : State :=
  if s.ckpt.st = 1 ∧ s.ckpt.capture.all fun i => ((s.ckpt.tx.get ⟨false, false, false, 0⟩ i).acked) then
    let us := (s.sys.time - s.ckpt.capturedAt).toNat / 1000
    let s := s.setPr .ckpt 0 0x80 (BitVec.ofNat 32 (min us (2 ^ 32 - 1)))
    let s := { s with ckpt := { s.ckpt with
      st := 2, capture := [], holds := [0, 1].foldl (fun m ab => m.put false ab (abField s.ckptBuddy ab).isSome) [] } }
    s.raise .ckpt 0 1
  else s

/-- The trigger at a step boundary (R436, R437, R451). -/
def State.ckptBoundary (s : State) : State :=
  let cfg := s.pr .ckpt 0 0x40
  let n := s.ckpt.boundaries + 1
  let s := { s with ckpt := { s.ckpt with boundaries := n } }
  let everyN := (cfg.extractLsb' 16 12).toNat
  let timer := cfg.toNat % 65536
  let hit := decide (everyN ≠ 0 ∧ everyN ≤ n) ||
    decide (timer ≠ 0 ∧ timer * 1000000000 ≤ (s.sys.time - s.ckpt.capturedAt).toNat) ||
    s.ckpt.warned || s.ckpt.take || s.ckpt.afterRestore || s.ckpt.prevFailed || s.ckpt.selected
  if !cfg.getLsbD 31 || !hit then s
  else
    let s := if s.ckpt.warned then s.bump .ckpt 0 0x8C else s
    if s.ckpt.st = 1 ∨ s.ckpt.st = 3 then { s with ckpt := { s.ckpt with selected := true } }
    else s.ckptCapture.ckptCheck

/-- The checkpoint fails (R443, R444): its buddies undo what they hold of it, and the same boundary is captured again
at once, unless the job has faulted. -/
def State.ckptFail (s : State) (err : BitVec 4) : State :=
  let s := (s.bump .ckpt 0 0x68).raise .ckpt 0 4
  let s := [0, 1].foldl (fun s ab => match abField s.ckptBuddy ab with
    | some d => s.sendCkpt d (ckptAddr 8 s.ckpt.cseq 0 0) []
    | none => s) s
  if s.sys.stageMode ∧ s.stg.st ≠ 5 then
    { s with ckpt := { s.ckpt with
        err := err, cseq := s.ckpt.cseq + 1, capturedAt := s.sys.time, tx := [], st := 1 } }
  else { s with ckpt := { s.ckpt with err := err, st := 4, prevFailed := true } }

/-! ## Sending (R441, R443) -/

def State.txOf (s : State) (i : Nat) : ShardTx := s.ckpt.tx.get ⟨false, false, false, 0⟩ i

def State.setTx (s : State) (i : Nat) (t : ShardTx) : State :=
  { s with ckpt := { s.ckpt with tx := s.ckpt.tx.put ⟨false, false, false, 0⟩ i t } }

/-- CHECKPOINT_SHARD_SEND (R441): the next shard of the capture set goes to its buddy. A shard that cannot be read
fails the checkpoint as a digest that does not match, and one with no buddy as no answer. DEDUCED: assumption 106. -/
def execCheckpointShardSend (s : State) : Out :=
  if s.ckpt.st ≠ 1 then .next s
  else match s.ckpt.capture.find? fun i => !(s.txOf i).sent with
    | none => .next s
    | some i => match s.scopeShards.find? fun x => x.index == i with
      | none => .next (s.setTx i ⟨true, true, false, s.sys.time⟩).ckptCheck
      | some x => match s.buddyOf i with
        | none => .next (s.ckptFail 3)
        | some (ab, k) => match s.shardRead x, abField s.ckptBuddy ab with
          | some bs, some d =>
            let t := s.txOf i
            let s := s.sendShard d 1 2 s.ckpt.cseq k bs (sha256 bs)
            let s := s.bump64 .ckpt 0 0x70 bs.length
            let s := if t.resent then s.bump .ckpt 0 0x6C else s
            .next (s.setTx i { t with sent := true, endAt := s.sys.time })
          | none, _ => .next ((s.shardNote x).ckptFail 2)
          | _, none => .next (s.ckptFail 2)

/-- A shard has not been acknowledged: it is sent again once, then the checkpoint fails (R443). -/
def State.resendShard (s : State) (i : Nat) (err : BitVec 4) : State :=
  let t := s.txOf i
  if t.resent then s.ckptFail err else s.setTx i { t with sent := false, resent := true }

/-- SHARD_ACK_TIMEOUT (R443): 10 ms after SHARD_END. DEDUCED: assumption 4. -/
def execShardAckTimeout (i : Fin 131072) (s : State) : Out :=
  let t := s.txOf i.val
  if s.ckpt.st = 1 ∧ t.sent ∧ !t.acked ∧ 10000000 ≤ (s.sys.time - t.endAt).toNat then .next (s.resendShard i.val 3)
  else .next s

/-- End a restore that cannot go on: the ranges in the scope are undefined (R449). DEDUCED: assumption 138. -/
def State.restoreFail (s : State) (err : BitVec 4) : State :=
  let s := (s.bump .ckpt 0 0x68).raise .ckpt 0 4
  let s := s.scopeHandles.foldl (fun s h => s.openDev 0 h.dev.toNat h.size.toNat) s
  { s with ckpt := { s.ckpt with st := 4, err := err, restore := false, pull := [] } }

/-- CKPT_ACK (R442, R445). -/
def execCkptAck (p : Fin 7) (vc : BitVec 3) (s : State) : Out :=
  match s.openCkpt p.val vc 3 with
  | (s, none) => .next s
  | (s, some k) =>
    let s := s.popPacket p.val vc k
    let a := pktAddr k.hdr
    match whichAb s.ckptBuddy (pktSrc k.hdr) with
    | some ab =>
      let i := s.shardOfHalf ab (ckptShard a)
      let t := s.txOf i
      if s.ckpt.st = 1 ∧ ckptCseq a = s.ckpt.cseq ∧ t.sent then .next (s.setTx i { t with acked := true }).ckptCheck
      else .next s
    | none => .next s

/-- CKPT_NAK (R443, R449): OFFSET gives the reason, in the codes of CKPT.STATUS.ERR; 0 stands for a digest that does
not match. DEDUCED: assumption 104. -/
def execCkptNak (p : Fin 7) (vc : BitVec 3) (s : State) : Out :=
  match s.openCkpt p.val vc 4 with
  | (s, none) => .next s
  | (s, some k) =>
    let s := s.popPacket p.val vc k
    let a := pktAddr k.hdr
    match whichAb s.ckptBuddy (pktSrc k.hdr) with
    | some ab =>
      let i := s.shardOfHalf ab (ckptShard a)
      if s.ckpt.st = 3 then .next (if ckptOff a = 5 ∨ ckptOff a = 6 then s.restoreFail (BitVec.ofNat 4 (ckptOff a)) else s)
      else if s.ckpt.st = 1 ∧ ckptCseq a = s.ckpt.cseq ∧ (s.txOf i).sent ∧ !(s.txOf i).acked then
        .next (if ckptOff a = 1 then s.ckptFail 1 else s.resendShard i 2)
      else .next s
    | none => .next s

/-! ## The buddy's halves (R440–R446) -/

/-- A half that holds nothing. -/
def BuddyHalf.init : BuddyHalf :=
  { committed := none, slots := [], journal := [], rx := [], refuse := none, cseq := 0 }

def State.halfOfBuddy (s : State) (h : Nat) : BuddyHalf := s.ckpt.half.get BuddyHalf.init h

def State.setBuddyHalf (s : State) (h : Nat) (v : BuddyHalf) : State :=
  { s with ckpt := { s.ckpt with half := s.ckpt.half.put BuddyHalf.init h v } }

/-- The image's shards in a half. -/
def BuddyHalf.shards (h : BuddyHalf) : List Nat := h.slots.keys

/-- The physical address of image slot `k` of half `h` (R440). -/
def State.imageSlot (s : State) (h k : Nat) : Nat := s.halfBase h + 0x400000 + k * 0x200000

/-- Bytes of the journal that a half holds, each entry its shard number and its coded shard. DEDUCED: assumption 106. -/
def BuddyHalf.journalBytes (h : BuddyHalf) : Nat := (h.journal.map fun j => 4 + j.coded.length).foldl (· + ·) 0

/-- Overlay the pieces of a shard that have arrived. -/
def assemble (ps : List (Nat × List Byte)) : List Byte :=
  let len := ps.foldl (fun m q => max m (q.1 + q.2.length)) 0
  ps.foldl (fun acc q => acc.take q.1 ++ q.2 ++ acc.drop (q.1 + q.2.length)) (List.replicate len 0)

/-- Plane-code a delta with WIDTH 32, block by block (R240, R442). -/
def codeShard (bs : List Byte) : List Byte := (chunksOf 4096 (bs.length / 4096 + 1) bs).flatMap (packBlock 32)

/-- Decode a coded delta of `n` bytes. -/
def decodeShard : Nat → Nat → List Byte → List Byte
  | 0, _, _ => []
  | fuel + 1, n, src =>
    if n = 0 then []
    else match unpackBlock 32 (min n 4096) src with
      | some (k, bs) => bs ++ decodeShard fuel (n - bs.length) (src.drop k)
      | none => []

/-- The half that serves the sender of a packet. -/
def State.halfFor (s : State) (src : BitVec 14) : Option Nat := whichAb s.ckptPartner src

/-- Drop a shard packet from a device that PARTNER does not name (R440). -/
def State.ckptStale (s : State) (p : Nat) (vc : BitVec 3) (k : Packet) : State :=
  (s.dropPacket p vc k).bump .ckpt 0 0x88

/-- A half turns to a new checkpoint number: what was being received of the last one is dropped. -/
def BuddyHalf.turn (h : BuddyHalf) (cseq : BitVec 12) : BuddyHalf :=
  if h.cseq = cseq then h else { h with cseq := cseq, rx := [], refuse := if h.refuse = some cseq then h.refuse else none }

/-- SHARD_DATA (R442). -/
def execShardData (p : Fin 7) (vc : BitVec 3) (s : State) : Out :=
  match s.openCkpt p.val vc 1 with
  | (s, none) => .next s
  | (s, some k) => match s.halfFor (pktSrc k.hdr) with
    | none => .next (s.ckptStale p.val vc k)
    | some h =>
      let a := pktAddr k.hdr
      let s := s.popPacket p.val vc k
      let b := (s.halfOfBuddy h).turn (ckptCseq a)
      let i := ckptShard a
      .next (s.setBuddyHalf h { b with rx := b.rx.put [] i (b.rx.get [] i ++ [(32 * ckptOff a, k.data)]) })

/-- Apply a shard whose end has arrived (R442): the answer is the state and the NAK's reason, or none for ACK.
DEDUCED: assumption 107. -/
def State.applyShard (s : State) (h i : Nat) (sha : List Byte) : State × Option Nat :=
  let b := s.halfOfBuddy h
  let new := assemble (b.rx.get [] i)
  let b := { b with rx := b.rx.put [] i [] }
  let key := s.keyOf 64
  let at_ := s.imageSlot h i
  let was := b.slots.get none i
  let image := if was.isSome then s.celRead key at_ new.length else List.replicate new.length 0
  let coded := codeShard (List.zipWith (· ^^^ ·) new image)
  let slots := max (i + 1) ((b.shards.getLast?.map (· + 1)).getD 0)
  if b.refuse = some b.cseq then (s.setBuddyHalf h b, some 1)
  else if s.halfBytes < 0x400000 + slots * 0x200000 + b.journalBytes + 4 + coded.length ∨ 0x200000 < new.length then
    (s.setBuddyHalf h { b with refuse := some b.cseq }, some 1)
  else
    let fill (bs : List Byte) : List Byte := bs ++ List.replicate (0x200000 - bs.length) 0
    let s := (s.celWrite key at_ (fill new)).bump64 .ckpt 0 0x78 coded.length
    if sha256 (s.celRead key at_ new.length) = sha then
      (s.setBuddyHalf h { b with
        journal := b.journal ++ [JournalEnt.mk i coded was.isSome ((was.map (·.1)).getD 0)]
        slots := b.slots.put none i (some (BitVec.ofNat 256 (leVal sha), new.length)) }, none)
    else ((s.celWrite key at_ (fill image)).setBuddyHalf h b, some 0)

/-- SHARD_END (R442). -/
def execShardEnd (p : Fin 7) (vc : BitVec 3) (s : State) : Out :=
  match s.openCkpt p.val vc 2 with
  | (s, none) => .next s
  | (s, some k) => match s.halfFor (pktSrc k.hdr) with
    | none => .next (s.ckptStale p.val vc k)
    | some h =>
      let a := pktAddr k.hdr
      let s := s.popPacket p.val vc k
      let s := s.setBuddyHalf h ((s.halfOfBuddy h).turn (ckptCseq a))
      let r := s.applyShard h (ckptShard a) k.data
      .next (r.1.sendCkpt (pktSrc k.hdr)
        (match r.2 with
          | none => ckptAddr 3 (ckptCseq a) (ckptShard a) 0
          | some why => ckptAddr 4 (ckptCseq a) (ckptShard a) why) [])

/-- Undo one journal entry: the delta comes off its image slot, and a slot that was new is emptied. -/
def State.undoEntry (s : State) (h : Nat) (j : JournalEnt) : State :=
  let b := s.halfOfBuddy h
  let key := s.keyOf 64
  let at_ := s.imageSlot h j.shard
  match b.slots.get none j.shard with
  | none => s
  | some (_, len) =>
    let delta := decodeShard 513 len j.coded
    let s := s.celWrite key at_ (List.zipWith (· ^^^ ·) (s.celRead key at_ len) delta)
    s.setBuddyHalf h { b with slots := b.slots.put none j.shard (if j.existed then some (j.oldSha, len) else none) }

/-- Undo a half to its committed manifest (R446). -/
def State.undoHalf (s : State) (h : Nat) : State :=
  let s := (s.halfOfBuddy h).journal.reverse.foldl (fun s j => s.undoEntry h j) s
  s.setBuddyHalf h { s.halfOfBuddy h with journal := [], rx := [], refuse := none }

/-- ABANDON (R446). -/
def execAbandon (p : Fin 7) (vc : BitVec 3) (s : State) : Out :=
  match s.openCkpt p.val vc 8 with
  | (s, none) => .next s
  | (s, some k) => match s.halfFor (pktSrc k.hdr) with
    | none => .next (s.ckptStale p.val vc k)
    | some h => .next ((s.popPacket p.val vc k).undoHalf h)

/-- The bytes of a manifest as the half holds them. -/
def Manifest.bytes (m : Manifest) (half : Nat) : List Byte :=
  leBytes 2 m.owner.toNat ++ [BitVec.ofNat 8 half, 0] ++ leBytes 2 m.cseq.toNat ++ [0, 0] ++ leBytes 8 m.step.toNat ++
  leBytes 4 m.ents.length ++ [0, 0, 0, 0] ++ leBytes 32 m.scope.toNat ++ leBytes 8 m.time.toNat ++
  m.ents.flatMap fun e =>
    leBytes 4 e.shard.toNat ++ leBytes 2 e.region.toNat ++ [if e.bank then 1 else 0, 0] ++ leBytes 8 e.offset.toNat ++
    leBytes 4 e.len.toNat ++ List.replicate 12 0 ++ leBytes 32 e.sha.toNat

/-- Commit a half (R445): the new manifest is written and the journal emptied. No packet carries the owner's step,
scope digest, capture time, region IDs or offsets, so these take free values.
DESIGN CHOICE: assumption 105; DEDUCED: assumption 106. -/
def State.commitHalf (s : State) (h : Nat) : State :=
  let b := s.halfOfBuddy h
  match abField s.ckptPartner h with
  | none => s
  | some owner =>
    if b.journal.isEmpty then s
    else
      let v (s : State) (i : Nat) : BitVec 64 := Config.freeWord (s.sys.freeCtr + i)
      let ks := b.shards
      let ents := (List.range ks.length).map fun n =>
        let k := ks.getD n 0
        let x := (b.slots.get none k).getD (0, 0)
        ManEnt.mk (BitVec.ofNat 32 k) ((v s (6 + 2 * n)).truncate 16) (x.2 != 0x200000) (v s (7 + 2 * n))
          (BitVec.ofNat 32 x.2) x.1
      let m : Manifest := ⟨owner, b.cseq, v s 0, v s 1 ++ v s 2 ++ v s 3 ++ v s 4, v s 5, ents⟩
      let s := { s with sys := { s.sys with freeCtr := s.sys.freeCtr + 6 + 2 * ks.length } }
      let s := s.celWrite (s.keyOf 64) (s.halfBase h) (m.bytes h)
      (s.setBuddyHalf h { b with committed := some m, journal := [], rx := [], refuse := none }).raise .ckpt 0 2

/-- A VERDICT_DOWN (R445): a complete checkpoint of this device is committed, and so is each half.
DEDUCED: assumption 106. -/
def State.ckptVerdict (s : State) : State :=
  let s := if s.ckpt.st = 2 then
      ({ s with ckpt := { s.ckpt with st := 0, uncommitted := false } }.bump64 .ckpt 0 0x60 1).raise .ckpt 0 2
    else s
  (s.commitHalf 0).commitHalf 1

/-! ## Restore (R448–R450) -/

/-- Ask a buddy for its half: the digest of the scope table, and in OFFSET whether the last committed checkpoint is
wanted. -/
def State.pullFrom (s : State) (ab : Nat) : State :=
  match abField s.ckptBuddy ab with
  | none => s
  | some d =>
    let s := s.sendCkpt d (ckptAddr 5 s.ckpt.cseq 0 s.ckpt.toCommitted.toNat) (sha256 s.scopeBytes)
    let old := (s.ckpt.pull.get none ab).getD ⟨false, s.sys.time, [], [], []⟩
    { s with ckpt := { s.ckpt with
        pull := s.ckpt.pull.put none ab (some { old with answered := false, at_ := s.sys.time }) } }

/-- PULL_REQ (R448, R450): the scope digest is checked against the half's header, a half asked for its committed
checkpoint is undone first, and the image is streamed. DEDUCED: assumption 104; DESIGN CHOICE: assumption 105. -/
def execPullReq (p : Fin 7) (vc : BitVec 3) (s : State) : Out :=
  match s.openCkpt p.val vc 5 with
  | (s, none) => .next s
  | (s, some k) => match s.halfFor (pktSrc k.hdr) with
    | none => .next (s.ckptStale p.val vc k)
    | some h =>
      let s := s.popPacket p.val vc k
      let a := pktAddr k.hdr
      let src := pktSrc k.hdr
      let s := if ckptOff a % 2 = 1 then s.undoHalf h else s
      let b := s.halfOfBuddy h
      match b.committed with
      | none => .next (s.sendCkpt src (ckptAddr 4 (ckptCseq a) 0 6) [])
      | some m =>
        if m.scope ≠ BitVec.ofNat 256 (leVal k.data) then .next (s.sendCkpt src (ckptAddr 4 (ckptCseq a) 0 5) [])
        else
          .next (b.shards.foldl (fun s i => match b.slots.get none i with
            | some (sha, len) =>
              let data := s.celReadOpen (s.keyOf 64) (s.imageSlot h i) len
              let s := { s with sys := { s.sys with freeCtr := s.sys.freeCtr + len } }
              (s.noteCel (s.imageSlot h i) len).sendShard src 6 7 (ckptCseq a) i data (leBytes 32 sha.toNat)
            | none => s) s)

/-- Write pulled bytes into a shard of the scope. -/
def State.shardWrite (s : State) (x : CkptShard) (off : Nat) (data : List Byte) : State :=
  if x.len < off + data.length then s
  else if x.cel then s.viewWrite 0 (x.addr + off) data
  else s.bankWrite (x.addr + off) data

/-- The pull in progress that a packet belongs to. -/
def State.pullOf (s : State) (src : BitVec 14) : Option (Nat × PullSt) :=
  match whichAb s.ckptBuddy src with
  | some ab => (s.ckpt.pull.get none ab).map fun u => (ab, u)
  | none => none

def State.setPull (s : State) (ab : Nat) (u : PullSt) : State :=
  { s with ckpt := { s.ckpt with pull := s.ckpt.pull.put none ab (some u) } }

/-- PULL_DATA (R448). -/
def execPullData (p : Fin 7) (vc : BitVec 3) (s : State) : Out :=
  match s.openCkpt p.val vc 6 with
  | (s, none) => .next s
  | (s, some k) =>
    let s := s.popPacket p.val vc k
    let a := pktAddr k.hdr
    match s.pullOf (pktSrc k.hdr) with
    | none => .next s
    | some (ab, u) =>
      let s := s.setPull ab { u with answered := true }
      match s.scopeShards.find? fun x => x.index == s.shardOfHalf ab (ckptShard a) with
      | some x => .next (s.shardWrite x (32 * ckptOff a) k.data)
      | none => .next s

/-- Whether every shard of the scope has been written and matched. -/
def State.restoreDone (s : State) : Bool :=
  s.scopeShards.all fun x => match s.buddyOf x.index with
    | some (ab, _) => ((s.ckpt.pull.get none ab).map fun u => u.matched.contains x.index).getD false
    | none => true

/-- PULL_END (R448, R449): the digest of what was written is compared; a first mismatch pulls the half again.
DEDUCED: assumption 106. -/
def execPullEnd (p : Fin 7) (vc : BitVec 3) (s : State) : Out :=
  match s.openCkpt p.val vc 7 with
  | (s, none) => .next s
  | (s, some k) =>
    let s := s.popPacket p.val vc k
    match s.pullOf (pktSrc k.hdr) with
    | none => .next s
    | some (ab, u) =>
      let i := s.shardOfHalf ab (ckptShard (pktAddr k.hdr))
      match s.scopeShards.find? fun x => x.index == i with
      | none => .next s
      | some x =>
        if (s.shardRead x).map sha256 = some k.data then
          let s := s.setPull ab { u with answered := true, matched := if u.matched.contains i then u.matched else u.matched ++ [i] }
          if s.restoreDone then
            .next ({ s with ckpt := { s.ckpt with
              st := 0, err := 0, restore := false, pull := [], afterRestore := true, uncommitted := false } }.raise .ckpt 0 8)
          else .next s
        else if u.failed.contains i then .next (s.restoreFail 2)
        else .next ((s.setPull ab { u with answered := true, failed := u.failed ++ [i] }).pullFrom ab)

/-- RESTORE_TIMEOUT (R449): a buddy has not answered within 10 ms. -/
def execRestoreTimeout (b : Bool) (s : State) : Out :=
  match s.ckpt.pull.get none b.toNat with
  | none => .next s
  | some u =>
    if s.ckpt.st = 3 ∧ !u.answered ∧ 10000000 ≤ (s.sys.time - u.at_).toNat then .next (s.restoreFail 3)
    else .next s

/-! ## CKPT.CTRL -/

/-- An accepted write of CKPT.CTRL: TAKE and FULL stay set until a capture, RESTORE starts a restore (R448). A restore
that the stage engine's state does not allow rejects the write. -/
def State.ckptCtrl (s : State) (f : Fn) (v : Word) : State :=
  match s.openAt f ⟨.ckpt, 0⟩ 0x08 v with
  | .error s => s
  | .ok t =>
    let ready := s.sys.stageMode && (s.stg.st == 1 || s.stg.st == 5) && s.ckpt.st != 3 &&
      (s.stagedKeys ⟨.ckpt, 0⟩).isEmpty
    if v.getLsbD 2 ∧ !ready then s.rejectState f t
    else
      let s := { s with ckpt := { s.ckpt with
        take := s.ckpt.take || v.getLsbD 0, full := s.ckpt.full || v.getLsbD 1, toCommitted := v.getLsbD 3 } }
      if v.getLsbD 2 then
        let s := { s with ckpt := { s.ckpt with st := 3, err := 0, restore := true, tx := [], pull := [] } }
        (s.pullFrom 0).pullFrom 1
      else s

/-- CKPT_TAKE (R436): a write of CKPT.CTRL. -/
def execCkptTake (f : Fn) (v : Word) (s : State) : Out := .next (s.ckptCtrl f (v ||| 1))

/-- CKPT_FULL (R438): a write of CKPT.CTRL. -/
def execCkptFull (f : Fn) (v : Word) (s : State) : Out := .next (s.ckptCtrl f (v ||| 2))

/-- CKPT_RESTORE (R448): a write of CKPT.CTRL. -/
def execCkptRestore (f : Fn) (v : Word) (s : State) : Out := .next (s.ckptCtrl f (v ||| 4))

end Sys2Proof.Machine
end

