-- ==== Sys2Proof/Machine/Coll.lean ====
section
/-! DEFINITION. The collective engine (R396–R431): contexts and trees, reductions with stragglers and carries, tears
and retries, the verdict round with the loss-spike detector, barriers and snapshots. -/

namespace Sys2Proof.Machine

/-! ## Views -/

def State.cctx (s : State) (n : Nat) : CollCtx := s.coll.ctx.get CollCtx.init n

def State.setCctx (s : State) (n : Nat) (v : CollCtx) : State :=
  { s with coll := { s.coll with ctx := s.coll.ctx.put CollCtx.init n v } }

/-- CTX_CFGn and CTX_RANKn (R397, R398, R430). -/
def State.ctxCfg (s : State) (n : Nat) : Word := s.pr .coll 0 (0x100 + 4 * n)
def State.ctxOn (s : State) (n : Nat) : Bool := (s.ctxCfg n).getLsbD 31
def State.ctxMember (s : State) (n : Nat) : Bool := (s.ctxCfg n).getLsbD 29
def State.ctxPart (s : State) (n : Nat) : Nat := (s.ctxCfg n).toNat % 64
def State.ctxRank (s : State) (n : Nat) : Nat := (s.pr .coll 0 (0x140 + 4 * n)).toNat % 0x4000
def State.ctxSize (s : State) (n : Nat) : Nat := ((s.pr .coll 0 (0x140 + 4 * n)).extractLsb' 16 14).toNat + 1

/-- The collective parameters of a record (R400, R465). -/
def LRec.cCtx (l : LRec) : Nat := l.subF 12 4
def LRec.cIn (l : LRec) : Nat := l.subF 8 4
def LRec.cWire (l : LRec) : Nat := l.subF 4 4
def LRec.cOut (l : LRec) : Nat := l.subF 0 4
def LRec.cLen (l : LRec) : Nat := l.immF 36 28 * 32
def LRec.cDeadline (l : LRec) : Nat := l.immF 20 16
def LRec.cCvt (l : LRec) : Nat := l.immF 12 8
def LRec.cOp (l : LRec) : Nat := l.immF 10 2
def LRec.cDrop (l : LRec) : Bool := l.imm.getLsbD 9
def LRec.cVerdict (l : LRec) : Bool := l.imm.getLsbD 8
def LRec.cLoss (l : LRec) : Bool := l.imm.getLsbD 7
def LRec.cTimeout (l : LRec) : Nat := l.immF 0 5
/-- ALL_REDUCE and REDUCE_SCATTER. -/
def LRec.cReduces (l : LRec) : Bool := l.opcode == 0x70 || l.opcode == 0x71
/-- Elements of the full tensor, and the bytes of its wire form. -/
def LRec.cCount (l : LRec) : Nat := l.cLen / (elemBits l.cIn / 8)
def LRec.cWireLen (l : LRec) : Nat := if l.cReduces then l.cCount * (elemBits l.cWire / 8) else l.cLen

/-! ## Trees (R378) -/

def State.treeReg (s : State) (t : Nat) : Word := s.pr .route 0 (0x54 + 4 * t)
def State.ctxTree (s : State) (n : Nat) : Nat := if (s.ctxCfg n).getLsbD 30 then 1 else 0
def State.treeRoot (s : State) (t : Nat) : Bool := (s.treeReg t).getLsbD 30
def State.treeUp (s : State) (t : Nat) : Nat := ((s.treeReg t).extractLsb' 27 3).toNat
def State.treeDown (s : State) (t : Nat) : List Nat := (List.range 6).filter fun p => (s.treeReg t).getLsbD p

/-- The physical coordinate one step from this device in a direction (+X, −X, +Y, −Y, +Z, −Z). -/
def State.physBeside (s : State) (dir : Nat) : BitVec 14 :=
  let d := dir / 2
  let n := s.dimSize d
  let x := coordOf s.selfPhys d
  let x' := if dir % 2 = 0 then (x + 1) % n else (x + n - 1) % n
  let c (k : Nat) := if k = d then x' else coordOf s.selfPhys k
  BitVec.ofNat 5 (c 0) ++ BitVec.ofNat 5 (c 1) ++ BitVec.ofNat 4 (c 2)

/-- The logical coordinate of the device beside this one on a logical port. -/
def State.neighbour (s : State) (p : Nat) : Option (BitVec 14) :=
  let c := s.physBeside (s.dirOf p)
  (s.lk.map.find? fun e => e.2.getLsbD 31 && e.2.extractLsb' 0 14 == c).map fun e => BitVec.ofNat 14 e.1

/-- The tree neighbour's port that a packet came from: the port it arrived on where its sender is beside it. -/
def State.fromPort (s : State) (arrived : Nat) (src : BitVec 14) : Nat :=
  if s.neighbour arrived = some src then arrived
  else ((List.range 6).find? fun p => s.neighbour p == some src).getD arrived

/-- Whether every tree edge of a context at this device has a live route (R415). -/
def State.treeLive (s : State) (n : Nat) : Bool :=
  let t := s.ctxTree n
  (s.treeDown t ++ (if s.treeRoot t then [] else [s.treeUp t])).all fun p => match s.neighbour p with
    | some c => s.reachable c
    | none => false

/-! ## Packets (R407, R408) -/

def collAddr (ctx : Nat) (phase : BitVec 4) (attempt : Bool) (seq : BitVec 12) (off : Nat) : BitVec 48 :=
  BitVec.ofNat 4 ctx ++ phase ++ BitVec.ofBool attempt ++ seq ++ BitVec.ofNat 27 off

/-- Send a COLL packet to the device beside a logical port. -/
def State.sendColl (s : State) (n p : Nat) (phase : BitVec 4) (off : Nat) (data : List Byte) : State :=
  let x := s.cctx n
  let s := s.chargeLink (s.ctxPart n) data.length
  match s.neighbour p with
  | some c =>
    let verdict := phase = 0xA ∨ phase = 0xB
    (s.sendPacket (mkPkt (collAddr n phase (x.attempt && !decide verdict) x.seq off) 0 0 data.length (s.ctxPart n) 7
      s.selfLogical c) data).getD s
  | none => s

/-- Send data in packets of at most 3,872 B, the first at byte `base` of the wire data. -/
def State.sendCollData (s : State) (n p : Nat) (phase : BitVec 4) (base : Nat) (data : List Byte) : State :=
  let cuts := chunksOf 3872 (data.length / 3872 + 1) data
  (List.range cuts.length).foldl (fun s i => s.sendColl n p phase (base / 32 + 121 * i) (cuts.getD i [])) s

/-- The payloads of UP_END, VERDICT_UP and VERDICT_DOWN. DESIGN CHOICE: assumption 98. -/
def UpEnd.bytes (u : UpEnd) : List Byte :=
  leBytes 4 u.contrib.toNat ++ leBytes 2 u.low.toNat ++ leBytes 2 u.members.toNat ++ [if u.pip then 1 else 0, 0, 0, 0] ++
  leBytes 4 u.lossSum.toNat ++ leBytes 8 u.lossCount.toNat

def leAt (bs : List Byte) (o n : Nat) : Nat := leVal ((bs.drop o).take n)

/-- DESIGN CHOICE: assumption 98. -/
def upEndOf (bs : List Byte) : UpEnd :=
  { contrib := BitVec.ofNat 32 (leAt bs 0 4), low := BitVec.ofNat 16 (leAt bs 4 2), members := BitVec.ofNat 16 (leAt bs 6 2)
    pip := leAt bs 8 1 % 2 == 1, lossSum := BitVec.ofNat 32 (leAt bs 12 4), lossCount := BitVec.ofNat 64 (leAt bs 16 8) }

/-- A COLL packet at the head of a sub-queue, of the given phase: its context, the port of its sender, and the packet.
A packet of a disabled context, of a reserved phase or of another collective or attempt is dropped and counted (R408);
`seqOk` says for a phase which numbers it takes. A device that only forwards takes the newest number as its own.
DEDUCED: assumption 99. -/
def State.openColl (s : State) (p : Nat) (vc : BitVec 3) (phase : BitVec 4)
    (seqOk : CollCtx → BitVec 12 → Bool) : State × Option (Nat × Nat × Packet) :=
  match s.openPacket p vc [7] with
  | (s, none) => (s, none)
  | (s, some k) =>
    let a := pktAddr k.hdr
    let n := (a.extractLsb' 44 4).toNat
    let ph := a.extractLsb' 40 4
    let seq := a.extractLsb' 27 12
    let att := a.getLsbD 39
    let stale (s : State) := ((s.popPacket p vc k).bump .coll 0 0x9C, none)
    if !s.ctxOn n ∨ ph = 0 ∨ ph = 15 then stale s
    else if ph ≠ phase then (s, none)
    else
      let x := s.cctx n
      let s := if !s.ctxMember n && seqAfter seq x.seq then
          s.setCctx n { CollCtx.init with seq := seq, attempt := att, commits := x.commits }
        else s
      let x := s.cctx n
      let verdict := phase = 0xA ∨ phase = 0xB
      if !seqOk x seq ∨ (x.seq = seq ∧ x.attempt ≠ att ∧ !decide verdict) then stale s
      else (s.popPacket p vc k, some (n, s.fromPort p (pktSrc k.hdr), k))

/-- A phase of the current collective. -/
def seqNow (x : CollCtx) (seq : BitVec 12) : Bool := x.seq == seq

/-- A packet's byte offset in the wire data. -/
def collOff (k : Packet) : Nat := ((pktAddr k.hdr).extractLsb' 0 27).toNat * 32

/-! ## Values (R402–R404) -/

/-- The FP32 values of elements of a format. DEDUCED: assumption 100. -/
def widen (code : Nat) (bs : List Byte) : List (BitVec 32) :=
  (chunksOf (elemBits code / 8) (bs.length + 1) bs).map fun e => f32 (elemVal code (leVal e))

/-- Convert FP32 values to a format under a conversion control byte (R71). DEDUCED: assumption 100. -/
def narrow (code cvt : Nat) (xs : List (BitVec 32)) : List Byte :=
  xs.flatMap fun x =>
    leBytes (elemBits code / 8) (convElem code (if cvt % 4 = 1 then .zero else .nearest) (cvt / 4 % 2 == 1) (v32 x)).bits

/-- The element operation. -/
def LRec.cCombine (l : LRec) (a b : BitVec 32) : BitVec 32 :=
  if l.cOp = 0 then add32 a b else if l.cOp = 1 then max32 a b else min32 a b

/-- Read bytes of a collective's operand; none where they cannot be read. -/
def State.collRead (s : State) (l : LRec) (k off n : Nat) : Option (List Byte) :=
  match l.opnd k with
  | some o => s.partRead l.part o.kind (o.addr.toNat + off) n
  | none => none

/-- Write bytes at a collective's operand. -/
def State.collWrite (s : State) (l : LRec) (k off : Nat) (data : List Byte) : Option State :=
  match l.opnd k with
  | some o => s.partWrite l.part o.kind (o.addr.toNat + off) data
  | none => some s

/-- The valid header of the carry area: pip bit and count (R411, R413). -/
def State.carryHeader (s : State) (l : LRec) : Option (Bool × BitVec 32) :=
  if l.opcode ≠ 0x70 ∨ l.cDeadline = 0 ∨ l.cDrop ∨ !l.has 2 then none
  else match s.collRead l 2 0 64 with
    | some bs => if leAt bs 0 1 % 2 = 1 then some (leAt bs 1 1 % 2 == 1, BitVec.ofNat 32 (leAt bs 4 4)) else none
    | none => none

def carryBytes (valid pip : Bool) (count : BitVec 32) : List Byte :=
  [if valid then 1 else 0, if pip then 1 else 0, 0, 0] ++ leBytes 4 count.toNat ++ List.replicate 56 0

/-- The partial of a node that runs the command (R402), or none where an operand cannot be read.
DEDUCED: assumption 100. -/
def State.collPartial (s : State) (n : Nat) (l : LRec) : Option (List (BitVec 32)) :=
  let x := s.cctx n
  match s.collRead l 0 0 l.cLen with
  | none => none
  | some src =>
    let own := widen l.cWire (narrow l.cWire l.cCvt (widen l.cIn src))
    let own := match s.carryHeader l with
      | some _ => match s.collRead l 2 64 (4 * l.cCount) with
        | some bs => List.zipWith l.cCombine own (widen 0xB bs)
        | none => own
      | none => own
    some (x.kids.foldl (fun acc e =>
      if e.2.refused then acc else List.zipWith l.cCombine acc (widen l.cWire (assemble e.2.pieces))) own)

/-- The wire bytes that a node which only forwards, or gathers, holds: the children's pieces. Where two children's
pieces meet, the node has no command to say how they combine, and the bytes are free. DEDUCED: assumption 99. -/
def State.collUnion (s : State) (n : Nat) (own : List (Nat × List Byte)) : State × List Byte :=
  let ps := own ++ (s.cctx n).kids.flatMap fun e => if e.2.refused then [] else e.2.pieces
  let all := assemble ps
  if (ps.map (·.2.length)).foldl (· + ·) 0 ≤ all.length then (s, all)
  else
    ({ s with sys := { s.sys with freeCtr := s.sys.freeCtr + all.length } },
      (List.range all.length).map fun i => (Config.freeWord (s.sys.freeCtr + i)).truncate 8)

/-! ## Children (R409) -/

def State.kid (s : State) (n p : Nat) : CollChild := (s.cctx n).kids.get CollChild.init p

def State.setKid (s : State) (n p : Nat) (k : CollChild) : State :=
  s.setCctx n { s.cctx n with kids := (s.cctx n).kids.put CollChild.init p k }

def CollChild.arrived (k : CollChild) : Bool := !k.pieces.isEmpty || k.fin.isSome

/-- Whether the accepted set is fixed, and every accepted child's up phase is whole. -/
def State.kidsDone (s : State) (n : Nat) (deadline : Nat) (closed : Bool) : Bool :=
  (s.treeDown (s.ctxTree n)).all fun p =>
    let k := s.kid n p
    k.refused || k.fin.isSome && (deadline == 0 || closed || k.arrived)

/-- The subtree's end (R407): what this node adds, and every accepted child's. -/
def State.subtree (s : State) (n : Nat) (own : Option UpEnd) : UpEnd :=
  let ends := own.toList ++ (s.cctx n).kids.filterMap fun e => if e.2.refused then none else e.2.fin
  match ends with
  | [] => ⟨0, 0, 0, false, 0, 0⟩
  | e :: es => es.foldl (fun a b =>
      { contrib := a.contrib + b.contrib, low := if b.low.toNat < a.low.toNat then b.low else a.low
        members := a.members + b.members, pip := a.pip || b.pip, lossSum := add32 a.lossSum b.lossSum
        lossCount := a.lossCount + b.lossCount }) e

/-- Whether the children's rank ranges are consecutive with this node's own (R398). DEDUCED: assumption 99. -/
def State.ranksOk (s : State) (n : Nat) (u : UpEnd) : Bool :=
  let rs := (if s.ctxMember n then [(s.ctxRank n, 1)] else []) ++
    (s.cctx n).kids.filterMap fun e => e.2.fin.map fun f => (f.low.toNat, f.members.toNat)
  (List.range u.members.toNat).all fun i =>
    (rs.filter fun r => decide (r.1 ≤ u.low.toNat + i ∧ u.low.toNat + i < r.1 + r.2)).length == 1

/-! ## Ends -/

/-- The contexts that staged COLL fields concern (R430): those whose own registers are staged, and every context for
the training fields. DEDUCED: assumption 103. -/
def State.collConcerned (s : State) : List Nat :=
  let ks := (s.stagedIn ⟨.coll, 0⟩ 1).map fun k => k - rk .coll 0 0
  if ks.any fun o => decide (o < 0x100) then List.range 16
  else (List.range 16).filter fun n => ks.contains (0x100 + 4 * n) || ks.contains (0x140 + 4 * n)

/-- Whether a collective is in progress on a context that staged fields concern. DEDUCED: assumption 103. -/
def State.collBusy (s : State) : Bool := s.collConcerned.any fun n => (s.cctx n).run.isSome

/-- Staged COLL fields take effect: a context whose CTX_CFG does starts its numbering at 0 again.
DEDUCED: assumption 103. -/
def State.collApply (s : State) : State :=
  let fresh := (List.range 16).filter fun n => (s.stagedOf (rk .coll 0 (0x100 + 4 * n))).isSome
  (fresh.foldl (fun s n => s.setCctx n CollCtx.init) s).settleGroup ⟨.coll, 0⟩ 1 true

/-- A context turns to its next collective; staged fields that waited for the contexts to be idle take effect
(R430). -/
def State.nextColl (s : State) (n : Nat) (last : Option CollLast) (commits : BitVec 64) : State :=
  let x := s.cctx n
  let s := s.setCctx n { CollCtx.init with seq := x.seq + 1, commits := commits, last := last }
  let c := s.commitOf ⟨.coll, 0⟩
  if c.waiting && c.groups.contains 1 && !s.collBusy then s.collApply else s

/-- The engine state of context `n` (R490): CTX, the phase it is in (R407's code of what it sends or awaits),
ATTEMPT and SEQ. DEDUCED: assumption 103. -/
def CollCtx.image (x : CollCtx) (n : Nat) (r : CollRun) (barrier : Bool) : BitVec 512 :=
  let phase : Nat :=
    if barrier then (if x.barSent then 0xD else 0xC)
    else if r.landed then (if x.vSent then 0xB else 0xA)
    else if r.sentUp then 3 else 1
  BitVec.ofNat 512 (n + phase * 2 ^ 8 + x.attempt.toNat * 2 ^ 16 + x.seq.toNat * 2 ^ 32)

/-- A collective fault (R396): a command fault, and in stage mode a JOB_FAULT. DEDUCED: assumption 102. -/
def State.collFault (s : State) (n : Nat) (cause : BitVec 16) : State :=
  let x := s.cctx n
  match x.run with
  | none => s
  | some r =>
    let p := r.ref.part.val
    let s := s.bump .part p 0x504
    let s := if s.sys.stageMode then s.jobCause 5 else s
    let s := if s.stageFed p r.ref.queue.val then s else 
        let barrier := ((s.flight? r.ref).map fun f => f.lrec.opcode == 0x74).getD false
        s.failFlight r.ref { engineFault cause (engineId 0 6 0) with state := x.image n r barrier }
    s.nextColl n none x.commits

/-- Complete a collective (R405). DEDUCED: assumption 102. -/
def State.collFinish (s : State) (n : Nat) : State :=
  let x := s.cctx n
  match x.run with
  | none => s
  | some r =>
    let s := (s.bump64 .coll 0 0x80 1).bump .part r.ref.part.val 0x500
    (s.endFlight r.ref true).nextColl n x.last (x.commits + 1)

/-! ## The verdict (R419–R425) -/

def State.trainCfg (s : State) : Word := s.pr .coll 0 0x40

/-- The loss-spike detector (R421): the state, and whether the step is a spike. DEDUCED: assumption 101. -/
def State.detect (s : State) (x : BitVec 32) : State × Bool :=
  let c := s.trainCfg
  let mu := s.pr .coll 0 0x58
  let v := s.pr .coll 0 0x5C
  let n := s.pr .coll 0 0x60
  let a : BitVec 32 := BitVec.ofNat 32 ((127 - (c.extractLsb' 25 4).toNat) * 2 ^ 23)
  let bound := mul32 (s.pr .coll 0 0x50) (f32 (v32 v).sqrt)
  let spike := decide ((s.pr .coll 0 0x54).toNat % 65536 ≤ n.toNat) && (v32 bound).lt (v32 (sub32 x mu))
  let d := sub32 x mu
  let s := if spike then s.bump .coll 0 0xA4 else s
  if n = 0 then (((s.setPr .coll 0 0x58 x).setPr .coll 0 0x5C 0).setPr .coll 0 0x60 1, spike)
  else if spike then (s, true)
  else
    let ad := mul32 a d
    (((s.setPr .coll 0 0x58 (add32 mu ad)).setPr .coll 0 0x5C
      (mul32 (sub32 one32 a) (add32 v (mul32 ad d)))).setPr .coll 0 0x60 (satAdd32 n 1), false)

/-- Apply a verdict (R421–R424): the detector, the loss scale and the counts. DEDUCED: assumption 101. -/
def State.applyVerdict (s : State) (pip : Bool) (mean : Option (BitVec 32)) : State × BitVec 4 :=
  let c := s.trainCfg
  let (s, pip, spike) := match mean with
    | some x =>
      if c.getLsbD 31 && !pip then
        if !(v32 x).isFinite then (s, true, false)
        else let r := s.detect x; (r.1, pip, r.2)
      else (s, pip, false)
    | none => (s, pip, false)
  let s := if spike then s.raise .coll 0 1 else s
  let skip := pip || (spike && c.getLsbD 30)
  let lowered := pip && c.getLsbD 29
  let scale := s.pr .coll 0 0x44
  let back : BitVec 32 := BitVec.ofNat 32 ((127 - (c.extractLsb' 21 4).toNat) * 2 ^ 23)
  let s := if lowered then s.setPr .coll 0 0x44 (max32 (mul32 scale back) (s.pr .coll 0 0x48)) else s
  let growth := c.toNat % 65536
  let s := if skip then ((s.setPr .coll 0 0x64 0).bump .coll 0 0xA0).raise .coll 0 2
    else
      let g := satAdd32 (s.pr .coll 0 0x64) 1
      if growth ≠ 0 ∧ growth ≤ g.toNat then
        (s.setPr .coll 0 0x44 (min32 (mul32 scale 0x40000000) (s.pr .coll 0 0x4C))).setPr .coll 0 0x64 0
      else s.setPr .coll 0 0x64 g
  let bits := BitVec.ofBool lowered ++ BitVec.ofBool skip ++ BitVec.ofBool spike ++ BitVec.ofBool pip
  ({ s.setPr .coll 0 0x68 (bits.zeroExtend 32) with coll := { s.coll with lastSkip := skip } }, bits)

/-- The verdict record (R425). DESIGN CHOICE: assumption 98. -/
def State.verdictRecord (s : State) (n : Nat) (r : CollRun) (v : Verdict) : List Byte :=
  let x := s.cctx n
  let step := if s.sys.stageMode then s.stepNo else x.commits
  leBytes 8 step.toNat ++ [v.bits.zeroExtend 8, BitVec.ofNat 8 (2 * r.refused.toNat + x.attempt.toNat), 0, 0] ++
  leBytes 4 r.groupContrib.toNat ++ leBytes 4 (v.mean.getD nan32).toNat ++ leBytes 4 (s.pr .coll 0 0x58).toNat ++
  leBytes 4 (s.pr .coll 0 0x5C).toNat ++ leBytes 4 (s.pr .coll 0 0x44).toNat ++ leBytes 8 v.lossCount.toNat ++
  List.replicate 24 0

/-- A member whose result has landed completes once it holds the verdict: the record is written (R405).
DEDUCED: assumption 101. -/
def State.verdictClose (s : State) (n : Nat) : State :=
  let x := s.cctx n
  match x.run, x.vDown with
  | some r, some v =>
    if r.landed then
      match s.flight? r.ref with
      | some f => match s.collWrite f.lrec 3 0 (s.verdictRecord n r v) with
        | some s => s.collFinish n
        | none => s.collFault n 0x0010
      | none => s
    else s
  | _, _ => s

/-- VERDICT_DOWN reaches a device (R420, R423, R445): it goes down the tree and is applied. -/
def State.verdictDown (s : State) (n : Nat) (pip : Bool) (mean : Option (BitVec 32)) (count : BitVec 64) : State :=
  let data := [BitVec.ofNat 8 (2 * mean.isSome.toNat + pip.toNat), 0, 0, 0] ++ leBytes 4 (mean.getD 0).toNat ++
    leBytes 8 count.toNat
  let s := (s.treeDown 1).foldl (fun s p => s.sendColl n p 0xB 0 data) s
  let (s, bits) := s.applyVerdict pip mean
  let s := s.setCctx n { s.cctx n with vDown := some ⟨bits, mean, count⟩ }
  (s.ckptVerdict).verdictClose n

/-- Whether this device may send VERDICT_UP (R420, R445), and what it contributes. A leaf that leads no group sends it
once its own command runs. -/
def State.verdictOwn (s : State) (n : Nat) : Option (Option VerdictUp) :=
  let x := s.cctx n
  let t1 := s.treeReg 1
  let flagged : Bool := match x.run with
    | some r => ((s.flight? r.ref).map fun f => f.lrec.cVerdict).getD false
    | none => false
  if x.vSent ∨ !t1.getLsbD 31 ∨ s.ckpt.st = 1 then none
  else if !(s.treeDown 1).all (fun p => (x.vUps.get none p).isSome) then none
  else if (s.treeReg 0).getLsbD 31 ∧ s.treeRoot 0 ∧ s.ctxTree n = 0 ∧ s.ctxMember n then
    match x.run with
    | some r => if flagged ∧ r.landed then some (some ⟨r.groupPip, r.lossSum, r.lossCount⟩) else none
    | none => none
  else if (s.treeDown 1).isEmpty ∧ !flagged then none
  else some none

/-- The verdict round goes on where it can (R420). DEDUCED: assumption 101. -/
def State.verdictStep (s : State) (n : Nat) : State :=
  match s.verdictOwn n with
  | none => s
  | some own =>
    let x := s.cctx n
    let all := own.toList ++ (s.treeDown 1).filterMap fun p => x.vUps.get none p
    let u : VerdictUp := match all with
      | [] => VerdictUp.mk false 0 0
      | a :: as => as.foldl (fun (a b : VerdictUp) => VerdictUp.mk (a.pip || b.pip) (add32 a.lossSum b.lossSum)
          (a.lossCount + b.lossCount)) a
    let s := s.setCctx n { x with vSent := true }
    if s.treeRoot 1 then
      let mean := if u.lossCount = 0 then none
        else some (f32 ((v32 u.lossSum).div (.num false u.lossCount.toNat 0)))
      s.verdictDown n u.pip mean u.lossCount
    else
      s.sendColl n (s.treeUp 1) 0xA 0 ([if u.pip then 1 else 0, 0, 0, 0] ++ leBytes 4 u.lossSum.toNat ++
        leBytes 8 u.lossCount.toNat)

/-! ## Landing a result (R403–R405) -/

/-- The range of the wire data that a subtree of ranks takes: all of it, or its shards for REDUCE_SCATTER. -/
def State.shardRange (s : State) (n : Nat) (l : LRec) (low members : Nat) : Nat × Nat :=
  if l.opcode = 0x71 then
    let len := l.cWireLen / s.ctxSize n
    (low * len, members * len)
  else (0, l.cWireLen)

/-- Send the result down to the accepted children, and end the down phase (R403). -/
def State.sendDown (s : State) (n : Nat) (l : Option LRec) (wire : List Byte) (contrib : BitVec 32) : State :=
  (s.treeDown (s.ctxTree n)).foldl (fun s p =>
    let k := s.kid n p
    if k.refused then s
    else
      let rg := match l, k.fin with
        | some l, some f => s.shardRange n l f.low.toNat f.members.toNat
        | _, _ => (0, wire.length)
      (s.sendCollData n p 3 rg.1 ((wire.drop rg.1).take rg.2)).sendColl n p 4 0 (leBytes 4 contrib.toNat)) s

/-- Serve the LATE_REQs that wait for this commit (R412). DEDUCED: assumption 102. -/
def State.serveLate (s : State) (n : Nat) (wire : List Byte) : State :=
  let s := (s.cctx n).lateReqs.foldl (fun s p => s.sendCollData n p 7 0 wire) s
  s.setCctx n { s.cctx n with lateReqs := [] }

/-- Write the carry area's header and data at commit (R411, R413, R418). DEDUCED: assumption 102. -/
def State.carryCommit (s : State) (l : LRec) (r : CollRun) : Option State :=
  match r.carry with
  | some (xs, pip, count) => match s.collWrite l 2 64 (xs.flatMap fun x => leBytes 4 x.toNat) with
    | some s => s.collWrite l 2 0 (carryBytes true pip count)
    | none => none
  | none => if (s.carryHeader l).isSome then s.collWrite l 2 0 (carryBytes false false 0) else some s

/-- The result of a collective lands at this member: it goes down the tree, DST and the carry area are written, and the
command completes, or waits for the verdict. DEDUCED: assumption 102. -/
def State.collLand (s : State) (n : Nat) (l : LRec) (wire : List Byte) (contrib : BitVec 32) : State :=
  let x := s.cctx n
  match x.run with
  | none => s
  | some r =>
    let s := s.sendDown n (some l) wire contrib
    let mine := if l.opcode = 0x71 then
        let g := s.shardRange n l (s.ctxRank n) 1
        (wire.drop g.1).take g.2
      else wire
    let vals := if l.cReduces then widen l.cWire mine else []
    let bad := (vals.filter fun v => !(v32 v).isFinite).length
    let out := if l.cReduces then narrow l.cOut 0 vals else mine
    let s := if bad = 0 then s else (s.bump .coll 0 0xA8 bad).setPr .part l.part 0x510 1
    let written := match (if x.attempt then s.collWrite l 1 out.length out else some s) with
      | some s => match s.collWrite l 1 0 out with
        | some s => s.carryCommit l r
        | none => none
      | none => none
    match written with
    | none => s.collFault n 0x0010
    | some s =>
      let s := s.setCctx n { s.cctx n with last := some ⟨x.seq, wire, contrib⟩ }
      let s := s.serveLate n wire
      if l.cVerdict ∧ l.cReduces then
        let y := s.cctx n
        let s := s.setCctx n { y with run := some { r with landed := true, groupContrib := contrib } }
        (s.verdictStep n).verdictClose n
      else s.collFinish n

/-! ## Progress -/

/-- A refused node's partial is carried or dropped, and it asks its parent for the result (R411, R412).
DEDUCED: assumption 102. -/
def State.collRefused (s : State) (n : Nat) (l : LRec) (r : CollRun) (xs : List (BitVec 32)) (u : UpEnd) : State :=
  let s := if l.cDrop then (s.bump .coll 0 0x98).bump .part l.part 0x50C
    else (s.bump .coll 0 0x94).bump .part l.part 0x508
  let s := s.setCctx n { s.cctx n with
    refuse := false
    run := some { r with
      refused := true, sentUp := true, carry := if l.cDrop then none else some (xs, u.pip, u.contrib) } }
  s.sendColl n (s.treeUp (s.ctxTree n)) 6 0 []

/-- The up phase of a reduction or gather whose children are done: the root lands the result, another node sends its
partial up, a refused one keeps it. DEDUCED: assumption 99. -/
def State.collUp (s : State) (n : Nat) (l : LRec) (r : CollRun) : State :=
  let t := s.ctxTree n
  let own : UpEnd := ⟨1 + r.carried, BitVec.ofNat 16 (s.ctxRank n), 1, r.pip, r.lossSum, r.lossCount⟩
  let u := s.subtree n (some own)
  if l.cDeadline = 0 ∧ !s.ranksOk n u then s.collFault n 0x0020
  else
    let part : Option (State × List (BitVec 32) × List Byte) :=
      if l.cReduces then (s.collPartial n l).map fun xs => (s, xs, narrow l.cWire l.cCvt xs)
      else
        let len := l.cLen / s.ctxSize n
        (s.collRead l 0 0 len).map fun bs =>
          let g := s.collUnion n [(s.ctxRank n * len, bs)]
          (g.1, [], g.2)
    match part with
    | none => s.collFault n 0x0010
    | some (s, xs, wire) =>
      if s.treeRoot t then
        let bad := l.cReduces && (widen l.cWire wire).any fun v => !(v32 v).isFinite
        let s := s.setCctx n { s.cctx n with run := some { r with
          sentUp := true, groupPip := u.pip || bad, lossSum := u.lossSum, lossCount := u.lossCount } }
        s.collLand n l wire u.contrib
      else if (s.cctx n).refuse then s.collRefused n l r xs u
      else
        let lo := if l.opcode = 0x72 then u.low.toNat * (l.cLen / s.ctxSize n) else 0
        let hi := if l.opcode = 0x72 then u.members.toNat * (l.cLen / s.ctxSize n) else wire.length
        let s := s.setCctx n { s.cctx n with run := some { r with sentUp := true } }
        (s.sendCollData n (s.treeUp t) 1 lo ((wire.drop lo).take hi)).sendColl n (s.treeUp t) 2 0 u.bytes

/-- A REFUSE that comes after the up phase has been sent: the partial is formed again from the unchanged input and the
pieces the node holds (R411). DESIGN CHOICE: assumption 144. -/
def State.collRefuseLate (s : State) (n : Nat) (l : LRec) (r : CollRun) : State :=
  let own : UpEnd := ⟨1 + r.carried, BitVec.ofNat 16 (s.ctxRank n), 1, r.pip, r.lossSum, r.lossCount⟩
  match (if l.cReduces then s.collPartial n l else some []) with
  | some xs => s.collRefused n l r xs (s.subtree n (some own))
  | none => s.collFault n 0x0010

/-- The down phase of a member that is not the root: the result is whole at DOWN_END, or for a refused node when all
of it has come as LATE_DATA. A refused node is told no contributor count, which takes a free value.
DEDUCED: assumption 99. -/
def State.collDown (s : State) (n : Nat) (l : LRec) (r : CollRun) : State :=
  let x := s.cctx n
  let got := assemble x.down
  match x.downEnd with
  | some c => s.collLand n l got c
  | none =>
    if r.refused ∧ l.cWireLen ≤ (x.down.map (·.2.length)).foldl (· + ·) 0 then
      let v := s.free
      v.2.collLand n l got (v.1.truncate 32)
    else s

/-- The ports with an ACTIVE member. -/
def State.livePorts (s : State) : List Nat := (List.range 6).filter fun p => !(s.liveMembers p).isEmpty

/-- Start a snapshot (R429): the record, and a MARKER on every live port. -/
def State.snapStart (s : State) (n : Nat) : State :=
  let x := s.cctx n
  if x.snap.isSome then s
  else
    let ps := s.livePorts
    let s := s.setCctx n { x with snap := some ⟨s.sys.time, ps.map fun p => (p, (s.port p).next), []⟩ }
    ps.foldl (fun s p =>
      let dst := (s.neighbour p).getD 0
      s.sendOn p false (mkPkt (collAddr n 0xE x.attempt x.seq 0) 0 0 0 (s.ctxPart n) 7 s.selfLogical dst) []) s

/-- The snapshot record: 16 B of header and 16 B for each of the six logical ports. -/
def SnapSt.bytes (t : SnapSt) : List Byte :=
  let of_ (xs : List (Nat × BitVec 12)) (p : Nat) := (xs.find? fun e => e.1 == p).map (·.2.toNat)
  leBytes 8 t.time.toNat ++ List.replicate 8 0 ++ (List.range 6).flatMap fun p =>
    leBytes 2 ((of_ t.next p).getD 0) ++ leBytes 2 ((of_ t.last p).getD 0) ++
    [BitVec.ofNat 8 ((of_ t.next p).isSome.toNat + 2 * (of_ t.last p).isSome.toNat)] ++ List.replicate 11 0

/-- A snapshot goes on: the root starts it, and the record is written once every live port's MARKER has come. -/
def State.snapStep (s : State) (n : Nat) (l : LRec) : State :=
  let s := if s.treeRoot (s.ctxTree n) then s.snapStart n else s
  match (s.cctx n).snap with
  | none => s
  | some t =>
    if s.livePorts.all fun p => t.last.any fun e => e.1 == p then
      match s.collWrite l 1 0 t.bytes with
      | some s => s.collFinish n
      | none => s.collFault n 0x0010
    else s

/-- A barrier goes on (R399): up when every child has reported, down from the root. -/
def State.barrierStep (s : State) (n : Nat) (own : Bool) : State :=
  let x := s.cctx n
  let t := s.ctxTree n
  if x.barSent ∨ !own ∨ !(s.treeDown t).all (fun p => x.barUps.contains p) then s
  else
    let s := s.setCctx n { x with barSent := true }
    if s.treeRoot t then ((s.treeDown t).foldl (fun s p => s.sendColl n p 0xD 0 []) s).collFinish n
    else s.sendColl n (s.treeUp t) 0xC 0 []

/-- A broadcast goes on: the root sends its input, another member lands what it has received. -/
def State.broadcastStep (s : State) (n : Nat) (l : LRec) (r : CollRun) : State :=
  if s.treeRoot (s.ctxTree n) then
    match s.collRead l 0 0 l.cLen with
    | some bs => s.collLand n l bs 1
    | none => s.collFault n 0x0010
  else s.collDown n l r

/-- A node that only forwards (R398). DEDUCED: assumption 99. -/
def State.forwardStep (s : State) (n : Nat) : State :=
  let x := s.cctx n
  let t := s.ctxTree n
  let s :=
    if (s.treeDown t ≠ []) ∧ s.kidsDone n 0 false ∧ !x.barSent ∧ x.downEnd.isNone then
      let (s, wire) := s.collUnion n []
      let u := s.subtree n none
      let s := s.setCctx n { s.cctx n with barSent := true }
      if s.treeRoot t then s.sendDown n none wire u.contrib
      else (s.sendCollData n (s.treeUp t) 1 0 wire).sendColl n (s.treeUp t) 2 0 u.bytes
    else s
  match x.downEnd with
  | some c =>
    let wire := assemble x.down
    let s := s.sendDown n none wire c
    s.setCctx n { s.cctx n with down := [], downEnd := none, last := some ⟨x.seq, wire, c⟩ }
  | none => s

/-- A context goes on as far as it can. -/
def State.collStep (s : State) (n : Nat) : State :=
  let x := s.cctx n
  match x.run with
  | none => if s.ctxMember n then s else s.forwardStep n
  | some r => match s.flight? r.ref with
    | none => s
    | some f =>
      let l := f.lrec
      if r.landed then s.verdictStep n
      else if l.opcode = 0x74 then s.barrierStep n true
      else if l.opcode = 0x75 then s.snapStep n l
      else if l.opcode = 0x73 then s.broadcastStep n l r
      else if !r.sentUp then (if s.kidsDone n l.cDeadline r.fixed then s.collUp n l r else s)
      else if x.refuse && !r.refused then s.collRefuseLate n l r
      else s.collDown n l r

/-- Start a collective command (R399, R413, R419): it waits while its context runs another. -/
def State.collStart (s : State) (op : BitVec 8) (r : RecRef) : State :=
  s.start r op fun l s =>
    let n := l.cCtx
    let x := s.cctx n
    if x.run.isSome then s.setFlight r .queued
    else
      let carry := s.carryHeader l
      let verdict := l.cVerdict && l.cReduces
      let flag := verdict && (s.pr .part l.part 0x510).getLsbD 0
      let s := if verdict then s.setPr .part l.part 0x510 0 else s
      let loss := if verdict && l.cLoss then s.collRead l 3 64 8 else none
      let s := s.setCctx n { x with run := some {
        ref := r, start := s.sys.time, ready := s.sys.time, pip := flag || (carry.map (·.1)).getD false
        carried := (carry.map (·.2)).getD 0, fixed := false, sentUp := false, landed := false, groupPip := false
        groupContrib := 0, lossSum := BitVec.ofNat 32 ((loss.map fun b => leAt b 0 4).getD 0)
        lossCount := BitVec.ofNat 64 ((loss.map fun b => leAt b 4 4).getD 0), refused := false, carry := none } }
      (s.collStep n).verdictStep n

/-- ALL_REDUCE (R399, R402). -/
def execAllReduce (r : RecRef) (s : State) : Out := .next (s.collStart 0x70 r)

/-- REDUCE_SCATTER (R399, R403). -/
def execReduceScatter (r : RecRef) (s : State) : Out := .next (s.collStart 0x71 r)

/-- ALL_GATHER (R399, R403). -/
def execAllGather (r : RecRef) (s : State) : Out := .next (s.collStart 0x72 r)

/-- BROADCAST (R399). -/
def execBroadcast (r : RecRef) (s : State) : Out := .next (s.collStart 0x73 r)

/-- BARRIER (R399). -/
def execBarrier (r : RecRef) (s : State) : Out := .next (s.collStart 0x74 r)

/-- SNAPSHOT (R399, R429). -/
def execSnapshot (r : RecRef) (s : State) : Out := .next (s.collStart 0x75 r)

/-! ## Tears (R414–R416) -/

/-- The attempt in progress is torn: a first tear with every edge alive starts attempt 1, another is a collective
fault. -/
def State.collTear (s : State) (n : Nat) : State :=
  let x := s.cctx n
  if !s.ctxOn n then s
  else if !x.attempt ∧ s.treeLive n then
    let t := s.ctxTree n
    let s := (s.treeDown t ++ (if s.treeRoot t then [] else [s.treeUp t])).foldl (fun s p => s.sendColl n p 9 0 []) s
    let s := (s.bump .coll 0 0x8C).raise .coll 0 4
    let run := x.run.map fun r => { r with
      ready := s.sys.time, fixed := false, sentUp := false, landed := false, refused := false, carry := none }
    let s := s.setCctx n { CollCtx.init with
      seq := x.seq, attempt := true, commits := x.commits, run := run, last := x.last, vUps := x.vUps
      vSent := x.vSent, vDown := x.vDown }
    s.collStep n
  else
    ((if x.run.isSome then (s.bump .coll 0 0x88).raise .coll 0 8 else s)).collFault n 0x0022

/-- Abandon every context's collective that `sel` selects (R418): nothing commits. -/
def State.collAbandon (s : State) (sel : RecRef → Bool) : State := { s with coll := s.coll.abandon sel }

/-! ## The phases' rows -/

/-- UP_DATA (R402, R409): a child's data. A child whose first data come after the close time is refused, and a refused
child's are dropped. -/
def execUpData (p : Fin 7) (vc : BitVec 3) (s : State) : Out :=
  match s.openColl p.val vc 1 seqNow with
  | (s, none) => .next s
  | (s, some (n, q, k)) =>
    let c := s.kid n q
    if c.refused then .next s
    else .next ((s.setKid n q { c with pieces := c.pieces ++ [(collOff k, k.data)] }).collStep n)

/-- UP_END (R407). -/
def execUpEnd (p : Fin 7) (vc : BitVec 3) (s : State) : Out :=
  match s.openColl p.val vc 2 seqNow with
  | (s, none) => .next s
  | (s, some (n, q, k)) =>
    let c := s.kid n q
    if c.refused then .next s
    else .next ((s.setKid n q { c with fin := some (upEndOf k.data) }).collStep n)

/-- DOWN_DATA (R403). -/
def execDownData (p : Fin 7) (vc : BitVec 3) (s : State) : Out :=
  match s.openColl p.val vc 3 seqNow with
  | (s, none) => .next s
  | (s, some (n, _, k)) =>
    let x := s.cctx n
    .next (s.setCctx n { x with down := x.down ++ [(collOff k, k.data)] })

/-- DOWN_END (R405, R407). -/
def execDownEnd (p : Fin 7) (vc : BitVec 3) (s : State) : Out :=
  match s.openColl p.val vc 4 seqNow with
  | (s, none) => .next s
  | (s, some (n, _, k)) =>
    .next ((s.setCctx n { s.cctx n with downEnd := some (BitVec.ofNat 32 (leAt k.data 0 4)) }).collStep n)

/-- CLOSE_TIME (R409): children that have not arrived are refused. -/
def execCloseTime (n : Fin 16) (s : State) : Out :=
  match (s.cctx n.val).run with
  | none => .next s
  | some r => match s.flight? r.ref with
    | none => .next s
    | some f =>
      let l := f.lrec
      if l.opcode ≠ 0x70 ∨ l.cDeadline = 0 ∨ r.fixed ∨ r.sentUp ∨
          s.sys.time.toNat < r.ready.toNat + l.cDeadline * 1000 then .next s
      else
        let late := (s.treeDown (s.ctxTree n.val)).filter fun p => !(s.kid n.val p).arrived
        let s := late.foldl (fun s p =>
          ((s.setKid n.val p { CollChild.init with refused := true }).bump .coll 0 0x90).sendColl n.val p 5 0 []) s
        .next ((s.setCctx n.val { s.cctx n.val with run := some { r with fixed := true } }).collStep n.val)

/-- REFUSE (R411). A node that only forwards passes it on. -/
def execRefuse (p : Fin 7) (vc : BitVec 3) (s : State) : Out :=
  match s.openColl p.val vc 5 seqNow with
  | (s, none) => .next s
  | (s, some (n, _, _)) =>
    if s.ctxMember n then .next ((s.setCctx n { s.cctx n with refuse := true }).collStep n)
    else .next ((s.treeDown (s.ctxTree n)).foldl (fun s q => s.sendColl n q 5 0 []) s)

/-- The numbers that a LATE_REQ may carry: the current collective's, and those of the ones before it. -/
def seqLate (x : CollCtx) (seq : BitVec 12) : Bool := x.seq == seq || seqAfter x.seq seq

/-- LATE_REQ (R412): it waits for the commit, takes the committed data, or hears that a later collective has started.
DESIGN CHOICE: assumption 144. -/
def execLateReq (p : Fin 7) (vc : BitVec 3) (s : State) : Out :=
  match s.openColl p.val vc 6 seqLate with
  | (s, none) => .next s
  | (s, some (n, q, k)) =>
    let x := s.cctx n
    let seq := (pktAddr k.hdr).extractLsb' 27 12
    let as_ := s.setCctx n { x with seq := seq, attempt := (pktAddr k.hdr).getLsbD 39 }
    if (x.last.map (·.seq)) = some seq ∧ (x.seq = seq ∨ x.run.isNone) then
      .next ((as_.sendCollData n q 7 0 ((x.last.map (·.wire)).getD [])).setCctx n x)
    else if x.seq = seq then
      let s := s.setCctx n { x with lateReqs := x.lateReqs ++ [q] }
      .next (if s.ctxMember n then s else s.sendColl n (s.treeUp (s.ctxTree n)) 6 0 [])
    else if x.run.isSome ∨ x.last.isSome ∨ !s.ctxMember n then .next ((as_.sendColl n q 8 0 []).setCctx n x)
    else .next (s.bump .coll 0 0x9C)

/-- LATE_DATA (R412). -/
def execLateData (p : Fin 7) (vc : BitVec 3) (s : State) : Out :=
  match s.openColl p.val vc 7 seqNow with
  | (s, none) => .next s
  | (s, some (n, _, k)) =>
    let x := s.cctx n
    if s.ctxMember n then .next ((s.setCctx n { x with down := x.down ++ [(collOff k, k.data)] }).collStep n)
    else .next (x.lateReqs.foldl (fun s q => s.sendColl n q 7 (collOff k / 32) k.data) s)

/-- LATE_LOST (R412). -/
def execLateLost (p : Fin 7) (vc : BitVec 3) (s : State) : Out :=
  match s.openColl p.val vc 8 seqNow with
  | (s, none) => .next s
  | (s, some (n, _, _)) =>
    if s.ctxMember n then .next (s.collFault n 0x0021)
    else .next ((s.cctx n).lateReqs.foldl (fun s q => s.sendColl n q 8 0 []) s)

/-- TORN (R414, R415). -/
def execTorn (p : Fin 7) (vc : BitVec 3) (s : State) : Out :=
  match s.openColl p.val vc 9 seqNow with
  | (s, none) => .next s
  | (s, some (n, _, _)) => .next (s.collTear n)

/-- COLLECTIVE_TIMEOUT (R417). DEDUCED: assumption 4. -/
def execCollectiveTimeout (n : Fin 16) (s : State) : Out :=
  match (s.cctx n.val).run with
  | none => .next s
  | some r => match s.flight? r.ref with
    | none => .next s
    | some f =>
      let t := f.lrec.cTimeout
      if t = 31 ∨ s.sys.time.toNat < r.start.toNat + 1000 * 2 ^ t then .next s
      else .next (s.collFault n.val 0x0023)

/-- VERDICT_UP (R420). -/
def execVerdictUp (p : Fin 7) (vc : BitVec 3) (s : State) : Out :=
  match s.openColl p.val vc 0xA seqNow with
  | (s, none) => .next s
  | (s, some (n, q, k)) =>
    let x := s.cctx n
    let u : VerdictUp := ⟨leAt k.data 0 1 % 2 == 1, BitVec.ofNat 32 (leAt k.data 4 4), BitVec.ofNat 64 (leAt k.data 8 8)⟩
    .next ((s.setCctx n { x with vUps := x.vUps.put none q (some u) }).verdictStep n)

/-- VERDICT_DOWN (R420, R423, R445). -/
def execVerdictDown (p : Fin 7) (vc : BitVec 3) (s : State) : Out :=
  match s.openColl p.val vc 0xB seqNow with
  | (s, none) => .next s
  | (s, some (n, _, k)) =>
    let mean := if leAt k.data 0 1 / 2 % 2 = 1 then some (BitVec.ofNat 32 (leAt k.data 4 4)) else none
    .next (s.verdictDown n (leAt k.data 0 1 % 2 == 1) mean (BitVec.ofNat 64 (leAt k.data 8 8)))

/-- BARRIER_UP (R399). -/
def execBarrierUp (p : Fin 7) (vc : BitVec 3) (s : State) : Out :=
  match s.openColl p.val vc 0xC seqNow with
  | (s, none) => .next s
  | (s, some (n, q, _)) =>
    let x := s.cctx n
    let s := s.setCctx n { x with barUps := if x.barUps.contains q then x.barUps else x.barUps ++ [q] }
    .next (if s.ctxMember n then s.collStep n else s.barrierStep n true)

/-- BARRIER_DOWN (R399). -/
def execBarrierDown (p : Fin 7) (vc : BitVec 3) (s : State) : Out :=
  match s.openColl p.val vc 0xD seqNow with
  | (s, none) => .next s
  | (s, some (n, _, _)) => .next (((s.treeDown (s.ctxTree n)).foldl (fun s q => s.sendColl n q 0xD 0 []) s).collFinish n)

/-- MARKER (R429): it starts a snapshot at a member that is not the root, and notes the last SEQ delivered before it on
its port. -/
def execMarker (p : Fin 7) (vc : BitVec 3) (s : State) : Out :=
  match s.openColl p.val vc 0xE seqNow with
  | (s, none) => .next s
  | (s, some (n, _, k)) =>
    let s := s.snapStart n
    let x := s.cctx n
    let seq := (k.flits.head?.map (·.seq)).getD 0 - 1
    match x.snap with
    | some t => .next ((s.setCctx n { x with snap := some { t with last := t.last ++ [(p.val, seq)] } }).collStep n)
    | none => .next s

end Sys2Proof.Machine
end

