-- ==== Sys2Proof/Machine/Operands.lean ====
section
/-! DEFINITION. Operands of command records: which operands an opcode takes (R133, R459), what range each touches
(R471), stage bindings (R316), and relocation. -/

namespace Sys2Proof.Machine

/-! ## Which operands a record takes (R133, R280, R320, R399, R459, R463) -/

/-- Whether an operand must be absent, may be present, or must be present. -/
inductive Presence where
  | none | opt | req
deriving DecidableEq, Repr

/-- How many inputs a VEC_MAP sub-operation takes (R141). -/
def mapArity (mode : Nat) : Nat :=
  if mode = 4 ∨ mode = 0x0A then 3 else if (1 ≤ mode ∧ mode ≤ 3) ∨ mode = 5 ∨ mode = 6 then 2 else 1

/-- XOR_REF of a mover record. DEDUCED: assumption 55. -/
def LRec.xorRef (l : LRec) : Bool := l.sub.getLsbD 3

/-- Whether a collective carries a straggler's partial (R400). -/
def LRec.cCarries (l : LRec) : Bool := l.opcode == 0x70 && l.cDeadline != 0 && !l.cDrop

/-- The presence of operands A to D. -/
def LRec.presence (l : LRec) : List Presence :=
  let on (b : Bool) : Presence := if b then .req else .none
  match l.opcode.toNat with
  | 0x01 | 0x02 => [.req, .none, .none, .none]
  | 0x10 | 0x11 | 0x12 | 0x13 => [.req, .req, .req, on (l.epi != 0 && l.epi != 8)]
  | 0x20 => [.req, on (2 ≤ mapArity l.vMode), .req, on (mapArity l.vMode = 3)]
  | 0x21 => [.req, .none, .req, .none]
  | 0x22 => [.req, .opt, .req, .opt]
  | 0x23 => [.req, .none, .req, .none]
  | 0x24 => [.req, on (fmtMx l.vFmtA), .req, on (fmtMx l.vOut)]
  | 0x25 => [.none, .none, .req, .none]
  | 0x30 => [.req, .none, .req, .opt]
  | 0x40 => [.req, .req, .none, .none]
  | 0x41 => [.none, .req, .none, .none]
  | 0x42 => [.req, .req, .none, .none]
  | 0x43 | 0x44 => [.req, .req, on l.xorRef, .none]
  | 0x60 => [.req, .none, .none, .none]
  | 0x70 | 0x71 => [.req, .req, on l.cCarries, on l.cVerdict]
  | 0x72 | 0x73 => [.req, .req, .none, .none]
  | 0x75 => [.none, .req, .none, .none]
  | _ => [.none, .none, .none, .none]

/-! ## What range an operand touches (R471) -/

/-- What a record needs of operand `k`: the lowest and highest byte that it touches, from the operand's offset
(`hi < lo`: none), the rights, the format byte that the record gives, and the bytes of its MX scale buffer. -/
structure Need where
  k : Nat
  lo : Int
  hi : Int
  rd : Bool
  wr : Bool
  fmt : Option Nat
  scale : Option Nat
deriving DecidableEq, Repr

/-- A read of `n` bytes from the operand's offset, and a write of `n` bytes. -/
def Need.read (k n : Nat) (fmt : Option Nat := .none) (scale : Option Nat := .none) : Need :=
  ⟨k, 0, (n : Int) - 1, true, false, fmt, scale⟩
def Need.write (k n : Nat) (fmt : Option Nat := .none) : Need := ⟨k, 0, (n : Int) - 1, false, true, fmt, .none⟩

/-- The first and last of the input coordinates that a kernel of `taps` taps reads within 0 up to `len` (R106). -/
def touched (out stride pad dil taps len : Nat) : Option (Nat × Nat) :=
  (List.range taps).foldl (fun acc t =>
    let b : Int := (t * dil : Nat) - (pad : Int)
    let first : Nat := if 0 ≤ b then 0 else ((-b).toNat + stride - 1) / stride
    if (len : Int) ≤ b ∨ out = 0 ∨ stride = 0 then acc
    else
      let last : Nat := min (out - 1) (((len : Int) - 1 - b).toNat / stride)
      if last < first then acc
      else
        let lo := (b + first * stride).toNat
        let hi := (b + last * stride).toNat
        match acc with
        | some a => some (min a.1 lo, max a.2 hi)
        | .none => some (lo, hi)) .none

/-- The range of a convolution's input map that lies in the rows held. DESIGN CHOICE: assumption 65. -/
def LRec.convRange (l : LRec) : Int × Int :=
  let g := l.geo
  match touched g.oh g.sy g.padT g.dy g.kh g.ih, touched g.ow g.sx g.padL g.dx g.kw g.iw with
  | some y, some x =>
    let y0 := max y.1 g.row0
    let y1 := min y.2 (g.row0 + g.rows - 1)
    if y1 < y0 then (0, -1)
    else (((y0 - g.row0) * g.rowS + x.1 * g.pixS : Nat),
      ((y1 - g.row0) * g.rowS + x.2 * g.pixS + rowBytes (fmtCode l.fmtA) g.cin : Nat) - (1 : Int))
  | _, _ => (0, -1)

/-- The scale bytes of an array record's operands A and B (R53, R96). -/
def LRec.scaleA (l : LRec) : Option Nat :=
  if !fmtMx l.fmtA then .none
  else if l.opcode = 0x11 then some (l.geo.rows * l.geo.iw * ((l.geo.cin + 31) / 32))
  else some (l.shape.outer * l.shape.m * ((l.shape.k + 31) / 32))
def LRec.scaleB (l : LRec) : Option Nat :=
  if !fmtMx l.fmtB then .none
  else some (l.shape.outer * ((l.shape.n + l.tileCols - 1) / l.tileCols * l.runTiles * 512))

/-- The needs of an array record; `left k` is what is left of operand k's handle from its offset. -/
def LRec.arrayNeeds (l : LRec) (left : Nat → Nat) : List Need :=
  let sh := l.shape
  let cLen := sh.m * rowBytes l.outFmt sh.n
  let like (n : Nat) : Int × Int := strided sh.outer (n * cLen) (l.stride 2)
  let a : Int × Int :=
    if l.opcode = 0x11 then l.convRange
    else strided sh.outer (sh.m * rowBytes (fmtCode l.fmtA) sh.k) (l.stride 0)
  let run := strided sh.outer (l.runsBytes false) (l.stride 1)
  let b : Int × Int :=
    if l.opcode ≠ 0x11 ∧ (left 1 : Int) ≤ run.2 then strided sh.outer (l.runsBytes true) (l.stride 1) else run
  let c := like (if l.epi = 5 then 2 else 1)
  let d : List Need := match l.epi with
    | 1 | 2 => [Need.read 3 (4 * sh.n)]
    | 3 => [Need.read 3 (8 * sh.n)]
    | 4 | 5 | 6 => [⟨3, (like 1).1, (like 1).2, true, false, .none, .none⟩]
    | 7 => [⟨3, (like 1).1, (like 1).2, false, true, .none, .none⟩]
    | _ => []
  [⟨0, a.1, a.2, true, false, some l.fmtA, l.scaleA⟩, ⟨1, b.1, b.2, true, false, some l.fmtB, l.scaleB⟩,
    ⟨2, c.1, c.2, l.acc, true, some l.outFmt, .none⟩] ++ d

/-- Bytes of `n` elements of a format byte, packed without a break. -/
def elemsBytes (fmt n : Nat) : Nat := (n * elemBits (fmtCode fmt) + 7) / 8

/-- Scale bytes of `n` elements in rows of `len`. -/
def scaleBytes (n len : Nat) : Nat := (n + len - 1) / len * ((len + 31) / 32)

/-- The needs of a vector record. -/
def LRec.vecNeeds (l : LRec) : List Need :=
  let input (k fmt n : Nat) : Need :=
    Need.read k (elemsBytes fmt n) (some fmt) (if fmtMx fmt then some (scaleBytes n l.vLen) else .none)
  let c := Need.write 2 (elemsBytes l.vOut l.vCount) (some l.vOut)
  match l.opcode.toNat with
  | 0x20 => [input 0 l.vFmtA l.vCount, input 1 l.vFmtB l.vCount, c, input 3 l.vFmtD l.vCount]
  | 0x21 => [input 0 l.vFmtA l.vWork, if l.vMode = 5 then Need.write 2 (4 * l.vCount) else c]
  | 0x22 => [input 0 l.vFmtA l.vCount, input 1 l.vFmtB l.vLen, c, input 3 l.vFmtD l.vLen]
  | 0x23 => [input 0 l.vFmtA l.vCount, c]
  | 0x24 => [Need.read 0 (elemsBytes l.vFmtA l.vCount) (some l.vFmtA), Need.read 1 (scaleBytes l.vCount l.vLen), c,
      Need.write 3 l.mxBlocks]
  | _ => [match l.vMode with
      | 0 => Need.write 2 (16 * l.vCount)
      | 1 => c
      | _ => Need.write 2 ((l.vCount + 7) / 8)]

/-- The needs of a CMP_COUNT record (R145, R146). -/
def LRec.cmpNeeds (l : LRec) : List Need :=
  [Need.read 0 (l.scanCount * l.cSize), Need.write 2 (if l.cPerRow then 8 * ((l.scanCount + l.scanLen - 1) / l.scanLen) else 8),
    Need.write 3 ((l.scanCount + 7) / 8)]

/-- The range of a strided stream (R235). -/
def streamRange (c0 c1 c2 : Nat) (s1 s2 : BitVec 32) : Int × Int :=
  let a : Int := ((c1 : Int) - 1) * s1.toInt
  let b : Int := ((c2 : Int) - 1) * s2.toInt
  (min 0 a + min 0 b, max 0 a + max 0 b + c0 - 1)

/-- The needs of a mover record (R233–R241): the coded range of PACK is the longest it can be, and that of UNPACK all
that is left of the handle. -/
def LRec.moverNeeds (l : LRec) (left : Nat → Nat) : List Need :=
  let c := l.descriptor 0
  let src := streamRange c.c0.toNat c.c1.toNat c.c2.toNat c.srcS1 c.srcS2
  let dst := streamRange c.c0.toNat c.c1.toNat c.c2.toNat c.dstS1 c.dstS2
  let rd (x : Int × Int) : Need := ⟨0, x.1, x.2, true, false, .none, .none⟩
  let wr (x : Int × Int) : Need := ⟨1, x.1, x.2, false, true, .none, .none⟩
  match c.op with
  | 0 => [rd src, wr dst]
  | 1 => [wr dst]
  | 2 => [rd src, wr (strided c.skewQuarters (c.skewSlots * (16 * c.skewBits)) c.dstS1.toInt)]
  | 3 => [rd src, wr (0, ((c.total + 4095) / 4096 * 4104 : Nat) - (1 : Int)), Need.read 2 c.total]
  | _ => [rd (0, (left 0 : Int) - 1), wr dst, Need.read 2 c.total]

/-- The needs of a collective record (R400, R425, R466). -/
def State.collNeeds (s : State) (l : LRec) : List Need :=
  let size := max 1 (s.ctxSize l.cCtx)
  let out := l.cCount * (elemBits l.cOut / 8)
  let dst (n : Nat) : Need := Need.write 1 (2 * n)
  match l.opcode.toNat with
  | 0x70 | 0x71 =>
    let carry : Need := ⟨2, 0, (64 + 4 * l.cCount : Nat) - (1 : Int), true, true, .none, .none⟩
    let verdict : Need := ⟨3, 0, if l.cLoss then 71 else 63, l.cLoss, true, .none, .none⟩
    [Need.read 0 l.cLen (some l.cIn), { dst (if l.opcode = 0x70 then out else out / size) with fmt := some l.cOut },
      carry, verdict]
  | 0x72 => [Need.read 0 (l.cLen / size), dst l.cLen]
  | 0x73 => [Need.read 0 l.cLen, dst l.cLen]
  | _ => [Need.write 1 112]

/-- What a record needs of the operands that it has. DESIGN CHOICE: assumption 66. -/
def State.needs (s : State) (l : LRec) (left : Nat → Nat) : List Need :=
  (match l.opcode.toNat with
    | 0x01 => [Need.mk 0 0 0 false false .none .none]
    | 0x02 => [Need.write 0 8]
    | 0x30 => l.cmpNeeds
    | 0x60 => [Need.read 0 s.itemBytes]
    | op =>
      if op < 0x20 then l.arrayNeeds left else if op < 0x30 then l.vecNeeds
      else if op < 0x50 then l.moverNeeds left else s.collNeeds l).filter
    fun n => l.raw.getLsbD (8 * (32 + 8 * n.k) + 63)

/-! ## Handles (R316, R468–R471) -/

/-- The presence bit, handle and offset of operand `k` of a record (R458). -/
def LRec.rawOpnd (l : LRec) (k : Nat) : BitVec 64 := recField l.raw (32 + 8 * k) 0 64
def LRec.opndV (l : LRec) (k : Nat) : Bool := (l.rawOpnd k).getLsbD 63
def LRec.opndHandle (l : LRec) (k : Nat) : Nat := ((l.rawOpnd k).extractLsb' 48 12).toNat
def LRec.opndOffset (l : LRec) (k : Nat) : Nat := ((l.rawOpnd k).extractLsb' 0 48).toNat

/-- BIND of a STAGE entry (R476): its program, stash slot, gradient buffer and send buffer. -/
def LRec.bindByte (l : LRec) (i : Nat) : Nat := (l.bind.extractLsb' (8 * i) 8).toNat

/-- A handle from `off` on. -/
def Handle.from_ (h : Handle) (off : Nat) : Handle :=
  { h with dev := h.dev + BitVec.ofNat 64 off, size := h.size - BitVec.ofNat 64 (min off h.size.toNat) }

/-- The range behind a stage-bound handle in an invocation (R316, R324); none where its row binds nothing for the
program. `stage`: the record belongs to a STAGE entry. DESIGN CHOICE: assumption 86; DEDUCED: assumption 128. -/
def State.bindHandle (s : State) (l : LRec) (stage : Bool) (h : Nat) : Option Handle :=
  let prog := l.bindByte 0
  let part := s.itemWords * 64
  if !stage ∨ 3 ≤ prog then .none
  else if h = 4080 then
    if l.bindByte 1 = 0xFF then .none else some ((s.stgHandle 0x50 16).from_ (l.bindByte 1 * part))
  else if h = 4081 then
    if prog ≠ 2 ∨ l.bindByte 2 = 0xFF then .none else some ((s.stgHandle 0x54 16).from_ (l.bindByte 2 * part))
  else if h = 4082 then
    if prog = 1 ∨ l.bindByte 3 = 0xFF then .none else some ((s.stgHandle 0x54 0).from_ (l.bindByte 3 * part))
  else if h = 4083 then
    some { base := 0, dev := BitVec.ofNat 64 infoBase, size := 64, rights := 0xC0, fmt := 0xFF, scale := 0 }
  else .none

/-- The handle that an operand of a record names. -/
def State.opndEntry (s : State) (l : LRec) (stage : Bool) (h : Nat) : Option Handle :=
  if l.part = 0 ∧ 4080 ≤ h ∧ h ≤ 4087 then s.bindHandle l stage h
  else
    let e := s.handleOf l.part h
    if e.v then some e else .none

/-- Relocate operand `k` (R471): its device address and extent, and its scale buffer's address. -/
def State.relocate (s : State) (l : LRec) (stage : Bool) (ns : List Need) (k : Nat) : Option ROpnd :=
  if !l.opndV k then .none
  else match s.opndEntry l stage (l.opndHandle k) with
    | .none => .none
    | some e =>
      let a := e.dev.toNat + l.opndOffset k
      let n := (ns.find? fun n => n.k == k).getD (Need.mk k 0 0 false false .none .none)
      let lo := addrPlus a n.lo
      let hi := addrPlus a (max n.lo n.hi)
      some
        { handle := BitVec.ofNat 12 (l.opndHandle k), offset := BitVec.ofNat 48 (l.opndOffset k), kind := e.kind
          addr := BitVec.ofNat 64 a, lo := BitVec.ofNat 64 lo, hi := BitVec.ofNat 64 hi
          scale := if n.scale.isSome ∧ e.scale.getLsbD 15 then some (s.handleOf l.part (e.scale.toNat % 4096)).dev
            else .none }

end Sys2Proof.Machine
end

