-- ==== Sys2Proof/Machine/Fetch.lean ====
section
/-! DEFINITION. Fetch (R456–R485): the checks of a command record in the order of R473, ring entries, and the filling
of a slot half. -/

namespace Sys2Proof.Machine

/-! ## Faults found at fetch (R474, R489, R490) -/

/-- A fault found at fetch: the front end is the instance that reports it. -/
def fetchFault (cause : BitVec 16) (operand : Nat := 7) : FaultInfo :=
  { cause := cause, operand := BitVec.ofNat 3 operand, addr := none, fetch := true, engine := engineId 0 4 0, state := 0
    others := [] }

/-- A fault of cause `cause` where `bad` holds. -/
def faultIf (bad : Bool) (cause : BitVec 16) (operand : Nat := 7) : Option FaultInfo :=
  if bad then some (fetchFault cause operand) else none

/-- The first fault of a list of checks. -/
def firstFault (cs : List (Option FaultInfo)) : Option FaultInfo := cs.findSome? id

/-! ## Check 1: opcode and reserved fields (R458, R459, R463, R465) -/

/-- The opcodes that are defined (R133, R280, R320, R399, R463). -/
def opcodeOk (op : Nat) : Bool :=
  op ≤ 2 || (0x10 ≤ op && op ≤ 0x13) || (0x20 ≤ op && op ≤ 0x25) || op == 0x30 || (0x40 ≤ op && op ≤ 0x44) ||
  (0x50 ≤ op && op ≤ 0x53) || (0x60 ≤ op && op ≤ 0x62) || (0x70 ≤ op && op ≤ 0x75)

/-- The opcodes that the physical function's own queues carry. DEDUCED: assumption 73. -/
def deviceOpcode (op : Nat) : Bool :=
  op < 0x10 || (0x40 ≤ op && op < 0x54) || (0x70 ≤ op && op < 0x76)

/-- The used bits of SUB and IMM (R465). -/
def subUsed (op : Nat) : BitVec 16 :=
  if op = 0x01 then 0x00CF
  else if 0x10 ≤ op ∧ op < 0x20 then 0xFC00
  else if 0x20 ≤ op ∧ op < 0x30 then 0xFFFF
  else if op = 0x30 then 0xFF00
  else if 0x40 ≤ op ∧ op < 0x50 then 0xFFF8
  else if op = 0x51 then 0x001F
  else if op = 0x60 ∨ (0x70 ≤ op ∧ op < 0x80) then 0xFFFF
  else 0

def immUsed (op : Nat) : BitVec 64 :=
  if op = 0x01 then 0xFFFFFFFF7FFF3FFF
  else if 0x10 ≤ op ∧ op < 0x20 then 0xFFFFFFFFFFFFFFF0
  else if (0x20 ≤ op ∧ op < 0x30) ∨ (0x40 ≤ op ∧ op < 0x50) then 0xFFFFFFFFFFFFFFFF
  else if op = 0x52 then 0xFFFC0FFFFFFFFFFF
  else if 0x50 ≤ op ∧ op < 0x60 then 0x00000FFFFFFFFFFF
  else if op = 0x60 then 0x3F07
  else if 0x70 ≤ op ∧ op < 0x80 then 0xFFFFFFFFFFFFFF9F
  else 0

/-- The used bits of word `k` of the parameter block. DESIGN CHOICE: assumption 65. -/
def LRec.wordUsed (l : LRec) (k : Nat) : BitVec 64 :=
  let op := l.opcode.toNat
  let all : BitVec 64 := BitVec.allOnes 64
  if 0x10 ≤ op ∧ op < 0x20 then
    match k with
    | 0 => all
    | 1 => if op = 0x10 then all else if op = 0x11 then 0x000000FFFFF00000 else 0xFFF0FFFFFFFF0000
    | 2 => 0xFFFF0000FFFFFFFF
    | 3 | 4 | 5 => all
    | 6 | 7 => if l.cvt % 4 = 2 then all else 0
    | 8 => if op = 0x11 then 0xFFFFFFFFFFFFF800 else 0
    | 9 => if op = 0x11 then all else 0
    | 10 => if op = 0x11 then 0xFFFFFFFFFFFF0000 else 0
    | _ => 0
  else if 0x20 ≤ op ∧ op < 0x30 then
    match k with
    | 0 | 2 | 3 => all
    | 1 => 0xFFC0FFFFFFFFFFFF
    | _ => 0
  else if op = 0x30 then if k < 3 then all else 0
  else if 0x40 ≤ op ∧ op < 0x50 then
    match k with
    | 0 | 1 | 2 => all
    | 3 => 0x00000000FFFFFFFF
    | _ => 0
  else 0

/-- Reserved fields of every record, and the fields that must be 0 because they are ignored (R458, R459). -/
def LRec.reservedSet (l : LRec) : Bool :=
  let b (byte lo n : Nat) : Nat := (recField l.raw byte lo n).toNat
  b 1 0 4 ≠ 0 || b 5 6 2 ≠ 0 || b 7 6 2 ≠ 0 || b 9 6 2 ≠ 0 || b 12 5 3 ≠ 0 || b 13 0 8 ≠ 0 || b 15 4 4 ≠ 0 ||
  b 21 4 4 ≠ 0 || ((List.range 4).any fun k => b (39 + 8 * k) 4 3 ≠ 0) ||
  (!l.pwEn && (b 12 0 5 ≠ 0 || b 14 0 12 ≠ 0 || b 16 0 32 ≠ 0)) ||
  (!l.sigEn && (b 20 0 12 ≠ 0 || b 22 0 16 ≠ 0)) ||
  (l.usesChan && b 23 4 4 ≠ 0)

/-- The axis of R54 has no field. DEDUCED: assumptions 64, 141. -/
def LRec.check1 (l : LRec) : Option FaultInfo :=
  let op := l.opcode.toNat
  firstFault
    [ faultIf (!opcodeOk op || (l.part == 64 && !deviceOpcode op)) 0x0001,
      faultIf (l.reservedSet || l.sub &&& ~~~subUsed op ≠ 0 || l.imm &&& ~~~immUsed op ≠ 0) 0x0001,
      faultIf ((List.range l.params.length).any fun k => l.param k &&& ~~~l.wordUsed k ≠ 0) 0x0001,
      firstFault ((List.range 4).map fun k =>
        faultIf (l.presence.getD k .none == .none && l.opndV k) 0x0001 k) ]

/-! ## Check 2: field ranges -/

/-- Whether the record's parameter block has the length that its opcode asks for (R460, R465).
DESIGN CHOICE: assumption 65. -/
def LRec.blockOk (l : LRec) (plen : Nat) : Bool :=
  let op := l.opcode.toNat
  if op = 0x11 then plen == 2
  else if (0x10 ≤ op ∧ op < 0x40) ∨ op = 0x41 ∨ op = 0x42 then plen == 1 || plen == 2
  else if 0x40 ≤ op ∧ op < 0x50 then plen ≤ 2
  else plen == 0

/-- A conversion control byte (R71). -/
def cvtOk (b : Nat) : Bool := b / 8 == 0 && b % 4 != 3

/-- A timeout field (R290): 31 is checked against its counter in check 8. -/
def timeoutOk (t : Nat) : Bool := t ≤ 20 || t == 31

def ConvGeo.ok (g : ConvGeo) (bits : Nat) : Bool :=
  let r (v lo hi : Nat) : Bool := lo ≤ v && v ≤ hi
  r g.cin 1 4096 && r g.kh 1 15 && r g.kw 1 15 && r g.sy 1 8 && r g.sx 1 8 && r g.dy 1 8 && r g.dx 1 8 &&
  r g.ih 1 65535 && r g.iw 1 65535 && r g.rows 1 65535 && r g.pixS 1 8388608 && r g.rowS 1 8388608 &&
  8 * g.pixS % bits == 0 && 8 * g.rowS % bits == 0 && 0 < g.oh && 0 < g.ow

/-- Ranges of an array record (R108, R111, R137, R140). -/
def State.arrayRange (s : State) (l : LRec) : Option FaultInfo :=
  let op := l.opcode.toNat
  let out := l.outFmt
  let outOk : Bool := if l.epi = 3 then out ≤ 0xB else out == 9 || out == 0xA || out == 0xB
  let dh := l.paramF 1 52 4
  firstFault
    [ faultIf (!cvtOk l.cvt || 8 < l.epi || !outOk) 0x0001,
      faultIf (l.mS = 0 || l.nS = 0 || l.kS = 0 || decide (s.gangSize l.part < l.mS * l.nS * l.kS)) 0x0001,
      faultIf (if op = 0x10 then l.shape.outer == 0 else l.paramF 2 48 16 != 1) 0x0001,
      faultIf ((op == 0x12 || op == 0x13) && (dh = 0 || 8 < dh)) 0x0001,
      faultIf (l.acc && (0x12 ≤ op || out ≠ 0xB || l.epi ≠ 0)) 0x0001,
      faultIf (!fmtOk l.fmtA) 0x0007 0,
      faultIf (!fmtOk l.fmtB) 0x0007 1,
      faultIf (fmtInt l.fmtA != fmtInt l.fmtB) 0x0007 1,
      faultIf (op == 0x11 && !l.geo.ok (max 8 (elemBits (fmtCode l.fmtA)))) 0x0001 ]

/-- Ranges of a vector record (R47, R141–R144). An output format with MX scales is VEC_CONVERT's alone.
DESIGN CHOICE: assumption 65. -/
def LRec.vecRange (l : LRec) : Option FaultInfo :=
  let op := l.opcode.toNat
  let mode := l.vMode
  let modeOk : Bool := match op with
    | 0x20 => mode ≤ 0x12
    | 0x21 => mode ≤ 5
    | 0x22 => mode ≤ 1
    | 0x25 => mode ≤ 2
    | _ => true
  let rows := op == 0x22 || op == 0x23 || (op == 0x24 && (fmtMx l.vOut || fmtMx l.vFmtA))
  firstFault
    [ faultIf (!modeOk || !cvtOk l.vCvt) 0x0001,
      faultIf ((0x21 ≤ op && op ≤ 0x23) && (l.vSplit = 0 || 64 < l.vSplit)) 0x0001,
      faultIf (rows && l.vCount % l.vLen ≠ 0) 0x0001,
      faultIf (op == 0x24 && 1 < l.vAxis) 0x0001,
      faultIf (op ≠ 0x25 && !fmtOk l.vFmtA) 0x0007 0,
      faultIf (l.opndV 1 && op ≠ 0x24 && !fmtOk l.vFmtB) 0x0007 1,
      faultIf (l.opndV 3 && op ≠ 0x24 && !fmtOk l.vFmtD) 0x0007 3,
      faultIf (!(op == 0x25 && mode ≠ 1) && !(op == 0x21 && mode == 5) &&
        (!fmtOk l.vOut || (op ≠ 0x24 && fmtMx l.vOut))) 0x0007 2 ]

/-- Ranges of a mover record (R231, R233, R234, R238–R240, R465). DESIGN CHOICE: assumption 65. -/
def State.moverRange (s : State) (l : LRec) : Option FaultInfo :=
  let c := l.descriptor 0
  let c0 := l.immF 32 32
  let c1 := l.immF 16 16
  let c2 := l.immF 0 16
  let block := !l.params.isEmpty
  let chanOk : Bool := if l.part = 64 then l.moverCh == 7
    else l.moverCh ≤ 5 && decide (l.moverRank < (s.clustersOf l.part).length)
  let word := l.paramF 3 0 32
  let fmt := word % 256
  firstFault
    [ faultIf (!chanOk || l.subF 4 2 = 3 || (l.xorRef && c.op < 3)) 0x0001,
      faultIf (c0 = 0 || 0x1000000 < c0 || c1 = 0 || c2 = 0) 0x0001,
      faultIf (l.sigEn && l.sigAmount.toNat % 256 = 0) 0x0001,
      faultIf (c.op ≠ 2 && !block && 1 < c2 && 2 ^ 31 ≤ c0 * c1) 0x0001,
      faultIf (decide (2 ^ 36 < c.total)) 0x0001,
      faultIf (3 ≤ c.op && c.total % (c.width / 8) ≠ 0) 0x0001,
      if c.op ≠ 2 then none
      else firstFault
        [ faultIf (!fmtOk fmt) 0x0007,
          faultIf (fmtMx fmt || word / 1024 % 64 ≠ 0 || word / 65536 = 0) 0x0001,
          faultIf (c0 ≠ rowBytes (fmtCode fmt) (if c.skewWide then 512 else 128) || c1 ≠ c.skewRows || c2 ≠ 1) 0x0001 ] ]

/-- Ranges of a collective record (R399, R400). DESIGN CHOICE: assumption 65. -/
def State.collRange (s : State) (l : LRec) : Option FaultInfo :=
  let op := l.opcode.toNat
  let data := op < 0x74
  let fmt (f : Nat) : Bool := f == 9 || f == 0xB
  let unit := 16 * max 1 (s.ctxSize l.cCtx)
  let size := if l.cReduces then elemBits l.cIn / 8 else max 1 (elemBits l.cIn / 8)
  firstFault
    [ faultIf (data && l.immF 36 28 = 0) 0x0001,
      faultIf (l.cReduces && !(fmt l.cIn && fmt l.cWire && fmt l.cOut)) 0x0001,
      faultIf (l.cReduces && (!cvtOk l.cCvt || l.cCvt % 4 = 2 || l.cOp = 3)) 0x0001,
      faultIf (l.cLoss && l.cReduces && !l.cVerdict) 0x0001,
      faultIf ((op == 0x71 || op == 0x72) && l.cLen % (unit * size) ≠ 0) 0x0001,
      faultIf (20 < l.cTimeout) 0x0001 ]

/-- DEDUCED: assumption 64. -/
def State.check2 (s : State) (l : LRec) (plen : Nat) (blockInside : Bool) : Option FaultInfo :=
  let op := l.opcode.toNat
  firstFault
    [ faultIf (!l.blockOk plen || !blockInside) 0x0001,
      faultIf (l.deps.any fun d => decide (l.ref.index.toNat < d)) 0x0001,
      faultIf (l.sigEn && l.sigAmount = 0) 0x0001,
      faultIf (l.pwEn && !timeoutOk l.pwTimeout.toNat) 0x0001,
      if op = 0x01 then faultIf (l.immF 16 15 = 0 || 16384 < l.immF 16 15 || 16384 < l.immF 16 15 + l.immF 0 14) 0x0001
      else if op = 0x50 ∨ op = 0x52 then faultIf (l.immF 0 32 = 0 || 65535 < l.immF 0 32) 0x0001
      else if op = 0x51 then faultIf (!timeoutOk (l.subF 0 5)) 0x0001
      else if op = 0x60 then
        faultIf (l.sub.getLsbD 15 || l.sub.getLsbD 14 || 5 < l.moverCh ||
          decide ((s.clustersOf l.part).length ≤ l.moverRank)) 0x0001
      else if 0x10 ≤ op ∧ op < 0x20 then s.arrayRange l
      else if 0x20 ≤ op ∧ op < 0x30 then l.vecRange
      else if op = 0x30 then faultIf (8 < l.cType || (l.cType = 8 && l.cPred = 7)) 0x0001
      else if 0x40 ≤ op ∧ op < 0x50 then s.moverRange l
      else if 0x70 ≤ op then s.collRange l
      else none ]

/-! ## Checks 3 to 5: handles, rights, bounds (R286, R316, R471) -/

/-- The virtual counter IDs that a record names and that its own partition translates. DESIGN CHOICE: assumption 65. -/
def LRec.vids (l : LRec) : List Nat :=
  (if l.pwEn then [l.pwVid.toNat] else []) ++
  (if l.sigEn && !(l.sigArrive && l.usesChan) then [l.sigVid.toNat] else []) ++
  (if l.opcode = 0x50 ∨ l.opcode = 0x51 ∨ l.opcode = 0x53 then [l.immF 32 12] else [])

/-- DEDUCED: assumption 64. -/
def State.check3 (s : State) (l : LRec) (stage : Bool) : Option FaultInfo :=
  firstFault
    [ firstFault ((List.range 4).map fun k =>
        if l.opndV k then faultIf (s.opndEntry l stage (l.opndHandle k)).isNone 0x0002 k
        else faultIf (l.presence.getD k .none == .req) 0x0002 k),
      faultIf (l.vids.any fun v => (l.part == 0 && 4088 ≤ v && !stage) || (s.vid l.part v).isNone) 0x0002 ]

/-- The scale buffer of a handle (R468, R471). -/
def State.scaleEntry (s : State) (l : LRec) (e : Handle) : Option Handle :=
  if !e.scale.getLsbD 15 then none
  else
    let h := s.handleOf l.part (e.scale.toNat % 4096)
    if h.v then some h else none

/-- Rights, and the declared format (R471). DEDUCED: assumption 64. -/
def State.check4 (s : State) (l : LRec) (stage : Bool) (ns : List Need) : Option FaultInfo :=
  firstFault (ns.map fun n =>
    match s.opndEntry l stage (l.opndHandle n.k) with
    | none => none
    | some e => firstFault
      [ faultIf ((n.rd && !e.rd) || (n.wr && !e.wr)) 0x0003 n.k,
        faultIf (match n.fmt with | some f => e.fmt ≠ 0xFF && e.fmt.toNat ≠ f | none => false) 0x0007 n.k,
        if n.scale.isNone then none
        else match s.scaleEntry l e with
          | none => some (fetchFault 0x0002 4)
          | some h => faultIf (!h.rd) 0x0003 4 ])

/-- A bounds fault (R490): the failing extent, and the first byte of it outside the handle. -/
def boundsFault (k handle : Nat) (lo hi : Int) (size : Nat) : FaultInfo :=
  let at_ : Int := if lo < 0 then lo else max lo size
  { fetchFault 0x0004 k with
    addr := some (BitVec.ofNat 12 handle, BitVec.ofInt 48 at_)
    state := ((BitVec.ofInt 64 hi) ++ (BitVec.ofInt 64 lo)).zeroExtend 512 }

/-- DEDUCED: assumption 64. -/
def State.check5 (s : State) (l : LRec) (stage : Bool) (ns : List Need) : Option FaultInfo :=
  firstFault (ns.map fun n =>
    match s.opndEntry l stage (l.opndHandle n.k) with
    | none => none
    | some e =>
      let off : Int := l.opndOffset n.k
      let lo := off + n.lo
      let hi := off + n.hi
      if n.lo ≤ n.hi ∧ (lo < 0 ∨ (e.size.toNat : Int) ≤ hi) then
        some (boundsFault n.k (l.opndHandle n.k) lo hi e.size.toNat)
      else match n.scale, s.scaleEntry l e with
        | some k, some h =>
          if h.size.toNat < k then some (boundsFault 4 (e.scale.toNat % 4096) 0 ((k : Int) - 1) h.size.toNat) else none
        | _, _ => none)

/-! ## Checks 6 and 7: windows and overlap (R134, R135, R181, R234, R401) -/

/-- The device ranges of a record: operand, first and last address, read, written; a scale buffer counts as read under
operand 4. -/
def LRec.ranges (l : LRec) (ns : List Need) : List (Nat × Nat × Nat × Bool × Bool) :=
  ns.flatMap fun n => match l.opnd n.k with
    | none => []
    | some o =>
      (if n.lo ≤ n.hi then [(n.k, o.lo.toNat, o.hi.toNat, n.rd, n.wr)] else []) ++
      (match n.scale, o.scale with
        | some k, some a => if k = 0 then [] else [(4, a.toNat, a.toNat + k - 1, true, false)]
        | _, _ => [])

/-- Every bank of a scratchpad range belongs to a partition; with `home`, and lies in one of its clusters (R181).
DESIGN CHOICE: assumption 65. -/
def State.banksOf (s : State) (p lo hi : Nat) (home : Bool) : Bool :=
  decide (hi < 0x200000000) && (List.range (padBank hi - padBank lo + 1)).all fun i =>
    let b := padBank lo + i
    (s.bankOf b).owner.map Fin.val == some p && (s.bankOf b).st != .failed && !s.bankHole b &&
    (!home || (s.clusterOwner (bankCluster b)).map Fin.val == some p)

/-- DEDUCED: assumption 64. -/
def State.check6 (s : State) (l : LRec) (ns : List Need) : Option FaultInfo :=
  let win (a : Nat) : Window := windowOf (BitVec.ofNat 64 a)
  firstFault ((l.ranges ns).map fun r =>
    let bad : Bool :=
      if l.isGang then !s.banksOf l.part r.2.1 r.2.2.1 (l.opcode == 0x30)
      else if l.usesChan then
        (win r.2.1 == .celPhys && decide (l.part < 64)) || (r.2.2.2.1 && win r.2.1 == .remote)
      else if l.isColl then
        match win r.2.1 with
        | .pad => !s.banksOf l.part r.2.1 r.2.2.1 false
        | .celView => false
        | _ => true
      else false
    faultIf bad 0x0005 r.1)

/-- Two ranges overlap. -/
def overlaps (a0 a1 b0 b1 : Nat) : Bool := decide (a0 ≤ b1 ∧ b0 ≤ a1)

/-- The partial area's length (R148). -/
def State.areaBytes (s : State) (p : Nat) : Nat :=
  0x40000 * s.gangSize p + 0x2000 * (s.clustersOf p).length

/-- DEDUCED: assumption 64. -/
def State.check7 (s : State) (l : LRec) (ns : List Need) : Option FaultInfo :=
  let rs := l.ranges ns
  let hit (w r : Nat × Nat × Nat × Bool × Bool) : Bool :=
    w.2.2.2.2 && r.2.2.2.1 && w.1 ≠ r.1 && overlaps w.2.1 w.2.2.1 r.2.1 r.2.2.1
  if l.isGang then
    let a := l.area.toNat
    firstFault (rs.map fun w =>
      faultIf (w.2.2.2.2 && (rs.any (hit w) || overlaps w.2.1 w.2.2.1 a (a + s.areaBytes l.part - 1))) 0x0006 w.1)
  else if l.isMover then firstFault (rs.map fun w => faultIf (rs.any (hit w)) 0x0006 w.1)
  else if l.isColl then
    -- DST, CARRY and VREC against SRC and LOSS (R401, R466)
    let loss : List (Nat × Nat × Nat × Bool × Bool) :=
      if l.cReduces && l.cLoss then match l.opnd 3 with
        | some o => [(5, o.addr.toNat + 64, o.addr.toNat + 71, true, false)]
        | none => []
      else []
    let outs := rs.filterMap fun r =>
      if r.1 = 0 then none else if r.1 = 3 then some (3, r.2.1, r.2.1 + 63, r.2.2.2.1, r.2.2.2.2) else some r
    let ins := rs.filter (fun r => r.1 == 0) ++ loss
    firstFault (outs.map fun w => faultIf (ins.any fun r => overlaps w.2.1 w.2.2.1 r.2.1 r.2.2.1) 0x0006 w.1)
  else none

/-! ## Check 8: class conditions -/

/-- A valid partial area (R148). -/
def State.areaOk (s : State) (p : Nat) : Bool :=
  let r := s.pr .part p 0x3C4
  let h := s.handleOf p (r.toNat % 4096)
  r.getLsbD 31 && h.v && h.rd && h.wr && h.kind == 0 && decide (s.areaBytes p ≤ h.size.toNat)

/-- A wait's timeout of 31 needs a counter with HOST = 1 (R290). -/
def State.forever (s : State) (l : LRec) (vid t : Nat) : Bool :=
  t == 31 && !((l.part ≠ 0 || vid < 4088) && vmapHost (s.vmapOf l.part vid))

/-- Where a record's pre-wait must lie (R287): the rank-0 cluster for a gang operation, its own cluster for a mover
command, anywhere for the rest. -/
def State.waitCluster (s : State) (l : LRec) : Option Nat :=
  if l.isGang then some ((s.clustersOf l.part).getD 0 0)
  else if l.usesChan then some (s.moverChan l / 8)
  else none

/-- A remote destination of a partition (R361, R372): OUT_EN, and a coordinate that can be reached. -/
def State.remoteOk (s : State) (l : LRec) (coord : BitVec 14) : Option FaultInfo :=
  firstFault
    [ faultIf (decide (l.part < 64) && !(s.pr .route 0 (0x60 + 4 * l.part)).getLsbD 31) 0x000D,
      faultIf (!s.reachable coord) 0x000C ]

/-- DEDUCED: assumptions 64, 128. -/
def State.check8 (s : State) (l : LRec) : Option FaultInfo :=
  let op := l.opcode.toNat
  let elsewhere (want : Option Nat) (vid : Nat) : Bool := match want, s.vid l.part vid with
    | some c, some v => v.1 ≠ c
    | _, _ => false
  let dst := l.opnd 1
  let remote : Bool := l.isMover && (dst.map fun o => windowOf o.addr == .remote).getD false
  firstFault
    [ faultIf (l.isGang && !s.areaOk l.part) 0x0008,
      if l.isFeed ∨ op = 0x61 ∨ op = 0x62 then
        firstFault
          [ faultIf (!s.sys.stageMode || l.part ≠ 0) 0x000D,
            faultIf (l.isFeed && (s.stgS ≠ 0 || tagChunk l.sub ≠ 0)) 0x000D,
            faultIf (l.isFeed && s.stgM ≤ tagMb l.sub) 0x0001 ]
      else none,
      faultIf (l.isColl && (!s.ctxOn l.cCtx || s.ctxPart l.cCtx ≠ l.part)) 0x000D,
      faultIf (l.pwEn && (elsewhere (s.waitCluster l) l.pwVid.toNat || s.forever l l.pwVid.toNat l.pwTimeout.toNat)) 0x0001,
      faultIf (op == 0x51 && s.forever l (l.immF 32 12) (l.subF 0 5)) 0x0001,
      faultIf (l.sigArrive && !l.isMover) 0x0001,
      faultIf (l.isMover && l.sigEn && !l.sigArrive && elsewhere (some (s.moverChan l / 8)) l.sigVid.toNat) 0x0001,
      if op = 0x52 then s.remoteOk l (BitVec.ofNat 14 (l.immF 50 14)) else none,
      if remote then
        (dst.bind fun o => s.remoteOk l (o.addr.extractLsb' 48 14))
      else none,
      if l.isMover ∧ l.sigEn ∧ l.sigArrive then
        match dst with
        | none => none
        | some o =>
          let lo := o.lo.toNat % 2 ^ 48
          let hi := o.hi.toNat % 2 ^ 48
          let pad : Bool := (remote || windowOf o.lo == .pad) && decide (hi < 0x200000000) &&
            o.lo.toNat / 2 ^ 48 == o.hi.toNat / 2 ^ 48
          faultIf (!pad || padCluster lo ≠ padCluster hi) 0x0001 1
      else none ]

/-! ## Relocating and checking a record (R471, R473) -/

/-- A command record and its parameter block, as read; `inside`: the block lies in the parameter part (R460). -/
structure RawRec where
  raw : BitVec 512
  params : List (BitVec 64)
  inside : Bool
deriving DecidableEq, Repr

/-- Relocate and check one record: the first check that fails is kept with it (R473, R474). -/
def State.loadRec (s : State) (ref : RecRef) (gid : BitVec 10) (ent : BitVec 512) (r : RawRec) : LRec :=
  let stage := entStage ent
  let p := ref.part.val
  let area := if p < 64 then (s.handleOf p ((s.pr .part p 0x3C4).toNat % 4096)).dev else 0
  let l : LRec :=
    { ref := ref, gid := gid, raw := r.raw, params := r.params, opnds := [], tag := entTag ent, after := entAfter ent
      bind := recField ent 32 0 40, area := area, fault := none }
  let left (k : Nat) : Nat := match s.opndEntry l stage (l.opndHandle k) with
    | some e => e.size.toNat - l.opndOffset k
    | none => 0
  let plen := (recField r.raw 11 6 2).toNat
  match l.check1 with
  | some f => { l with fault := some f }
  | none => match s.check2 l plen r.inside with
    | some f => { l with fault := some f }
    | none =>
      let ns := s.needs l left
      let l' := { l with opnds := (List.range 4).map (s.relocate l stage ns) }
      match firstFault [s.check3 l stage, s.check4 l stage ns, s.check5 l stage ns] with
      | some f => { l' with opnds := [], fault := some f }
      | none =>
        match firstFault [s.check6 l' ns, s.check7 l' ns, s.check8 l'] with
        | some f => { l' with opnds := [], fault := some f }
        | none => l'

/-! ## Reading memory for the front end (R483, R486) -/

/-- Read bytes through a handle: none where the read has to wait; an error where it faults. Bytes of host memory are
those that the environment supplies. DEDUCED: assumption 62. -/
def State.feRead (s : State) (p : Nat) (h : Handle) (off n : Nat) (host : List Byte) :
    Option (Except (BitVec 16) (List Byte)) :=
  let a := h.dev.toNat + off
  if h.kind = 2 then
    if s.mayRequest (fnOf p) then some (.ok ((List.range n).map fun i => host.getD i 0)) else none
  else if h.kind = 1 then
    match s.viewRead p (a % 0x1000000000) n with
    | .ok bs => some (.ok bs)
    | .error (.scrubbing _) => none
    | .error (.miss _) => some (.error 0x0019)
    | .error .rights => some (.error 0x001A)
    | .error .poison => some (.error 0x001D)
  else if h.kind = 0 then
    if !s.padOwned p a n then some (.error 0x0010)
    else if s.poisoned a n then some (.error 0x001D)
    else some (.ok (s.padRead a n))
  else some (.error 0x0004)

/-- A front-end read that found uncorrectable data raises its records (R543, R551). -/
def State.feNote (s : State) (p : Nat) (h : Handle) (off n : Nat) : State :=
  let a := h.dev.toNat + off
  if h.kind = 1 then s.noteView p (a % 0x1000000000) n
  else if h.kind = 0 && s.padOwned p a n then s.notePoison a n
  else s

/-! ## Ring entries (R476, R477) -/

/-- Whether a ring entry is well formed: reserved fields, counts, the buffer's handle and range, STAGE on queue 0 of
the stage engine only. -/
def State.entryOk (s : State) (p q : Nat) (e : BitVec 512) : Bool :=
  let b (byte lo n : Nat) : Nat := (recField e byte lo n).toNat
  let r := entRecords e
  let pr := entPrecords e
  let h := s.handleOf p (entHandle e)
  let off := entOffset e
  b 1 4 4 = 0 && b 8 0 4 = 0 && b 9 0 8 = 0 && b 14 0 16 = 0 && b 20 0 32 = 0 && b 37 0 216 = 0 &&
  (entStage e || b 32 0 40 = 0) && (entDeadlineV e || entDeadline e = 0) &&
  off % 64 = 0 && 1 ≤ r && r ≤ 16384 && pr ≤ 16383 && r + pr ≤ 16384 && h.v && h.rd && h.cmd &&
  h.covers off (64 * (r + pr)) && (!entStage e || s.stageFed p q)

/-- The record that stands for a ring entry which faults as a whole (R477): record index 0xFFFF.
DEDUCED: assumption 62. -/
def entryFault (ref : RecRef) (gid : BitVec 10) (ent : BitVec 512) (cause : BitVec 16) : LRec :=
  { ref := { ref with index := 0xFFFF }, gid := gid, raw := 0, params := [], opnds := [], tag := entTag ent
    after := entAfter ent, bind := 0, area := 0, fault := some (fetchFault cause) }

/-- Records of an entry that a slot's halves hold, and whether they hold the whole entry's fault. -/
def State.heldOf (s : State) (slot q : Nat) (num : BitVec 17) : List LRec :=
  ((s.halfOf slot false).recs ++ (s.halfOf slot true).recs).filter fun r => r.queue == q && r.ref.entry == num

/-- The index of an entry's next record to fetch; none where all are fetched. -/
def State.nextIndex (s : State) (slot q : Nat) (e : EntrySt) : Option Nat :=
  let held := s.heldOf slot q e.num
  let i := e.dispatched + held.length
  if held.any (fun r => r.ref.index == 0xFFFF) || decide (entRecords e.raw ≤ i ∧ 0 < i) then none else some i

/-- The completion ring has room for another started entry (R480). -/
def State.cplRoom (s : State) (p q : Nat) : Bool :=
  let x := s.queueOf p q
  let m := s.cplLog2 p q
  let head := BitVec.ofNat 17 (s.qReg p q 0x28).toNat
  decide (x.entries.length + 2 ≤ 2 ^ m - ptrDist m head x.cplTail)

/-- What the front end can fetch next for a queue: a started entry's remaining records, or an unstarted entry. -/
def State.fetchable (s : State) (slot p q : Nat) : Bool :=
  let x := s.queueOf p q
  x.st == .ready && s.bound p q &&
  ((x.entries.any fun e => !e.faulted && (s.nextIndex slot q e).isSome) || (x.started != x.tail && s.cplRoom p q))

/-- The queue whose records enter a free half (R483): that of the buffer the other half holds while it has more,
otherwise the next in round robin after the queue last chosen. -/
def State.chooseQueue (s : State) (slot p : Nat) (hot : Bool) (other : Half) : Option Nat :=
  let first : Option Nat := match other.recs with
    | r :: _ =>
      let x := s.queueOf p r.queue
      if x.st == .ready && s.bound p r.queue &&
          (x.entries.any fun e => e.num == r.ref.entry && (s.nextIndex slot r.queue e).isSome) then some r.queue
      else none
    | [] => none
  match first with
  | some q => some q
  | none =>
    let last := s.fe.lastQueue.get 0 slot
    ((List.range 16).map fun i => (last + 1 + i) % 16).find? fun q =>
      s.fetchable slot p q && s.isHot p q == hot

/-- Start the next ring entry of a queue (R476, R480): none where its read has to wait. -/
def State.startEntry (s : State) (p q : Nat) (host : BitVec 512) : Option (State × EntrySt × Option (BitVec 16)) :=
  let x := s.queueOf p q
  let n := s.ringLog2 p q
  let ring := s.handleOf p ((s.qReg p q 0x04).toNat % 4096)
  let off := (s.qReg p q 0x0C ++ s.qReg p q 0x08).toNat + 64 * (x.started.toNat % 2 ^ n)
  match s.feRead p ring off 64 (leBytes 64 host.toNat) with
  | none => none
  | some r =>
    let s := s.feNote p ring off 64
    let bs : List Byte := match r with
      | .ok bs => bs
      | .error _ => []
    let e : EntrySt := { num := x.started, raw := BitVec.ofNat 512 (leVal bs), dispatched := 0, done := [], faulted := false }
    let s := s.setQueue p q { x with started := ptrInc n x.started, entries := x.entries ++ [e] }
    let cause : Option (BitVec 16) := match r with
      | .ok _ => none
      | .error c => some c
    some (s.charge p 4 64, e, cause)

/-- The 64 B of a ledger entry (R326). -/
def LedgerEnt.bytes (x : LedgerEnt) : List Byte :=
  let flags : Nat := x.late.toNat * 128 + x.spilled.toNat * 64 + x.abandoned.toNat * 32
  leBytes 2 x.tag.toNat ++ [x.st.zeroExtend 8, BitVec.ofNat 8 flags, x.slot, x.gbuf] ++ leBytes 2 x.cslot.toNat ++
  leBytes 4 x.inWords.toNat ++ leBytes 4 x.moveWords.toNat ++ leBytes 4 x.gradWords.toNat ++
  leBytes 4 x.sentWords.toNat ++ leBytes 8 x.step.toNat ++ leBytes 8 x.tFwd.toNat ++ leBytes 8 x.tBwd.toNat ++
  List.replicate 16 0

/-- Read record `i` of a buffer and its parameter block from the buffer's bytes. -/
def rawRec (ent : BitVec 512) (buf : List Byte) (i : Nat) : RawRec :=
  let raw := BitVec.ofNat 512 (leVal ((buf.drop (64 * i)).take 64))
  let plen := (recField raw 11 6 2).toNat
  let off := (recField raw 10 0 14).toNat
  let inside := plen == 0 || (plen ≤ 2 && decide (off + plen ≤ entPrecords ent))
  let bs := (buf.drop (64 * (entRecords ent + off))).take (64 * plen)
  { raw := raw, inside := inside
    params := if plen = 0 ∨ !inside then [] else (List.range (8 * plen)).map fun k =>
      BitVec.ofNat 64 (leVal ((bs.drop (8 * k)).take 8)) }

/-- Relocate records from index `i` on while the FETCH regulator holds tokens (R483, R508): each record and each record
of its block draws 64 B. -/
def State.fillRecs (s : State) (ref : RecRef) (gid : BitVec 10) (ent : BitVec 512) (buf : List Byte) (i : Nat) :
    Nat → State × List LRec
  | 0 => (s, [])
  | n + 1 =>
    if !s.hasTokens ref.part.val 4 then (s, [])
    else
      let r := rawRec ent buf i
      let l := s.loadRec { ref with index := BitVec.ofNat 16 i } gid ent r
      let s := (s.charge ref.part.val 4 (64 + 8 * r.params.length)).useRec l true
      let rest := State.fillRecs s ref gid ent buf (i + 1) n
      (rest.1, l :: rest.2)

/-- Put records into a half. -/
def State.putHalf (s : State) (slot : Nat) (half : Bool) (recs : List LRec) : State :=
  if recs.isEmpty then s
  else
    let s := s.setHalf slot half { recs := recs, filled := s.fe.fillSeq, since := some s.sys.time, bankWait := none }
    { s with fe := { s.fe with fillSeq := s.fe.fillSeq + 1 } }

/-- Fetch the next window of a started entry of queue `q` into a half. DEDUCED: assumption 62. -/
def State.fillWindow (s : State) (slot p q : Nat) (half : Bool) (e : EntrySt) (host : List Byte) : State :=
  let x := s.queueOf p q
  let ref : RecRef := ⟨Fin.ofNat 65 p, Fin.ofNat 16 q, e.num, 0⟩
  if !s.entryOk p q e.raw then s.putHalf slot half [entryFault ref x.gid e.raw 0x0009]
  else
    let h := s.handleOf p (entHandle e.raw)
    match s.nextIndex slot q e with
    | none => s
    | some i =>
      let n := min 1024 (entRecords e.raw - i)
      let len := 64 * (entRecords e.raw + entPrecords e.raw)
      match s.feRead p h (entOffset e.raw) len host with
      | none => s
      | some (.error c) =>
        let l := entryFault ref x.gid e.raw c
        (s.feNote p h (entOffset e.raw) len).putHalf slot half [{ l with ref := { ref with index := BitVec.ofNat 16 i } }]
      | some (.ok buf) =>
        let s := if entStage e.raw then
            { s with stg := { s.stg with info := (s.ledger (recField e.raw 36 0 8).toNat).bytes } }
          else s
        let r := s.fillRecs ref x.gid e.raw buf i n
        r.1.putHalf slot half r.2

/-- RING_ENTRY_FETCH (R476–R483): fill a free half of a slot. `hostEntry` and `hostRecs` are the ring entry and the
buffer's records (command part, then parameter part) where they lie in host memory.
DESIGN CHOICE: assumption 6; DEDUCED: assumption 62. -/
def execRingEntryFetch (p : Fin 65) (hot half : Bool) (hostEntry : BitVec 512) (hostRecs : List (BitVec 512)) (s : State) :
    Out :=
  let slot := slotOf p.val hot
  let host := hostRecs.flatMap fun r => leBytes 64 r.toNat
  if !(s.halfOf slot half).recs.isEmpty || !s.hasTokens p.val 4 || s.pwr.trip then .next s
  else match s.chooseQueue slot p.val hot (s.halfOf slot (!half)) with
    | none => .next s
    | some q =>
      let s1 := { s with fe := { s.fe with lastQueue := s.fe.lastQueue.put 0 slot q } }
      let x := s.queueOf p.val q
      match x.entries.find? fun e => !e.faulted && (s.nextIndex slot q e).isSome with
      | some e => .next (s1.fillWindow slot p.val q half e host)
      | none => match s1.startEntry p.val q hostEntry with
        | none => .next s
        | some (s2, e, none) => .next (s2.fillWindow slot p.val q half e host)
        | some (s2, e, some c) =>
          .next (s2.putHalf slot half [entryFault ⟨p, Fin.ofNat 16 q, e.num, 0⟩ x.gid e.raw c])

end Sys2Proof.Machine
end

