-- ==== Sys2Proof/Machine/Job.lean ====
section
/-! DEFINITION. What ends a step of the stage engine: the step boundary (R343) and JOB_FAULT (R344–R346), with the
floods that carry a job fault or a reset to other devices (R391). -/

namespace Sys2Proof.Machine

/-! ## Floods (R391) -/

/-- The message bytes of a FLOOD flit (R358). DESIGN CHOICE: assumption 89. -/
def floodBytes (kind : Byte) (origin : BitVec 14) (ident : BitVec 16) (step : BitVec 64) : List Byte :=
  [5, kind] ++ leBytes 2 origin.toNat ++ leBytes 2 ident.toNat ++ leBytes 8 step.toNat

/-- Send a flood in three slots on the first ACTIVE member of every logical port but one. DEDUCED: assumption 88. -/
def State.floodOut (s : State) (skip : Option Nat) (msg : List Byte) : State :=
  (List.range 6).foldl (fun s p =>
    match s.liveMembers p with
    | m :: _ => if skip = some p then s else ((s.sendControl m msg).sendControl m msg).sendControl m msg
    | [] => s) s

/-- The floods still remembered: each pair is kept for 1 ms. DESIGN CHOICE: assumption 89. -/
def State.floodsKept (s : State) : List FloodSeen :=
  s.lk.floods.filter fun f => decide ((s.sys.time - f.at_).toNat < 1000000)

/-- Whether a flood is a repeat. DESIGN CHOICE: assumption 89. -/
def State.floodSeen (s : State) (origin : BitVec 14) (ident : BitVec 16) : Bool :=
  s.floodsKept.any fun f => f.origin == origin && f.ident == ident

/-- Remember a flood. -/
def State.floodNote (s : State) (origin : BitVec 14) (ident : BitVec 16) : State :=
  { s with lk := { s.lk with floods := ⟨origin, ident, s.sys.time⟩ :: s.floodsKept } }

/-- Start a flood of this device's own. -/
def State.flood (s : State) (kind : Byte) : State :=
  let n := s.lk.floodSeq + 1
  let s := ({ s with lk := { s.lk with floodSeq := n } }).floodNote s.selfLogical n
  s.floodOut none (floodBytes kind s.selfLogical n s.stepNo)

/-! ## JOB_FAULT (R345) -/

/-- Steps 2 and 3 of R345 for queue 0: its gang operation stops at its step ends, its other records are aborted, and
its ring entry ends with FAULT; an entry not started is withdrawn. The queue stays in service.
DEDUCED: assumption 88. -/
def State.endInvocation (s : State) : State :=
  let mine (r : RecRef) : Bool := r.part.val == 0 && r.queue.val == 0
  let run := s.gang.running.get none 0
  let keep (r : RecRef) : Bool := (run.map fun g => g.lrec.ref == r).getD false
  let s := match run with
    | some g =>
      if mine g.lrec.ref then
        { s with gang := { s.gang with running := s.gang.running.put none 0 (some { g with stop := some .abort }) } }
      else s
    | none => s
  let s := s.dropHalves 0 fun r => r.queue == 0
  let x := s.queueOf 0 0
  let es := (x.entries.filter fun e => decide (0 < e.dispatched)).map fun e => { e with faulted := true }
  let started := match es.getLast? with
    | some e => ptrInc (s.ringLog2 0 0) e.num
    | none => x.head
  let s := if x.st = .ready ∨ x.st = .faulted then
      s.setQueue 0 0 { x with entries := es, started := started, tail := started }
    else s
  (s.abortFlights fun r => mine r && !keep r).completions 0 0

/-- Channel 6 of every cluster serves stashes; what remains of a collective or a command of partition 0's other queues
keeps running. Counters 192–255 of cluster 0 go to 0 (R345 step 4). -/
def State.clearStageCounters (s : State) : State := (List.range 64).foldl (fun s i => s.setCount 0 (192 + i) 0) s

/-- Empty a stage queue at JOB_FAULT (R345 step 3): a flush, after which capture and the producer, which have stopped,
begin again at an item boundary. DEDUCED: assumption 142. -/
def State.emptyStageQueue (s : State) (n : Nat) : State :=
  let q : QInst := .stg (Fin.ofNat 5 n)
  let s := s.queFlush q
  let st := s.que1 q
  ((s.queCount q 0x1C st.words.length).setQue q { QueueSt.init with w := st.w, rp := st.w, wm := st.wm }).evalWm q

/-- The stage engine's activity ends and its ledger is freed (R345 steps 1, 3 and 4). -/
def State.clearStage (s : State) : State :=
  let s := (List.range 5).foldl State.emptyStageQueue s
  let g := { s.stg with
    ledger := [], cstash := [], tags := [], asm := [], capture := none, gcap := none, gbufs := [], send := []
    spill := none, prefetch := [], inv := none, skipping := false, throttled := false }
  State.clearStageCounters { s with stg := g }

/-- Partition 0's collectives are abandoned (R418); a command of another queue than 0 ends as torn. -/
def State.dropCollectives (s : State) : State :=
  let rs := (List.range 16).filterMap fun n => (s.cctx n).run.map (·.ref)
  let s := (rs.filter fun r => r.part.val == 0 && r.queue.val != 0).foldl
    (fun s r => s.failFlight r (engineFault 0x0022)) s
  s.collAbandon fun r => r.part.val == 0

/-- STG.FAULT's value for a fault (R346, R348). -/
def JobFault.word (f : JobFault) : Word :=
  BitVec.ofBool f.crit ++ (0#7) ++ f.cause ++ (0#4) ++ f.mb

/-- The error record of a JOB_FAULT (R538). -/
def JobFault.errRec (f : JobFault) : ErrRec :=
  { ErrRec.mk0 0x16 sevContained (srcOf 3 0) with owner := 0x80, cause := f.word }

/-- The state after a JOB_FAULT's activity has ended: FAULTED, with the record and the interrupt (R345, R346); a
restore in progress fails (R446). DEDUCED: assumption 88. -/
def State.enterFaulted (s : State) (f : JobFault) : State :=
  let g := { s.stg with st := 5, fault := f, pendingFault := none }
  let s' : State := { s with stg := g }
  let s' := (s'.record f.errRec).raise .stg 0 4
  if s'.ckpt.st = 3 then s'.restoreFail 3 else s'

/-- Handle a JOB_FAULT (R345), and flood it unless a flood brought it (R391). DEDUCED: assumption 88. -/
def State.jobFault (s : State) (f : JobFault) : State :=
  let s := s.dropCollectives.endInvocation.clearStage.enterFaulted f
  if f.flood then s else s.flood 2

/-- JOB_FAULT: the fault that has been noted is handled. DEDUCED: assumption 88. -/
def execJobFault (s : State) : Out :=
  match s.stg.pendingFault with
  | none => .next s
  | some f =>
    if s.stg.st = 0 then .next { s with stg := { s.stg with pendingFault := none } }
    else .next (s.jobFault f)

/-! ## The step boundary (R343) -/

/-- STEP_BOUNDARY (R343): the update program has completed. DEDUCED: assumption 82. -/
def execStepBoundary (s : State) : Out :=
  match s.stg.inv with
  | none => .next s
  | some i =>
    if i.prog ≠ 3 ∨ !s.invEnded ∨ !(s.stg.st == 3 || s.stg.st == 4) ∨ s.stg.pendingFault.isSome then .next s
    else
      let left := s.stg.stepsLeft - 1
      let s := { s with stg := { s.stg with inv := none, skipping := false, stepsLeft := left, st := 1 } }
      let s := (s.setPr64 .stg 0 0x70 (s.stepNo + 1)).raise .stg 0 2
      let s := (List.range 5).foldl (fun s n => s.evalWm (.stg (Fin.ofNat 5 n))) (s.safePoints ⟨.stg, 0⟩)
      let s := s.applyClears 0
      let s := s.ckptBoundary
      .next (if left ≠ 0 ∧ !(s.stgReg 0x08).getLsbD 1 then s.beginStep else s)

end Sys2Proof.Machine
end

