-- ==== Sys2Proof/Machine/Reset.lean ====
section
/-! DEFINITION. What a warm reset stops and clears at once (R35, R38, R587 steps 1–4), and what a cold reset clears
(R35). -/

namespace Sys2Proof.Machine

/-- A bank-owner table entry after a warm or cold reset (R175, R193): failed and holes stay, all others are the
device's. DEDUCED: assumptions 17, 46. -/
def bankAfterReset (e : Bank) : Bank :=
  if e.st = .failed then ⟨.failed, none, true, none⟩ else if e.hole then { Bank.init with hole := true } else Bank.init

/-- Whether a warm reset keeps a register: the GLB, PWR, MGMT and SLOE pages (R591, R607, R621, R623, R645), CEL.CARVE
(R216), and the MSI-X tables, which belong to the configuration spaces (R588). DEDUCED: assumption 18. -/
def warmKeeps (key : Nat) : Bool :=
  [0, 1, 5, 7].contains (key / 0x1000) || key == 0x8040 || decide (0x3FFE000 ≤ key)

/-- Steps 1–4 of a warm reset (R587): every engine, mover and link port stops at once with no step ending, requests to
the host are abandoned, and everything that R35 does not keep takes its reset value. The outboxes and the free-value
counter are the model's own and stay. DEDUCED: assumption 18; DESIGN CHOICE: assumption 19. -/
def State.warmStop (s : State) : State :=
  let z := State.reset
  { z with
    pending := s.pending
    sys := { s.sys with phase := 3, stageMode := false, cellarCopy := false }
    bus := { z.bus with regs := s.bus.regs.keep fun key _ => warmKeeps key }
    host := { s.host with reads := [] }
    err := { z.err with
      ring := s.err.ring, retired := s.err.retired, cellarDegraded := s.err.cellarDegraded
      decided := s.err.decided.remap none fun d => d.map fun _ => false }
    sloe := s.sloe
    fuse := s.fuse
    region := s.region.remap RegionPt.init fun x => { x with runMhz := x.mhz, runMv := x.mv }
    pwr := s.pwr
    clk := { z.clk with lost := s.clk.lost }
    mgmt := s.mgmt
    pad := { z.pad with
      rowMap := s.pad.rowMap, nextId := s.pad.nextId
      bank := s.pad.bank.remap Bank.init bankAfterReset }
    cel := { z.cel with
      mem := s.cel.mem, poison := s.cel.poison, keys := s.cel.keys.keep fun k _ => k = 64
      nextKey := s.cel.nextKey, pageKey := s.cel.pageKey }
    que := { z.que with stallSampled := s.que.stallSampled }
    lk := { z.lk with out := s.lk.out }
    ckpt := { z.ckpt with half := s.ckpt.half } }

/-- A cold reset (R35): everything takes its reset value but the fuses, the audit log and the ageing history in flash,
which hold rows mapped out, failed banks, retired pages and the plan. The levels of pins, rails and clocks are the
board's. DEDUCED: assumption 17. -/
def State.coldReset (s : State) : State :=
  let z := State.reset
  { z with
    pending := s.pending
    sys := { z.sys with
      coldResets := s.sys.coldResets, pcieHeld := s.sys.pcieHeld, freeCtr := s.sys.freeCtr }
    host := { z.host with nextRead := s.host.nextRead, outbox := s.host.outbox }
    err := { z.err with
      retired := s.fuse.retiredPages
      decided := s.err.decided.remap none fun d => d.map fun _ => false }
    fuse := { s.fuse with auditBad := false, tileOut := s.fuse.fusedOut }
    region := s.fuse.plan.remap RegionPt.init fun x => { x with due := true, pending := none, railWait := false }
    pwr := { z.pwr with meas := s.pwr.meas, railOk := s.pwr.railOk, rails := s.pwr.rails, auxAt := s.pwr.auxAt }
    clk := { z.clk with lost := s.clk.lost }
    mgmt := { z.mgmt with pins := s.mgmt.pins &&& ~~~1#9, tap := s.mgmt.tap }
    pad := { z.pad with
      rowMap := s.pad.rowMap, nextId := s.pad.nextId
      bank := s.pad.bank.remap Bank.init bankAfterReset }
    cel := { z.cel with nextKey := s.cel.nextKey }
    que := { z.que with stallSampled := s.que.stallSampled }
    lk := { z.lk with out := s.lk.out } }

/-- Whether warm-reset sources act (R581, R586, R590, R606): READY, with no trip. DEDUCED: assumption 21. -/
def State.warmable (s : State) : Bool := s.sys.phase == 7 && !s.pwr.trip

/-- LAST_RESET's code of a warm-reset source (R591). -/
def warmCode : WarmSource → BitVec 2
  | .pin => 1
  | .flood => 1
  | .perst => 2
  | .glb => 3

/-- Return the PCIe controller and every configuration space to reset (R36, R588). DEDUCED: assumption 18. -/
def State.pcieReset (s : State) : State :=
  { s with
    host := { s.host with config := [], vfEnable := false, numVFs := 0, msixPending := [], aer := [] }
    bus := { s.bus with regs := s.bus.regs.keep fun key _ => decide (key < 0x3FFE000) }
    sys := { s.sys with pcieUp := false } }

/-- A warm-reset source (R587, R588, R590): the first one stops the device and is the one shown; PERST_N adds its PCIe
reset also where it merges. DEDUCED: assumption 20. -/
def State.warmBegin (s : State) (src : WarmSource) : State :=
  let s := if src = .perst then s.pcieReset else s
  match s.sys.warm with
  | some w => if src = .perst then { s with sys := { s.sys with warm := some { w with perst := true } } } else s
  | none =>
    let s := s.warmStop
    { s with sys := { s.sys with warm := some ⟨src, src == .perst⟩, lastReset := warmCode src } }

end Sys2Proof.Machine
end

