-- ==== Sys2Proof/Machine/LinkRows.lean ====
section
/-! DEFINITION. The rows of the links (R354–R392): flits received, acknowledgements and replays, members and logical
ports that go down, resynchronisation, training, Quince, floods and epoch changes. -/

namespace Sys2Proof.Machine

/-! ## Consequences of lost flits (R389) -/

/-- What a lost or cut packet does at either end of its logical port. `sent` says that this device is the sending end,
and `home` that the packet's source is this device. DEDUCED: assumption 92. -/
def State.lossOf (s : State) (sent : Bool) (h : BitVec 128) : State :=
  let home := pktSrc h == s.selfLogical
  if pktKind h = 7 then s.collTear ((pktAddr h).extractLsb' 44 4).toNat
  else if pktKind h = 5 then
    if sent then
      let s := if s.sys.stageMode then s.record { linkRec 0 with sev := sevContained } else s
      s.jobCause 5 ((pktAddr h).extractLsb' 0 12)
    else if s.packetHere h then
      let t : BitVec 16 := (pktAddr h).extractLsb' 0 16
      if s.stg.st = 0 ∨ s.stg.st = 5 then s else s.breakItem (if tagGrad t then 1 else 0)
    else s
  else if (pktKind h = 1 ∨ pktKind h = 2) ∧ sent ∧ home then
    match s.awaiting (pktDst h) (cmplTag (pktAddr h)) with
    | some (n, c) => (if c.ref.part.val < 64 then s.bump .part c.ref.part.val 0x4D0 else s).faultChan n c 0x001E
    | none => s
  else s

/-- The distinct packet headers of a list, in order. -/
def distinctPkts : List (BitVec 128) → List (BitVec 128)
  | [] => []
  | x :: xs => x :: (distinctPkts xs).filter (· ≠ x)

/-- End at this receiver the old sequence of a logical port (R387 step 3, R389): flits held and not delivered are
discarded, and packets cut short take a BROKEN end. DEDUCED: assumption 92. -/
def State.endReceive (s : State) (p : Nat) : State :=
  let s := (s.membersOf p).foldl (fun s l => s.setLink l { s.link l with held := [], discard := false, lastGood := 0xFFF }) s
  let s := s.setPort p { s.port p with delivered := none, ackDue := false }
  (List.range 8).foldl (fun s vc =>
    let fs := (s.port p).rx.get [] vc
    match fs.getLast? with
    | some f =>
      if f.eop then s
      else
        let tail := (fs.reverse.takeWhile fun f => !f.eop).reverse
        let h := BitVec.ofNat 128 (leVal ((tail.flatMap (·.body)).take 16))
        let s := s.pushRx p (BitVec.ofNat 3 vc) [⟨0, BitVec.ofNat 3 vc, false, true, [], 0, false, true⟩]
        s.lossOf false h
    | none => s) s

/-- The unacknowledged flits of a logical port, and those that come after an acknowledgement. -/
def State.unackedFlits (s : State) (p : Nat) : List TxFlit := (s.membersOf p).flatMap fun l => (s.link l).buf

/-- End at this sender the old sequence of a logical port (R387 step 2): the flits not delivered are lost, a packet
partly sent is cut, and SEQ restarts at 0. A lost flit's credit comes back, as the receiver discards it.
DEDUCED: assumption 92. -/
def State.endSendSeq (s : State) (p : Nat) (lost : TxFlit → Bool) : State :=
  let gone := (s.unackedFlits p).filter lost
  let s := s.bump .port p 0x50 gone.length
  let s := (s.membersOf p).foldl (fun s l =>
    let x := s.link l
    let spent := (x.buf.filter lost).foldl (fun m f =>
      let vc := (hdrVc f.flit.header).toNat
      m.put 0 vc (m.get 0 vc - 1)) x.spent
    s.setLink l { x with buf := [], replay := none, fails := 0, spent := spent, ackAt := s.sys.time }) s
  let x := s.port p
  let cut := (x.txq.filter fun o => !o.first).map (·.hdr)
  let s := s.setPort p { x with next := 0, acked := 0, txq := x.txq.filter (·.first) }
  (distinctPkts (gone.map (·.pkt) ++ cut)).foldl (fun s h => s.lossOf true h) s

/-! ## Down (R370, R387, R388) -/

/-- Packets that wait on a logical port which has gone down take another route (R376), or are unreachable.
DEDUCED: assumption 92. -/
def State.reroute (s : State) (p : Nat) : State :=
  let q := (s.port p).txq
  let s := s.setPort p { s.port p with txq := [] }
  q.foldl (fun s o =>
    match s.routeTo (pktDst o.hdr) (some (s.dirOf p / 2, false)) with
    | .out p' d => if p' = p then s else s.queuePacket p' (BitVec.ofNat 3 (vcClass o.vc * 2 + d.toNat)) o.hdr o.bodies
    | _ =>
      if pktSrc o.hdr = s.selfLogical then s.lossOf true o.hdr
      else (s.bump .route 0 0x160).raise .route 0 2) s

/-- A logical port goes down (R388). DEDUCED: assumption 92. -/
def State.portDown (s : State) (p : Nat) : State :=
  let s := s.setPort p { s.port p with st := 0 }
  let s := s.raise .port p 1
  ((s.endReceive p).endSendSeq p fun _ => true).reroute p

/-- A logical port resynchronises (R387): requests go on every surviving ACTIVE member. -/
def State.resync (s : State) (p : Nat) : State :=
  let s := s.bump .port p 0x4C
  if (s.liveMembers p).isEmpty then s.portDown p
  else
    let s := s.setPort p { s.port p with st := 2, resyncAt := s.sys.time }
    let s := s.raise .port p 2
    (s.liveMembers p).foldl (fun s l => s.sendControl l [4, 0]) s

/-- A member link goes down (R370): its logical port resynchronises where it carries traffic. Its flits stay counted as
unacknowledged until then. DESIGN CHOICE: assumption 94. -/
def State.linkDown (s : State) (l : Nat) : State :=
  let x := s.link l
  let active := x.st == 5
  let s := s.setLink l { x with
    st := 6, since := s.sys.time, replay := none, fails := 0, held := [], discard := false, lastGood := 0xFFF
    epochTrain := false, ident := none, identSent := none }
  let s := (s.bump .lnk l 0x90).raise .lnk l 4
  let s := s.record { linkRec l with cause := 6 }
  match s.lportOf l with
  | some p => if active && (s.port p).st ≠ 0 then s.resync p else s
  | none => s

/-! ## Acknowledgement and replay (R366–R370) -/

/-- Apply an ACK on a logical port (R367): any but one after the oldest unacknowledged SEQ and not after the newest sent
is ignored and counted. DEDUCED: assumption 91. -/
def State.takeAck (s : State) (p : Nat) (a : BitVec 12) : State :=
  let x := s.port p
  let oldest := x.next - BitVec.ofNat 12 (s.unacked p)
  let newest := x.next - 1
  if (s.unackedFlits p).isEmpty ∨ !seqAfter a oldest ∨ seqAfter a newest then s.bump .port p 0x54
  else
    let s := s.setPort p { x with acked := a }
    (s.membersOf p).foldl (fun s l =>
      let y := s.link l
      let covered (q : BitVec 12) : Bool := !seqAfter q a
      let (fails, replay) := match y.replay with
        | some r => ((if covered r.first then 0 else y.fails), if covered r.last then none else some r)
        | none => (y.fails, none)
      s.setLink l { y with
        buf := y.buf.filter fun f => seqAfter f.seq a
        fails := fails, replay := replay, ackAt := s.sys.time }) s

/-- Resend flits of a member, the first with RPL (R369). -/
def State.resend (s : State) (l : Nat) (rpl : Bool) : List TxFlit → State
  | [] => s
  | f :: fs =>
    let h := (f.flit.header &&& ~~~(1#64 <<< 34)) ||| (if rpl then 1#64 <<< 34 else 0)
    State.resend ((s.bump64 .lnk l 0x64 1).emitFlit l (mkFlit h f.flit.body)) l false fs

/-- Count a replay start for the checkpoint warning (R436). -/
def State.noteReplay (s : State) : State :=
  let ts := (s.sys.time :: s.ckpt.replays).filter fun t => decide ((s.sys.time - t).toNat < 1000000000)
  ({ s with ckpt := { s.ckpt with replays := ts } }).ckptWarn 30
    (decide (((s.pr .ckpt 0 0x44).extractLsb' 8 8).toNat * 64 < ts.length))

/-- A member replays the flits that `sel` selects (R369, R370). A replay whose first flit is not acknowledged has
failed; the eighth failure takes the link down. -/
def State.startReplay (s : State) (l : Nat) (sel : TxFlit → Bool) : State :=
  let x := s.link l
  let failed := match x.replay with
    | some r => x.buf.any fun f => f.seq == r.first
    | none => false
  let s := if failed then (s.bump .lnk l 0x84).setLink l { x with fails := x.fails + 1 } else s
  if failed && decide (8 ≤ x.fails + 1) then s.linkDown l
  else
    let fs := x.buf.filter sel
    match fs.head?, fs.getLast? with
    | some a, some b =>
      let s := (s.bump .lnk l 0x80).noteReplay
      let s := s.setLink l { s.link l with replay := some ⟨a.seq, b.seq⟩, ackAt := s.sys.time }
      s.resend l true fs
    | _, _ => s

/-- A NAK (R369). DEDUCED: assumption 91. -/
def State.takeNak (s : State) (l : Nat) (seq : BitVec 12) : State :=
  if (s.link l).st = 5 then s.startReplay l fun f => seqAfter f.seq seq else s

/-- NAK_RECEIVE (R369). DEDUCED: assumption 91. -/
def execNakReceive (l : Fin 16) (seq : BitVec 12) (s : State) : Out := .next (s.takeNak l.val seq)

/-- The replay timer's period in ns (R392). -/
def State.replayTo (s : State) (l : Nat) : Nat := (((s.pr .lnk l 0x40).extractLsb' 24 4).toNat + 1) * 1000

/-- REPLAY_TIMEOUT (R369). -/
def execReplayTimeout (l : Fin 16) (s : State) : Out :=
  let x := s.link l.val
  if x.st = 5 ∧ x.buf ≠ [] ∧ s.replayTo l.val ≤ (s.sys.time - x.ackAt).toNat then
    .next (s.startReplay l.val fun _ => true)
  else .next s

/-- LINK_LOCK_LOSS (R370): error-correction lock or signal has been lost for 10 µs on a link that holds lock.
DEDUCED: assumption 91. -/
def execLinkLockLoss (l : Fin 16) (s : State) : Out :=
  .next (if [3, 4, 5, 8].contains (s.link l.val).st then s.linkDown l.val else s)

/-! ## Resynchronisation (R387, R388) -/

/-- A RESYNC request (R387): this end replies with the last SEQ it delivered, and ends the old sequence.
DEDUCED: assumption 91. -/
def State.takeResync (s : State) (l : Nat) : State :=
  match s.lportOf l with
  | none => s
  | some p =>
    if (s.link l).st ≠ 5 then s
    else
      let d := (s.port p).delivered
      let s := s.sendControl l ([4, 1] ++ leBytes 2 (d.getD 0).toNat ++ [if d.isSome then 0 else 1])
      s.endReceive p

/-- A RESYNC reply (R387): what it shows as delivered is freed, the rest is lost, and SEQ restarts at 0. -/
def State.takeResyncReply (s : State) (l : Nat) (last : Option (BitVec 12)) : State :=
  match s.lportOf l with
  | none => s
  | some p =>
    if (s.port p).st ≠ 2 then s
    else
      let s := s.endSendSeq p fun f => match last with
        | some d => seqAfter f.seq d
        | none => true
      (s.setPort p { s.port p with st := 1 }).drainPort p

/-- RESYNC_REQUEST (R387). -/
def execResyncRequest (l : Fin 16) (s : State) : Out := .next (s.takeResync l.val)

/-- RESYNC_REPLY (R387). -/
def execResyncReply (l : Fin 16) (last : Option (BitVec 12)) (s : State) : Out := .next (s.takeResyncReply l.val last)

/-- RESYNC_TIMEOUT (R388): no surviving member has answered within 10 µs. -/
def execResyncTimeout (p : Fin 6) (s : State) : Out :=
  let x := s.port p.val
  if x.st = 2 ∧ 10000 ≤ (s.sys.time - x.resyncAt).toNat then .next (s.portDown p.val) else .next s

/-! ## Training (R352, R383, R384) -/

/-- Whether a link may train: enabled, of a known reach, and a member of a logical port (R383), with `LINK_REFCLK`
present (R609) and no trip (R606). -/
def State.linkEnabled (s : State) (l : Nat) : Bool :=
  let c := s.pr .lnk l 0x40
  !s.clk.lost.getLsbD 2 && !s.pwr.trip && c.getLsbD 31 && c.extractLsb' 29 2 != 0 && (s.lportOf l).isSome

/-- A link enters PHY_TRAIN, and forgets its peer. -/
def State.trainFrom (s : State) (l : Nat) (epoch : Bool) : State :=
  s.setLink l { s.link l with
    st := 1, since := s.sys.time, ident := none, identSent := none, epochTrain := epoch, fails := 0, replay := none }

/-- A link whose retrain after DOWN is due (R383). -/
def State.autoDue (s : State) (l : Nat) : Bool :=
  (s.link l).st == 6 && (s.pr .lnk l 0x40).getLsbD 28 && decide (1000000 ≤ (s.sys.time - (s.link l).since).toNat)

/-- LINK_TRAIN_START (R383): from DISABLED, from DOWN when its retrain is due, or from QUARANTINED once an epoch change
has come. -/
def execLinkTrainStart (l : Fin 16) (s : State) : Out :=
  let x := s.link l.val
  if !s.linkEnabled l.val then .next s
  else if x.st = 0 then .next (s.trainFrom l.val x.epochTrain)
  else if x.st = 7 ∧ x.epochTrain then .next (s.trainFrom l.val true)
  else if s.autoDue l.val then .next (s.trainFrom l.val false)
  else .next s

/-- DOWN_RETRAIN (R383): 1 ms after DOWN, with AUTO_RETRAIN set. -/
def execDownRetrain (l : Fin 16) (s : State) : Out :=
  .next (if s.linkEnabled l.val && s.autoDue l.val then s.trainFrom l.val false else s)

/-- PHY_TRAIN_DONE (R352, R383). -/
def execPhyTrainDone (l : Fin 16) (s : State) : Out :=
  let x := s.link l.val
  .next (if x.st = 1 then s.setLink l.val { x with st := 2, since := s.sys.time } else s)

/-- Enter FLIT_SYNC and send TRAIN (R358, R383). -/
def State.flitSync (s : State) (l : Nat) : State :=
  let s := s.setLink l { s.link l with st := 3, since := s.sys.time }
  match s.lportOf l with
  | some p =>
    let ms := s.membersOf p
    s.sendControl l [2, BitVec.ofNat 8 (s.dirOf p), BitVec.ofNat 8 ms.length, BitVec.ofNat 8 (ms.takeWhile (· ≠ l)).length]
  | none => s

/-- FEC_LOCK (R383). -/
def execFecLock (l : Fin 16) (s : State) : Out :=
  .next (if (s.link l.val).st = 2 then s.flitSync l.val else s)

/-- A TRAIN message of the sender's epoch (R383): with the epochs equal, the link enters QUINCE. -/
def State.takeTrain (s : State) (l : Nat) (epoch : BitVec 8) : State :=
  let x := s.link l
  if x.st = 3 ∧ epoch = s.epoch then
    s.setLink l { x with st := 4, since := s.sys.time, quinceAt := s.sys.time, ident := none, identSent := none }
  else s

/-- TRAIN. -/
def execTrain (l : Fin 16) (epoch : BitVec 8) (s : State) : Out := .next (s.takeTrain l.val epoch)

/-- LNK_RETRAIN (R383, R392): a write of LNK.CTRL; a link that RETRAIN does not move is in the wrong state.
DEDUCED: assumption 93. -/
def execLnkRetrain (f : Fn) (l : Fin 16) (v : Word) (s : State) : Out :=
  match s.openAt f ⟨.lnk, l.val⟩ 0x94 v with
  | .error s => .next s
  | .ok t =>
    if !v.getLsbD 0 then .next s
    else if ((s.link l.val).st = 6 ∨ (s.link l.val).st = 7) ∧ s.linkEnabled l.val then .next (s.trainFrom l.val false)
    else .next (s.rejectState f t)

/-! ## Quince (R380–R382) -/

/-- The message bytes of an IDENT (R358). -/
def State.identBytes (s : State) (l : Nat) : List Byte :=
  [3] ++ leBytes 8 s.fuse.serial.toNat ++ leBytes 2 s.selfPhys.toNat ++ [BitVec.ofNat 8 l] ++
  leBytes 2 s.selfLogical.toNat ++ [BitVec.ofNat 8 (((s.lportOf l).map s.dirOf).getD 0)]

/-- IDENT_SEND_TIMER (R380): every 10 µs, until 10 µs after the peer's IDENT. -/
def execIdentSendTimer (l : Fin 16) (s : State) : Out :=
  let x := s.link l.val
  let due : Bool := match x.identSent with
    | some t => decide (10000 ≤ (s.sys.time - t).toNat)
    | none => true
  let stop : Bool := match x.ident with
    | some i => decide (10000 ≤ (s.sys.time - i.at_).toNat)
    | none => false
  .next (if x.st = 4 ∧ due ∧ !stop then
    (s.setLink l.val { x with identSent := some s.sys.time }).sendControl l.val (s.identBytes l.val)
  else s)

/-- A link's identity of the current epoch. -/
def State.identNow (s : State) (l : Nat) : Option Ident := (s.link l).ident.filter fun i => i.epoch == s.epoch

/-- Whether an identity matches the expectation of link `l` in full, and in all but the port (R381). -/
def State.expectDevice (s : State) (l : Nat) (i : Ident) : Bool :=
  let e := s.pr .lnk l 0x58
  e.getLsbD 31 && e.extractLsb' 16 14 == i.phys && (!e.getLsbD 30 || s.pr64 .lnk l 0x5C == i.serial)

def State.expects (s : State) (l : Nat) (i : Ident) : Bool :=
  s.expectDevice l i && (s.pr .lnk l 0x58).extractLsb' 0 4 == i.port

/-- A link's verdict (R381): the result, and the link that OTHER names. -/
def State.verdictOf (s : State) (l : Nat) : BitVec 4 × BitVec 4 :=
  match s.identNow l with
  | none => (1, 0)
  | some i =>
    if i.serial = s.fuse.serial then (2, 0)
    else if !(s.pr .lnk l 0x58).getLsbD 31 then (3, 0)
    else if s.expects l i then (0, 0)
    else
      match (List.range 16).find? fun m => m ≠ l && s.expects m i with
      | some m =>
        let back : Bool := match s.identNow m with
          | some j => s.expects l j
          | none => false
        (if back then 4 else 5, BitVec.ofNat 4 m)
      | none => if s.expectDevice l i then (6, 0) else (7, 0)

/-- Judge a link (R381, R382): OK makes it ACTIVE at the epoch change that brought it up, else STANDBY; any other verdict
quarantines it. DESIGN CHOICE: assumption 94. -/
def State.judge (s : State) (l : Nat) : State :=
  let v := s.verdictOf l
  let x := s.link l
  let x := { x with result := v.1, other := v.2, since := s.sys.time, epochTrain := false }
  if v.1 ≠ 0 then
    ((s.setLink l { x with st := 7 }).raise .lnk l 2).record { linkRec l with cause := v.1.zeroExtend 32 }
  else if !(s.link l).epochTrain then s.setLink l { x with st := 8 }
  else
    let s := s.setLink l { x with
      st := 5, spent := [], owed := [], buf := [], held := [], replay := none, fails := 0, lastGood := 0xFFF
      discard := false, ackAt := s.sys.time }
    let s := s.raise .lnk l 1
    match s.lportOf l with
    | some p => (if (s.port p).st = 0 then s.setPort p { s.port p with st := 1 } else s).drainPort p
    | none => s

/-- Whether every enabled link of the device that has entered QUINCE in the current epoch holds an identity (R380). -/
def State.identsHeld (s : State) : Bool :=
  (List.range 16).all fun l =>
    let x := s.link l
    !(s.linkEnabled l) || !(x.st == 4 || x.st == 5 || x.st == 8 || x.st == 7 && !x.epochTrain) || (s.identNow l).isSome

/-- QUINCE_JUDGE (R380). -/
def execQuinceJudge (l : Fin 16) (s : State) : Out :=
  let x := s.link l.val
  .next (if x.st = 4 ∧ (1000000 ≤ (s.sys.time - x.quinceAt).toNat ∨ s.identsHeld) then s.judge l.val else s)

/-- An IDENT (R380, R381): the identity is kept, and a link reported as misplaced with this one is judged again within
its 1 ms. -/
def State.takeIdent (s : State) (l : Nat) (serial : BitVec 64) (phys : BitVec 14) (port : BitVec 4) (logical : BitVec 14)
    (dir : BitVec 3) : State :=
  let x := s.link l
  if [4, 5, 7, 8].contains x.st then
    let s := s.setLink l { x with ident := some ⟨serial, phys, port, logical, dir, s.epoch, s.sys.time⟩ }
    (List.range 16).foldl (fun s m =>
      let y := s.link m
      if y.st = 7 ∧ y.result = 5 ∧ y.other.toNat = l ∧ (s.sys.time - y.quinceAt).toNat < 1000000 then
        let v := s.verdictOf m
        s.setLink m { y with result := v.1, other := v.2 }
      else s) s
  else s

/-- IDENT. -/
def execIdent (l : Fin 16) (serial : BitVec 64) (phys : BitVec 14) (port : BitVec 4) (logical : BitVec 14)
    (dir : BitVec 3) (s : State) : Out := .next (s.takeIdent l.val serial phys port logical dir)

/-! ## Floods received (R391) -/

/-- Forward a flood heard on link `l`, unless it is a repeat; the flag says that it is new. DEDUCED: assumption 21. -/
def State.hearFlood (s : State) (l : Nat) (kind : Byte) (origin : BitVec 14) (ident : BitVec 16) (step : BitVec 64) :
    Bool × State :=
  if s.floodSeen origin ident then (false, s)
  else (true, (s.floodNote origin ident).floodOut (s.lportOf l) (floodBytes kind origin ident step))

/-- A reset flood (R391): forwarded, and then a warm reset where RESET_EN allows it. -/
def State.takeFloodReset (s : State) (l : Nat) (origin : BitVec 14) (ident : BitVec 16) (step : BitVec 64) : State :=
  let r := s.hearFlood l 1 origin ident step
  if r.1 && (s.pr .route 0 0x5C).getLsbD 31 && r.2.warmable then r.2.warmBegin .flood else r.2

/-- A job-fault flood (R391): forwarded, and raised where the device is in stage mode at the same step. -/
def State.takeFloodJob (s : State) (l : Nat) (origin : BitVec 14) (ident : BitVec 16) (step : BitVec 64) : State :=
  let r := s.hearFlood l 2 origin ident step
  if r.1 && s.sys.stageMode && step == s.stepNo then r.2.jobCause 6 0xFFF true else r.2

/-- FLOOD_RESET. -/
def execFloodReset (l : Fin 16) (origin : BitVec 14) (ident : BitVec 16) (step : BitVec 64) (s : State) : Out :=
  .next (s.takeFloodReset l.val origin ident step)

/-- FLOOD_JOB_FAULT. -/
def execFloodJobFault (l : Fin 16) (origin : BitVec 14) (ident : BitVec 16) (step : BitVec 64) (s : State) : Out :=
  .next (s.takeFloodJob l.val origin ident step)

/-! ## Flits received (R355–R358, R367, R368) -/

/-- Deliver held flits in sequence order across the members of a logical port (R355). -/
def State.deliverFlits (s : State) (p : Nat) : Nat → State
  | 0 => s
  | fuel + 1 =>
    let x := s.port p
    let want := (x.delivered.getD 0xFFF) + 1
    match (s.membersOf p).find? fun l => ((s.link l).held.head?.map (·.seq)) == some want with
    | none => s
    | some l =>
      let y := s.link l
      match y.held with
      | [] => s
      | f :: fs =>
        let s := s.setLink l { y with held := fs }
        let s := s.setPort p { s.port p with delivered := some want, ackDue := true }
        State.deliverFlits (s.pushRx p f.vc [f]) p fuel

/-- A good DATA flit on an ACTIVE member (R368, R386). -/
def State.takeData (s : State) (l p : Nat) (f : Flit) : State :=
  let h := f.header
  let x := s.link l
  if hdrEpoch h ≠ s.epoch then s.bump .lnk l 0x8C
  else if x.discard && !hdrRpl h then s
  else
    let last := (s.port p).delivered.getD 0xFFF
    let dup := !seqAfter (hdrSeq h) last || x.held.any fun y => y.seq == hdrSeq h
    let s := s.setLink l { x with discard := false, lastGood := hdrSeq h }
    if dup then s.setPort p { s.port p with ackDue := true }
    else
      let y := s.link l
      let rx : RxFlit := ⟨hdrSeq h, hdrVc h, hdrSop h, hdrEop h, f.body, Fin.ofNat 16 l, true, false⟩
      let s := (s.setLink l { y with held := y.held ++ [rx] }).bump64 .lnk l 0x6C 1
      s.deliverFlits p 2048

/-- A CONTROL flit's message (R358). -/
def State.takeControl (s : State) (l : Nat) (f : Flit) : State :=
  let b (i : Nat) : Byte := f.body.getD i 0
  let w (i n : Nat) : Nat := leAt f.body i n
  match (b 0).toNat with
  | 1 => s.takeNak l (BitVec.ofNat 12 (w 2 2))
  | 2 => s.takeTrain l (hdrEpoch f.header)
  | 3 => s.takeIdent l (BitVec.ofNat 64 (w 1 8)) (BitVec.ofNat 14 (w 9 2)) (BitVec.ofNat 4 (b 11).toNat)
      (BitVec.ofNat 14 (w 12 2)) (BitVec.ofNat 3 (b 14).toNat)
  | 4 =>
    if b 1 = 0 then s.takeResync l
    else s.takeResyncReply l (if (b 4).getLsbD 0 then none else some (BitVec.ofNat 12 (w 2 2)))
  | _ =>
    let origin := BitVec.ofNat 14 (w 2 2)
    let ident := BitVec.ofNat 16 (w 4 2)
    let step := BitVec.ofNat 64 (w 6 8)
    if b 1 = 1 then s.takeFloodReset l origin ident step else s.takeFloodJob l origin ident step

/-- A bad flit (R357, R368): counted, and on an ACTIVE member answered with one NAK. -/
def State.takeBad (s : State) (l : Nat) (fec : Bool) : State :=
  let s := s.bump .lnk l 0x7C
  let s := if fec then s.bump .lnk l 0x78 else s
  let x := s.link l
  if x.st = 5 ∧ !x.discard then
    (s.setLink l { x with discard := true }).sendControl l ([1, 0] ++ leBytes 2 x.lastGood.toNat)
  else s

/-- The acknowledgement and the credits that a good flit of the epoch in force carries (R365, R367). -/
def State.takeHeader (s : State) (l p : Nat) (h : BitVec 64) : State :=
  let s := if hdrAckv h then s.takeAck p (hdrAck h) else s
  let x := s.link l
  let vc := (hdrCrVc h).toNat
  s.setLink l { x with spent := x.spent.put 0 vc (x.spent.get 0 vc - (hdrCrCount h).toNat) }

/-- FLIT_RECEIVE (R355–R368, R386): `fecCorr` counts the codewords corrected since the last flit, and `fecBad` says
that the flit overlaps an uncorrectable one. DEDUCED: assumption 91. -/
def execFlitReceive (l : Fin 16) (f : Flit) (fecCorr : Nat) (fecBad : Bool) (s : State) : Out :=
  let st := (s.link l.val).st
  let s := if [3, 4, 5, 7, 8].contains st then s.bump .lnk l.val 0x74 fecCorr else s
  if !([3, 4, 5, 7, 8].contains st) then .next s
  else if fecBad ∨ f.crc ≠ flitCrc f.header f.body ∨ !flitLegal f then .next (s.takeBad l.val fecBad)
  else match s.lportOf l.val with
    | none => .next s
    | some p =>
      let h := f.header
      let s := if st = 5 ∧ hdrEpoch h = s.epoch then s.takeHeader l.val p h else s
      let s := if hdrKind h = 2 then s.takeControl l.val f
        else if hdrKind h = 1 ∧ st = 5 then s.takeData l.val p f
        else s
      let s := s.drainPort p
      .next (if (s.link l.val).st = 5 then s.sendIdle l.val else s)

/-! ## Forced resets (R268–R270) -/

/-- QUEUE_PTR_MISMATCH (R268, R270): an instance that keeps its pointers twice is reset, with the consequence of R270.
DEDUCED: assumption 58. -/
def execQueuePtrMismatch (q : QInst) (s : State) : Out :=
  if !q.duplicated then .next s
  else
    let sev := match q with
      | .replay _ => sevDevice
      | _ => sevContained
    let s := s.record { ErrRec.mk0 0x09 sev (srcOf 4 2) with detail := BitVec.ofNat 256 q.num }
    let s := s.queReset q
    match q with
    | .slot n =>
      .next ((s.bump .slot n.val 0x54).dropHalves (n.val / 2) fun r => s.isHot r.part r.queue == (n.val % 2 == 0))
    | .replay n => .next (if (s.link n.val).st = 5 then s.linkDown n.val else s)
    | .ledger => .next (s.jobCause 2)
    | .coll n => .next (s.collTear (n.val / 2))
    | _ => .next s

/-! ## Epoch changes (R385) -/

/-- Whether the logical ports as staged share no direction and no member (R385). -/
def State.portsDisjoint (s : State) : Bool :=
  let cs := ((List.range 6).map fun p => s.nextVal (rk .port p 0x40)).filter fun c => c.getLsbD 31
  (List.range cs.length).all fun i => (List.range cs.length).all fun j =>
    decide (j ≤ i) ||
      (let a := cs.getD i 0
       let b := cs.getD j 0
       a.extractLsb' 28 3 != b.extractLsb' 28 3 && (a.extractLsb' 0 16 &&& b.extractLsb' 0 16) == 0)

/-- The epoch that the staged ROUTE page asks for. -/
def State.epochNext (s : State) : BitVec 8 := (s.nextVal (rk .route 0 0x48)).extractLsb' 8 8

/-- Whether an epoch change may start (R385). -/
def State.epochOk (s : State) : Bool :=
  s.epochNext != 0 && s.epochNext != s.epoch && s.portsDisjoint &&
  (!s.sys.stageMode || s.stg.st == 1 || s.stg.st == 5)

/-- An epoch change starts (R385 steps 1 and 2): sources are held, and every logical port resynchronises. -/
def State.epochStart (s : State) : State :=
  (List.range 6).foldl (fun s p => if (s.port p).st = 1 then s.resync p else s) s

/-- Whether every logical port has resynchronised or gone down. -/
def State.epochReady (s : State) : Bool := (List.range 6).all fun p => (s.port p).st != 2

/-- A link at an epoch change (R385 step 5): a member that is ACTIVE or STANDBY re-enters FLIT_SYNC, one that is
QUARANTINED may train again, and a link that is no enabled member is DISABLED. DEDUCED: assumption 93. -/
def State.epochLink (s : State) (l : Nat) : State :=
  let x := s.link l
  let x := { x with
    replay := none, fails := 0, buf := [], held := [], spent := [], owed := [], discard := false, lastGood := 0xFFF
    ident := none, identSent := none }
  if !s.linkEnabled l then s.setLink l { x with st := 0, epochTrain := false }
  else
    let s := s.setLink l { x with epochTrain := decide (x.st ≠ 6) }
    if x.st = 5 ∨ x.st = 8 then s.flitSync l else s

/-- The staged LNK and PORT fields and the coordinate map take effect. -/
def State.epochFields (s : State) : State :=
  let s := (List.range 6).foldl (fun s p => (s.safePoint ⟨.port, p⟩ 1).applyStaged ⟨.port, p⟩ 1) s
  let s := (List.range 16).foldl (fun s l => s.applyStaged ⟨.lnk, l⟩ 1) s
  let map := s.lk.mapStaged.foldl (fun m e => match e.2 with
    | some v => m.put 0 e.1 v
    | none => m) s.lk.map
  { s with lk := { s.lk with map := map, mapStaged := [] } }

/-- The epoch change takes effect (R385 steps 3–5). A flit already delivered is read without returning a credit, since
every credit restarts. DEDUCED: assumption 93. -/
def State.epochApply (s : State) : State :=
  let n := s.epochNext
  let s := (s.stage (rk .route 0 0x50) none).settleGroup ⟨.route, 0⟩ 1 true
  let s := s.epochFields
  let s := s.setPr .route 0 0x48 (n.zeroExtend 32 ||| (n.zeroExtend 32 <<< 8))
  let s := (List.range 6).foldl (fun s p =>
    let x := s.port p
    let rx := x.rx.map fun e => (e.1, e.2.map fun f => { f with credit := false })
    s.setPort p { x with st := 0, next := 0, acked := 0, delivered := none, ackDue := false, rx := rx }) s
  let s := (List.range 16).foldl State.epochLink s
  (s.bump .route 0 0x168).raise .route 0 1

end Sys2Proof.Machine
end

