-- ==== Sys2Proof/Machine/Part.lean ====
section
/-! DEFINITION. Partitions (R500–R537): configuring, resetting, cluster operations, bandwidth regulators, contexts
and the ingest ring. -/

namespace Sys2Proof.Machine

/-! ## Regulators (R507–R513, R655) -/

/-- The capacity C of each resource in units of 0.125 GB/s: NOC, CEL, LNK, HOST, FETCH. -/
def regCapacity (r : Nat) : Nat := [262144, 19200, 3200, 512, 512].getD r 0

/-- BURST in bytes (R508). -/
def State.regBurst (s : State) (p r : Nat) : Nat :=
  let n := (s.pr .budget p (0x40 + 4 * r)).toNat % 4096
  (if n = 0 then 16 else n) * 1024

/-- The effective RATE in units of 0.125 GB/s (R508, R655). -/
def State.regRate (s : State) (p r : Nat) : Nat :=
  let n := (s.pr .budget p (0x40 + 4 * r)).toNat / 4096
  if n = 0 then regCapacity r * (s.partOf p).share / 64 else n

/-- Set every token count of a partition to BURST (R655). -/
def State.fillTokens (s : State) (p : Nat) : State :=
  [0, 1, 2, 3, 4].foldl (fun s r =>
    { s with parts := { s.parts with tokens := s.parts.tokens.put 0 (p * 5 + r) (s.regBurst p r : Int) } }) s

/-- A cluster operation that concerns a partition is in progress. -/
def State.moving (s : State) (p : Nat) : Bool :=
  s.parts.part.any fun e => match e.2.cluOp with
    | some o => e.1 == p || (o.op == 3 && o.expPart.val == p)
    | none => false

/-- The refill of one regulator over `n` µs: clip to BURST, then add (R508, R512). DEDUCED: assumption 110. -/
def State.refillOne (s : State) (p r n : Nat) : State :=
  let b : Int := s.regBurst p r
  let t := min (s.parts.tokens.get 0 (p * 5 + r)) b
  { s with parts := { s.parts with
      tokens := s.parts.tokens.put 0 (p * 5 + r) (min (t + (n * s.regRate p r * 125 : Nat)) b) } }

/-- Recompute the OVERSUB bits (R511); a bit that rises interrupts through every BUDGET page (R642). -/
def State.evalOversub (s : State) : State :=
  let act := (List.range 64).filter fun p => (s.partOf p).st == .active
  let bits : BitVec 5 := [0, 1, 2, 3, 4].foldl (fun m r =>
    if regCapacity r < (act.map fun p => s.regRate p r).foldl (· + ·) 0 then m ||| (1#5 <<< r) else m) 0
  let rose := bits &&& ~~~s.parts.oversub
  let s := { s with parts := { s.parts with oversub := bits } }
  if rose = 0 then s else (List.range 64).foldl (fun s p => s.raise .budget p 1) s

/-! ## The ingest ring (R526–R528) -/

def State.ingestCfg (s : State) (p : Nat) : Word := s.pr .part p 0xD0
def State.ingestHandle (s : State) (p : Nat) : Handle := s.handleOf p ((s.ingestCfg p).toNat % 4096)

/-- Words of accepted posts that have not landed. -/
def State.unlanded (s : State) (p : Nat) : Nat := ((s.partOf p).posts.map fun x => x.words - x.landed).foldl (· + ·) 0

/-- Draw the HOST regulator for the requests of a word: each of 512 B starts only while T > 0 (R508).
DESIGN CHOICE: assumption 111. -/
def State.payWord (s : State) (p paid : Nat) : Nat → State × Nat
  | 0 => (s, paid)
  | fuel + 1 =>
    if paid < 8 ∧ s.hasTokens p 3 then State.payWord (s.charge p 3 512) p (paid + 1) fuel else (s, paid)

/-- Ask the host for the next word of the oldest post, once its requests may start. A function that may issue no
request (R572) makes the word a failed one. DEDUCED: assumption 110. -/
def State.ingestStart (s : State) (p : Nat) : State :=
  match (s.partOf p).posts with
  | [] => s
  | x :: rest =>
    if x.asked then s
    else
      let (s, paid) := s.payWord p x.paid 8
      let pt := s.partOf p
      if paid < 8 then s.setPart p { pt with posts := { x with paid := paid } :: rest }
      else if s.mayRequest (fnOf p) then
        let f := Fin.ofNat 65 (fnOf p)
        let id := s.host.nextRead
        let a := x.addr.toNat + 4096 * x.landed
        let s := s.setPart p { pt with posts := { x with paid := 8, asked := true } :: rest }
        { s with host := { s.host with
            nextRead := id + 1
            reads := s.host.reads ++ [HostRead.mk id f none (.ingest (Fin.ofNat 64 p)) [(a, 4096)]] } }.emit
          (.read f id (BitVec.ofNat 64 a) 4096)
      else
        (s.setPart p { pt with
          posts := { x with paid := 8, asked := true } :: rest
          arrived := some (List.replicate 4096 0, true) }).logAer (Fin.ofNat 65 (fnOf p)) 0x001B

/-- REGULATOR_REFILL (R508, R512): staged budgets first, then the clip and the refill of every regulator, then what
waited for tokens starts. DEDUCED: assumption 110. -/
def execRegulatorRefill (s : State) : Out :=
  let now := s.sys.time.toNat / 1000
  if now = s.parts.refill then .next s
  else
    let n := if s.parts.refill < now then now - s.parts.refill else 1
    let s := { s with parts := { s.parts with refill := now } }
    let s := (List.range 64).foldl (fun s p =>
      let s := s.safePoints ⟨.budget, p⟩
      if s.configured p then
        let s := if s.moving p then s else s.setPart p { s.partOf p with share := (s.clustersOf p).length }
        [0, 1, 2, 3, 4].foldl (fun s r => s.refillOne p r n) s
      else s) s
    let s := s.evalOversub
    .next ((List.range 64).foldl (fun s p =>
      if s.configured p then (List.range 16).foldl (fun s q => s.completions p q) (s.ingestStart p) else s) s)

/-- A post's fields (R535). -/
def postWords (v : Word) : Nat := v.toNat % 8192 + 1
def postHandle (v : Word) : Nat := (v.extractLsb' 20 12).toNat

/-- INGEST_POST (R527): a write of PART.INGEST_POST_HI commits the held low half with it.
DESIGN CHOICE: assumption 111. -/
def execIngestPost (f : Fn) (p : Fin 64) (v : Word) (s : State) : Out :=
  match s.openAt f ⟨.part, p.val⟩ 0xDC v with
  | .error s => .next s
  | .ok t =>
    match s.wbufOf f t.page with
    | none => .next (s.rejectState f t)
    | some lo =>
      if lo.offset ≠ 0xD8 then .next (s.rejectState f t)
      else
        let s := s.setWbuf f t.page none
        let h := s.handleOf p.val (postHandle v)
        let n := postWords v
        let off := lo.value.toNat * 4096
        let ok := (s.ingestCfg p.val).getLsbD 31 && h.v && h.kind == 2 && h.rd && h.covers off (n * 4096) &&
          decide (n + s.unlanded p.val ≤ s.credits (.ingest p))
        if ok then
          let addr := BitVec.ofNat 64 ((h.dev.toNat + off) % 2 ^ 63)
          let pt := s.partOf p.val
          let s := s.setPart p.val { pt with posts := pt.posts ++ [Post.mk addr n 0 0 false] }
          .next ((s.bump .part p.val 0xE0).ingestStart p.val)
        else .next ((s.rejectState f t).bump .part p.val 0xE4)

/-- Poison every ECC word of a range of the scratchpad. -/
def State.poisonPad (s : State) (a n : Nat) : State :=
  { s with pad := { s.pad with poison := (wordsOf a n).foldl (fun m w => m.put false w true) s.pad.poison } }

/-- Land a word in the ring: at the ring's write position, as zeros with poison where its read failed. A ring bank
that the partition has given up takes nothing, and the word is poisoned. DESIGN CHOICE: assumption 111. -/
def State.landWord (s : State) (p : Nat) (data : List Byte) (bad eoi : Bool) : State :=
  let q := QInst.ingest (Fin.ofNat 64 p)
  let h := s.ingestHandle p
  let a := h.dev.toNat + (s.que1 q).w % s.depth q * 4096
  let (s, bad) := match (if h.v && h.kind == 0 then s.partWrite p 0 a data else none) with
    | some s => (if bad then s.poisonPad a 4096 else s, bad)
    | none => (s.scopeNote p a data.length, true)
  s.queWrite q data eoi bad

/-- The arrival increment of a landed frame (R527); one whose VID maps nothing is dropped and counted.
DESIGN CHOICE: assumption 111. -/
def State.arrVid (s : State) (p : Nat) : State :=
  match s.vid p ((s.pr .part p 0xD4).extractLsb' 16 12).toNat with
  | some (c, n) =>
    { s with pad := { s.pad with
        incs := s.pad.incs ++ [IncMsg.mk s.pad.nextId p c n 1], nextId := s.pad.nextId + 1 } }
  | none => s.bump .part p 0x4B0

/-- INGEST_LANDED (R527, R528): the word that has arrived lands; with a post's EOI word the increment leaves.
DESIGN CHOICE: assumption 111. -/
def execIngestLanded (p : Fin 64) (s : State) : Out :=
  let pt := s.partOf p.val
  match pt.posts, pt.arrived with
  | x :: rest, some (data, bad) =>
    let fin := decide (x.words ≤ x.landed + 1)
    let s := s.landWord p.val data bad fin
    let pt := s.partOf p.val
    let s := if fin then
        (s.setPart p.val { pt with posts := rest, arrived := none, items := pt.items ++ [x.words] }).arrVid p.val
      else
        s.setPart p.val { pt with
          posts := { x with landed := x.landed + 1, paid := 0, asked := false } :: rest, arrived := none }
    .next ((s.ingestRelease p.val (s.partOf p.val).items.length).ingestStart p.val)
  | _, _ => .next s

/-! ## Clearing a partition and a cluster (R79, R278, R495, R530, R535) -/

/-- The counters of the cluster's pages that R79 clears, the cluster's counters and its sync block. -/
def State.clearCluster (s : State) (c : Nat) : State :=
  let s := [(0x200, 0x250), (0x310, 0x350), (0x400, 0x410), (0x500, 0x534)].foldl
    (fun s x => s.clearRegs .clu c x.1 x.2) s
  let s := ((s.clearRegs .mov c 0x60 0x90).clearRegs .vec c 0x40 0x5C).clearRegs .sync c 0x44 0x5C
  { s with syn := { s.syn with
      count := s.syn.count.keep fun k _ => k / 256 ≠ c
      late := s.syn.late.keep fun k _ => k / 256 ≠ c
      input := s.syn.input.keep fun k _ => k ≠ c } }

/-- The counters of the PART and BUDGET pages (R535, R536). -/
def State.clearPartCounters (s : State) (p : Nat) : State :=
  let s := [(0x05C, 0x060), (0x080, 0x090), (0x0A0, 0x0C8), (0x0E0, 0x0E8), (0x300, 0x318), (0x380, 0x3A0),
    (0x3C8, 0x3E0), (0x404, 0x420), (0x440, 0x458), (0x498, 0x4B4), (0x4C0, 0x4D8), (0x500, 0x514)].foldl
    (fun s x => s.clearRegs .part p x.1 x.2) s
  s.clearRegs .budget p 0x060 0x088

/-- A request made for a partition. -/
def reqForPart (q : NocReq) (p : Nat) : Bool :=
  q.owner.part?.map Fin.val == some p || (q.ref.map fun r => r.part.val == p).getD false

/-- What a partition's commands hold in the engines and in the front end goes; its queues are FREE (R495, R530). -/
def State.dropCommands (s : State) (p : Nat) : State :=
  let mine (r : RecRef) : Bool := r.part.val == p
  let s := s.abortEngines mine
  let gone := (List.range 16).filterMap fun q =>
    let x := s.queueOf p q
    if x.st = .free then none else some x.gid.toNat
  let slots := [slotOf p true * 2, slotOf p true * 2 + 1, slotOf p false * 2, slotOf p false * 2 + 1]
  { s with
    fe := { s.fe with
      queues := s.fe.queues.keep fun k _ => k / 16 ≠ p
      handles := s.fe.handles.keep fun k _ => k / 4096 ≠ p
      uses := s.fe.uses.keep fun k _ => k / 4096 ≠ p
      halves := s.fe.halves.keep fun k _ => !slots.contains k
      lastQueue := s.fe.lastQueue.keep fun k _ => k ≠ slotOf p true && k ≠ slotOf p false
      flights := s.fe.flights.filter fun f => f.lrec.part ≠ p
      gids := gone.foldl (fun m g => m.put false g false) s.fe.gids
      faultAreas := s.fe.faultAreas.keep fun k _ => k ≠ p }
    gang := { s.gang with
      running := s.gang.running.keep fun k _ => k ≠ p
      parked := s.gang.parked.keep fun k _ => k ≠ p }
    pad := { s.pad with
      held := s.pad.held.filter fun h => !reqForPart h.req p
      retries := s.pad.retries.filter fun h => !reqForPart h.req p
      tagHeld := s.pad.tagHeld.filter fun h => !reqForPart h.req p
      tagBusy := s.pad.tagBusy.filter fun h => !reqForPart h.req p
      incs := s.pad.incs.filter fun m => m.part ≠ p }
    cel := { s.cel with misses := s.cel.misses.filter fun m => m.part.val ≠ p || (s.chanOf m.chan.val).isSome }
    host := { s.host with reads := s.host.reads.filter fun r => match r.purpose with
      | .ingest x => x.val ≠ p
      | _ => true } }

/-- The partition's translation table is emptied, its sync blocks and Bramble start again, its contexts are FREE but
for context 0, which owns every queue and runs (R501, R530). -/
def State.freshTables (s : State) (p : Nat) : State :=
  let s := { s with
    syn := { s.syn with
      vmap := s.syn.vmap.keep fun k _ => k / 4096 ≠ p
      bramble := s.syn.bramble.keep fun k _ => k ≠ p }
    parts := { s.parts with ctx := s.parts.ctx.keep fun k _ => k / 16 ≠ p } }
  s.setCtx p 0 { Ctx.init 0 with st := .running }

/-- The ring's content and posts go; its configuration stays (R276). -/
def State.dropIngest (s : State) (p : Nat) : State :=
  let s := s.queClear (.ingest (Fin.ofNat 64 p))
  s.setPart p { s.partOf p with posts := [], items := [], released := 0, arrived := none }

/-- Give a key slot a new key (R219). DEDUCED: assumption 49. -/
def State.newKey (s : State) (slot : Nat) : State :=
  { s with cel := { s.cel with keys := s.cel.keys.put 0 slot s.cel.nextKey, nextKey := s.cel.nextKey + 1 } }

/-! ## Forming a partition (R501, R502, R569) -/

/-- CONFIGURE: a FREE partition whose function exists becomes ACTIVE. -/
def State.partConfigure (s : State) (f : Fn) (t : Target) (p : Nat) : State :=
  if (s.partOf p).st ≠ .free || !s.fnExists (p + 1) then s.rejectState f t
  else
    let s := ((s.newKey p).dropCommands p).freshTables p
    let s := { s with cel := { s.cel with
      pte := s.cel.pte.keep fun k _ => k / 32768 ≠ p, unmapping := s.cel.unmapping.keep fun k _ => k / 32768 ≠ p } }
    let s := s.setPart p { Part.init with st := .active, quantumEnd := s.sys.time + 100000 }
    s.fillTokens p

/-- A collective context is bound to a partition (R397). -/
def State.collBound (s : State) (p : Nat) : Bool := (List.range 16).any fun n => s.ctxOn n && s.ctxPart n == p

/-- UNCONFIGURE: an empty ACTIVE partition becomes FREE, and its key is destroyed. -/
def State.partUnconfigure (s : State) (f : Fn) (t : Target) (p : Nat) : State :=
  if (s.partOf p).st ≠ .active || !(s.clustersOf p).isEmpty || decide (s.banksOwned p ≠ 0) ||
      decide (s.pagesMapped p ≠ 0) || s.collBound p || s.moving p then s.rejectState f t
  else
    let s := (((s.dropCommands p).dropIngest p).freshTables p).setCtx p 0 (Ctx.init 0)
    let s := { s with cel := { s.cel with keys := s.cel.keys.put 0 p 0 } }
    s.setPart p Part.init

/-- PART_CONFIGURE (R501): a write of PART.CTRL. -/
def execPartConfigure (f : Fn) (p : Fin 64) (s : State) : Out :=
  match s.openAt f ⟨.part, p.val⟩ 0x08 4 with
  | .error s => .next s
  | .ok t => .next (s.partConfigure f t p.val)

/-- PART_UNCONFIGURE (R502): a write of PART.CTRL. -/
def execPartUnconfigure (f : Fn) (p : Fin 64) (s : State) : Out :=
  match s.openAt f ⟨.part, p.val⟩ 0x08 2 with
  | .error s => .next s
  | .ok t => .next (s.partUnconfigure f t p.val)

/-! ## Partition reset (R35, R530, R570, R571) -/

/-- In stage mode a reset of partition 0 raises JOB_FAULT first, and abandons a checkpoint in progress (R570, R571).
DEDUCED: assumption 90. -/
def State.jobReset (s : State) (p : Nat) : State :=
  if s.sys.stageMode ∧ p = 0 then
    let s := if s.stg.st = 5 then s
      else s.jobFault (s.stg.pendingFault.getD ⟨1, 0xFFF, s.stg.st == 4, false⟩)
    if s.ckpt.st = 1 then s.ckptFail 0 else s
  else s

/-- Hand every bank of a partition to itself and wipe it (R192). -/
def State.wipeOwn (s : State) (p : Nat) : State :=
  s.pad.bank.keys.foldl (fun s b =>
    let e := s.bankOf b
    if e.owner.map Fin.val == some p && e.st == .settled then s.setBank b { e with st := .wiping, former := none }
    else s) s

/-- Mark every mapped page of a partition SCRUB (R222). -/
def State.scrubAll (s : State) (p : Nat) : State :=
  { s with cel := { s.cel with pte := s.cel.pte.map fun e =>
      (if e.1 / 32768 = p ∧ e.2.getLsbD 63 then (e.1, e.2 ||| (1#64 <<< 59)) else e) } }

/-- The partition reset of a configured partition. DEDUCED: assumption 109. -/
def State.resetPart (s : State) (p : Nat) : State :=
  let s := ((s.jobReset p).dropCommands p).freshTables p
  let s := (s.clustersOf p).foldl State.clearCluster s
  let s := (((s.resetPage .fe p).clearPartCounters p).dropIngest p).newKey p
  let s := ((s.wipeOwn p).scrubAll p).safePoint ⟨.part, p⟩ 1
  let s := s.fillTokens p
  let s := s.setPart p { s.partOf p with
    st := .resetting, clears := 0, releaseBusy := false, runCtx := some 0, quantumEnd := s.sys.time + 100000
    deferred := false, idle := 0, resetDue := false }
  s.finishReset p

/-- A reset request: it merges with a reset in progress, and a cluster operation completes first (R531).
DEDUCED: assumption 109. -/
def State.partReset (s : State) (p : Nat) : State :=
  match (s.partOf p).st with
  | .active => if s.moving p then s.setPart p { s.partOf p with resetDue := true } else s.resetPart p
  | _ => s

/-- PART_RESET (R530): a write of PART.CTRL. DEDUCED: assumption 90. -/
def execPartReset (f : Fn) (p : Fin 64) (s : State) : Out :=
  match s.openAt f ⟨.part, p.val⟩ 0x08 1 with
  | .error s => .next s
  | .ok t => .next (if (s.partOf p.val).st = .free then s.rejectState f t else s.partReset p.val)

/-- Return a function's configuration space and its MSI-X table to reset (R571). DEDUCED: assumption 109. -/
def State.resetFn (s : State) (f : Nat) : State :=
  let s := s.resetPage .msixTable f
  { s with
    host := { s.host with
      config := s.host.config.keep fun k _ => k ≠ f
      msixPending := s.host.msixPending.keep fun k _ => k / 256 ≠ f }
    cel := { s.cel with atc := s.cel.atc.filter fun e => e.1.val ≠ f } }

/-- VF_FLR (R571). DEDUCED: assumptions 90, 109. -/
def execVfFlr (p : Fin 64) (s : State) : Out :=
  if s.fnExists (p.val + 1) && s.sys.phase == 7 && s.sys.warm.isNone && !s.pwr.trip then
    .next ((s.partReset p.val).resetFn (p.val + 1))
  else .next s

/-- VF_ENABLE_CHANGE (R570, R581, R590): VF Enable and NumVFs take new values once READY; a NumVFs above 64 changes
nothing. DESIGN CHOICE: assumption 26. -/
def execVfEnableChange (en : Bool) (n : BitVec 16) (s : State) : Out :=
  if 64 < n.toNat ∨ s.sys.phase ≠ 7 ∨ s.sys.warm.isSome ∨ s.pwr.trip then .next s
  else
    let lost := (List.range 64).filter fun p => s.fnExists (p + 1) && !(en && decide (p + 1 ≤ n.toNat))
    let s := lost.foldl State.partReset s
    let s := lost.foldl (fun s p => s.resetFn (p + 1)) s
    .next { s with host := { s.host with vfEnable := en, numVFs := n } }

/-! ## Cluster operations (R503, R504) -/

/-- The non-hole banks of a cluster. -/
def State.liveBanks (s : State) (c : Nat) : List Nat :=
  ((List.range 1024).map (· + c * 1024)).filter fun b => !s.bankHole b && (s.bankOf b).st ≠ .failed

/-- A partition has a record dispatched and not ended, or a collective in progress. -/
def State.partBusy (s : State) (p : Nat) : Bool :=
  !(s.liveFlights p).isEmpty || ((List.range 16).any fun c => !(s.ctxOf p c).flights.isEmpty) ||
  (s.gangOf p).isSome || (s.parkedOf p).isSome ||
  (List.range 16).any fun n => ((s.cctx n).run.map fun r => r.ref.part.val == p).getD false

/-- PART.CLU_STATUS.ERR of an operation that moves cluster `c` from `src` to `dst` (none: the device), in the order
mode, state, work, banks, counters, quota; 0 where it is accepted. DEDUCED: assumption 108. -/
def State.cluCheck (s : State) (c : Nat) (src dst : Option (Fin 64)) : BitVec 4 :=
  let who := src.toList ++ dst.toList
  if s.sys.stageMode then 5
  else if (who.any fun p => (s.partOf p.val).st ≠ .active) || decide (s.clusterOwner c ≠ src) then 1
  else if who.any fun p => s.moving p.val || s.partBusy p.val then 4
  else
    let banks := s.liveBanks c
    if src.isSome && (banks.any fun b => (s.bankOf b).owner == src ||
        (dst.isNone && (s.bankOf b).owner.isSome)) then 2
    else match src, dst with
      | some p, _ =>
        if s.syn.vmap.any fun e => decide (e.1 / 4096 = p.val) && vmapV e.2 && vmapCluster e.2 == c then 3 else 0
      | none, some p =>
        if (s.pr .part p.val 0x50).toNat % 2 ^ 17 < s.banksOwned p.val + banks.length then 6 else 0
      | none, none => 0

/-- Pass a cluster's banks with a TAKE (R504). -/
def State.takeBanks (s : State) (c : Nat) (p : Fin 64) : State :=
  (s.liveBanks c).foldl (fun s b =>
    let e := s.bankOf b
    s.setBank b { e with owner := some p, st := if e.st = .settled then .wiping else e.st }) s

/-- A cluster command on the page of partition `p`. DEDUCED: assumption 108. -/
def State.cluCmd (s : State) (f : Fn) (t : Target) (p : Fin 64) (op : BitVec 2) (c exp : Fin 64) : State :=
  let src := if op = 1 then none else if op = 2 then some p else some exp
  let dst := if op = 2 then none else some p
  let err := s.cluCheck c.val src dst
  let pt := s.partOf p.val
  if err ≠ 0 then
    (s.setPart p.val { pt with cluErr := err, cluLast := BitVec.ofNat 6 c.val }).rejectState f t
  else
    let s := s.setPart p.val { pt with cluOp := some ⟨op, c, exp⟩, cluErr := 0, cluLast := BitVec.ofNat 6 c.val }
    let s := { s with parts := { s.parts with cluster := s.parts.cluster.put none c.val dst } }
    let s := s.clearCluster c.val
    if op = 1 then s.takeBanks c.val p else s

/-- The word of a cluster command. -/
def cluWord (op : BitVec 2) (c exp : Nat) : Word :=
  (op.zeroExtend 32 <<< 30) ||| (BitVec.ofNat 32 exp <<< 16) ||| BitVec.ofNat 32 c

/-- CLUSTER_TAKE (R503). -/
def execClusterTake (f : Fn) (p c : Fin 64) (s : State) : Out :=
  match s.openAt f ⟨.part, p.val⟩ 0x48 (cluWord 1 c.val 0) with
  | .error s => .next s
  | .ok t => .next (s.cluCmd f t p 1 c 0)

/-- CLUSTER_RETURN (R503). -/
def execClusterReturn (f : Fn) (p c : Fin 64) (s : State) : Out :=
  match s.openAt f ⟨.part, p.val⟩ 0x48 (cluWord 2 c.val 0) with
  | .error s => .next s
  | .ok t => .next (s.cluCmd f t p 2 c 0)

/-- CLUSTER_MOVE (R503). -/
def execClusterMove (f : Fn) (p c exp : Fin 64) (s : State) : Out :=
  match s.openAt f ⟨.part, p.val⟩ 0x48 (cluWord 3 c.val exp.val) with
  | .error s => .next s
  | .ok t => .next (s.cluCmd f t p 3 c exp)

/-- CLUSTER_OP_DONE (R504): a TAKE waits for its wipes; a reset that waited follows (R531). DEDUCED: assumption 108. -/
def execClusterOpDone (p : Fin 64) (s : State) : Out :=
  let pt := s.partOf p.val
  match pt.cluOp with
  | none => .next s
  | some o =>
    if o.op = 1 ∧ s.clusterWipes o.cluster.val then .next s
    else
      let s := (s.setPart p.val { pt with cluOp := none }).raise .part p.val 2
      let who := if o.op = 3 then [p.val, o.expPart.val] else [p.val]
      .next (who.foldl (fun s x => if (s.partOf x).resetDue then s.partReset x else s) s)

/-! ## Contexts (R514–R523) -/

/-- A field of the selected context's register block after a commit: the staged value, or the one in force. -/
def State.ctxNext (s : State) (p c off : Nat) : Word :=
  let x := s.ctxOf p c
  (s.stagedOf (rk .part p off)).getD
    (if off = 0x64 then x.cfg else if off = 0x68 then x.areas else if off = 0x6C then x.set0 else x.set1)

/-- The handles of a save set: SET0 to SET3, those with V = 1. -/
def saveSet (set0 set1 : Word) : List Nat :=
  [set0, set1].flatMap fun w =>
    (if w.getLsbD 15 then [w.toNat % 4096] else []) ++
    (if w.getLsbD 31 then [(w.extractLsb' 16 12).toNat] else [])

/-- Why a register block is refused (R514, R518, R519): 1 queue mask, 2 save area, 3 save set; 0 where it is not.
DEDUCED: assumption 113. -/
def State.ctxCheck (s : State) (p c : Nat) : BitVec 4 :=
  let cfg := s.ctxNext p c 0x64
  let areas := s.ctxNext p c 0x68
  let sets := saveSet (s.ctxNext p c 0x6C) (s.ctxNext p c 0x70)
  let mask := cfg.extractLsb' 16 16
  let others := (List.range 16).filter fun d => d ≠ c && (s.ctxOf p d).st ≠ .free
  let old := if (s.ctxOf p c).st = .free then 0#16 else (s.ctxOf p c).cfg.extractLsb' 16 16
  let changed := mask ^^^ old
  let area := s.handleOf p ((areas.extractLsb' 16 12).toNat)
  let size := ((sets.map fun h => (s.handleOf p h).size.toNat).foldl (· + ·) 0) + 0x80000
  let vpn := area.dev.toNat % 0x1000000000 / 0x200000
  let pages := (area.dev.toNat % 0x1000000000 + area.size.toNat - 1) / 0x200000 - vpn + 1
  if (others.any fun d => (s.ctxOf p d).cfg.extractLsb' 16 16 &&& mask ≠ 0) ||
      ((List.range 16).any fun q => changed.getLsbD q && (s.queueOf p q).st ≠ .free) then 1
  else if !areas.getLsbD 30 && !others.isEmpty then 2
  else if others.any fun d => !(s.ctxOf p d).areas.getLsbD 30 then 2
  else if areas.getLsbD 30 && !(area.v && area.kind == 1 && area.rd && area.wr && decide (size ≤ area.size.toNat) &&
      (List.range pages).all fun i => (s.pteOf p (vpn + i)).getLsbD 63) then 2
  else if sets.any fun h => let e := s.handleOf p h; !(e.v && e.kind == 0 && e.rd && e.wr) then 3
  else 0

/-- Move the staged register block of the selected context into force. -/
def State.ctxTake (s : State) (p c : Nat) : State :=
  let s := s.setCtx p c { s.ctxOf p c with
    cfg := s.ctxNext p c 0x64, areas := s.ctxNext p c 0x68, set0 := s.ctxNext p c 0x6C, set1 := s.ctxNext p c 0x70 }
  [0x64, 0x68, 0x6C, 0x70].foldl (fun s o => s.stage (rk .part p o) none) s

/-- PART.CTX_SEL. -/
def State.ctxSel (s : State) (p : Nat) : Nat := (s.pr .part p 0x60).toNat % 16

/-- Refuse a context command: ERR, and the write is logged. -/
def State.ctxRefuse (s : State) (f : Fn) (t : Target) (p c : Nat) (err : BitVec 4) : State :=
  (s.setCtx p c { s.ctxOf p c with err := err }).rejectState f t

/-- The quantum of a context in ns. -/
def Ctx.quantum (x : Ctx) : Nat := x.cfg.toNat % 1024 * 100000

/-- The records of a context's queues. -/
def Ctx.owns (x : Ctx) (p : Nat) (r : RecRef) : Bool := r.part.val == p && (x.cfg.extractLsb' 16 16).getLsbD r.queue.val

/-- Let a context run from now on, for `left` ns of its quantum, or for all of it. -/
def State.ctxRun (s : State) (p c : Nat) : State :=
  let x := s.ctxOf p c
  let left := if x.left = 0 then BitVec.ofNat 64 x.quantum else x.left
  let s := s.setCtx p c { x with st := .running, left := 0 }
  let s := s.setPart p { s.partOf p with
    runCtx := some (BitVec.ofNat 4 c), quantumEnd := s.sys.time + left, deferred := false, idle := 0 }
  s.quietRestart p

/-- CTX_CREATE (R514, R518): the selected context takes the staged register block. It runs at once where no context
of the partition runs. DEDUCED: assumption 113. -/
def execCtxCreate (f : Fn) (p : Fin 64) (s : State) : Out :=
  match s.openAt f ⟨.part, p.val⟩ 0x74 1 with
  | .error s => .next s
  | .ok t =>
    let c := s.ctxSel p.val
    if (s.ctxOf p.val c).st ≠ .free ∨ (s.partOf p.val).st ≠ .active then .next (s.ctxRefuse f t p.val c 4)
    else
      let err := s.ctxCheck p.val c
      if err ≠ 0 then .next (s.ctxRefuse f t p.val c err)
      else
        let s := s.ctxTake p.val c
        let s := s.setCtx p.val c { s.ctxOf p.val c with st := .saved, err := 0 }
        .next (if (s.partOf p.val).runCtx.isNone then s.ctxRun p.val c else s)

/-- CTX_DESTROY (R523). DEDUCED: assumption 113. -/
def execCtxDestroy (f : Fn) (p : Fin 64) (s : State) : Out :=
  match s.openAt f ⟨.part, p.val⟩ 0x74 2 with
  | .error s => .next s
  | .ok t =>
    let c := s.ctxSel p.val
    let x := s.ctxOf p.val c
    let busy := (List.range 16).any fun q =>
      (x.cfg.extractLsb' 16 16).getLsbD q && (s.queueOf p.val q).st ≠ .free
    if x.st = .free ∨ x.st = .saving ∨ x.st = .restoring ∨ busy then .next (s.ctxRefuse f t p.val c 4)
    else
      let s := if x.st = .running then s.setPart p.val { s.partOf p.val with runCtx := none } else s
      .next (s.setCtx p.val c { Ctx.init c with cfg := 0x00000001 })

/-- A collective of a context is in progress (R517). -/
def State.ctxCollective (s : State) (p c : Nat) : Bool :=
  (List.range 16).any fun n => ((s.cctx n).run.map fun r => (s.ctxOf p c).owns p r.ref).getD false

/-- What the engines still run for a flight and a save takes over: held waits, mover commands and gang operations, and
records that no engine has started. -/
def Flight.saved (f : Flight) : Bool :=
  match f.st with
  | .queued | .waiting => true
  | .running => f.lrec.isGang || f.lrec.usesChan
  | _ => false

/-- A mover command as it is saved (R245): at its resume point, with nothing in flight. -/
def ChanCmd.atResume (c : ChanCmd) : ChanCmd :=
  { c with wait := waitNone, hostData := none, collided := 0, page := none, sent := false, awaits := []
           paid := 0, failAt := none }

/-- Withdraw what a context's commands hold in the engines, but for its gang operation (R517 steps 3 and 4). -/
def State.saveHeld (s : State) (p c : Nat) : State :=
  let x := s.ctxOf p c
  let mine := x.owns p
  let its (r : Option RecRef) : Bool := (r.map mine).getD false
  let left (w : Wait) : BitVec 64 := match w.deadline with
    | some d => if s.sys.time.toNat < d.toNat then d - s.sys.time else 0
    | none => 0
  let b := s.brambleOf p
  let ws := ((s.syn.waits ++ s.syn.retrying ++ b.heldWaits).filter fun w => mine w.ref).map fun w => (w, left w)
  let ts := (s.pad.tagHeld ++ s.pad.tagBusy ++ b.heldTags).filter fun t => its t.req.ref
  let chans := s.cel.chans.filterMap fun e => match e.2 with
    | some d => if mine d.ref ∧ e.1 % 8 < 6 then some (e.1, d.atResume) else none
    | none => none
  let run := (s.gangOf p).map (·.lrec.ref)
  let take (f : Flight) : Bool := mine f.lrec.ref && f.saved && some f.lrec.ref != run
  let s := s.setCtx p c { x with
    waits := ws, tags := ts, chans := chans, flights := s.fe.flights.filter take }
  { s with
    syn := { s.syn with
      waits := s.syn.waits.filter fun w => !mine w.ref
      retrying := s.syn.retrying.filter fun w => !mine w.ref
      bramble := s.syn.bramble.map fun e => (e.1, { e.2 with
        heldWaits := e.2.heldWaits.filter fun w => !mine w.ref
        heldTags := e.2.heldTags.filter fun t => !its t.req.ref }) }
    pad := { s.pad with
      tagHeld := s.pad.tagHeld.filter fun t => !its t.req.ref
      tagBusy := s.pad.tagBusy.filter fun t => !its t.req.ref
      held := s.pad.held.filter fun h => !its h.req.ref
      retries := s.pad.retries.filter fun h => !its h.req.ref }
    cel := { s.cel with
      chans := s.cel.chans.keep fun k d => !(decide (k % 8 < 6) && (d.map fun d => mine d.ref).getD false)
      misses := s.cel.misses.filter fun m => !((s.chanOf m.chan.val).map fun d => mine d.ref).getD false }
    fe := { s.fe with flights := s.fe.flights.filter fun f => !take f } }

/-- Begin a context switch (R517): the queues are unbound, undispatched records are released as under R485, and the
engines stop. -/
def State.beginSave (s : State) (p c : Nat) (suspend : Bool) : State :=
  let x := s.ctxOf p c
  let q := (s.partOf p).quantumEnd
  let s := s.setCtx p c { x with
    st := .saving, suspendAfter := suspend, since := s.sys.time
    left := if s.sys.time.toNat < q.toNat then q - s.sys.time else 0 }
  let s := [true, false].foldl (fun s hot =>
    let n := ([false, true].filter fun h => !(s.halfOf (slotOf p hot) h).recs.isEmpty).length
    if p < 64 ∧ n ≠ 0 then s.bump .slot (slotOf p hot) 0x50 n else s) s
  let s := s.dropHalves p fun r => (x.cfg.extractLsb' 16 16).getLsbD r.queue
  let s := match s.gangOf p with
    | some g => if x.owns p g.lrec.ref then s.setGang p (some { g with stop := some .preempt }) else s
    | none => s
  s.saveHeld p c

/-- Switch away from the running context, or defer the switch for a collective of it (R517). DEDUCED: assumption 114. -/
def State.switchFrom (s : State) (p c : Nat) (suspend : Bool) : State :=
  if s.ctxCollective p c then
    let pt := s.partOf p
    let s := if suspend then s.setCtx p c { s.ctxOf p c with suspendAfter := true } else s
    if pt.deferred then s else (s.setPart p { pt with deferred := true }).bump .part p 0x84
  else s.beginSave p c suspend

/-- CTX_SUSPEND (R523). DEDUCED: assumption 113. -/
def execCtxSuspend (f : Fn) (p : Fin 64) (s : State) : Out :=
  match s.openAt f ⟨.part, p.val⟩ 0x74 3 with
  | .error s => .next s
  | .ok t =>
    let c := s.ctxSel p.val
    let x := s.ctxOf p.val c
    match x.st with
    | .running =>
      if x.areas.getLsbD 30 then .next ((s.setCtx p.val c { x with err := 0 }).switchFrom p.val c true)
      else .next (s.ctxRefuse f t p.val c 2)
    | .saved => .next (s.setCtx p.val c { x with st := .suspended, err := 0 })
    | _ => .next (s.ctxRefuse f t p.val c 4)

/-- CTX_RESUME (R523). -/
def execCtxResume (f : Fn) (p : Fin 64) (s : State) : Out :=
  match s.openAt f ⟨.part, p.val⟩ 0x74 4 with
  | .error s => .next s
  | .ok t =>
    let c := s.ctxSel p.val
    let x := s.ctxOf p.val c
    if x.st = .suspended then .next (s.setCtx p.val c { x with st := .saved, err := 0 })
    else .next (s.ctxRefuse f t p.val c 4)

/-- The next runnable context after `c`, in ascending local number with wrap (R516); `c` itself comes last. -/
def State.nextCtx (s : State) (p c : Nat) : Option Nat :=
  ((List.range 16).map fun i => (c + 1 + i) % 16).find? fun d => s.ctxRunnable p d

/-- QUANTUM_EXPIRY (R516): the running context's quantum is over. Where no other context is runnable it runs on for
another quantum. DEDUCED: assumptions 4, 114. -/
def execQuantumExpiry (p : Fin 64) (s : State) : Out :=
  let pt := s.partOf p.val
  match pt.runCtx with
  | none => .next s
  | some c =>
    let x := s.ctxOf p.val c.toNat
    if x.st ≠ .running || decide (pt.st ≠ .active) then .next s
    else if x.suspendAfter then .next (s.switchFrom p.val c.toNat true)
    else if s.sys.time.toNat < pt.quantumEnd.toNat then .next s
    else match s.nextCtx p.val c.toNat with
      | some _ => .next (s.switchFrom p.val c.toNat false)
      | none => .next (s.setPart p.val { pt with quantumEnd := s.sys.time + BitVec.ofNat 64 x.quantum })

/-- No software queue of the partition holds a command that is ready for dispatch (R299 d, R516). -/
def State.noneReady (s : State) (p : Nat) : Bool :=
  ((List.range 16).all fun q =>
    let slot := slotOf p (s.isHot p q)
    let stopped := s.fe.flights.any fun f =>
      f.lrec.part == p && f.lrec.queue == q && (f.st.isFaulted || (f.lrec.opcode == 0x51 && !f.st.ended))
    let held := ((s.halfOf slot false).recs ++ (s.halfOf slot true).recs).any fun r => r.queue == q
    !(s.fetchable slot p q && !held && !stopped)) &&
  [true, false].all fun hot => [true, false].all fun h =>
    match (s.halfOf (slotOf p hot) h).recs with
    | l :: _ => !s.headReady l hot
    | [] => true

/-- A record that waits in a mover channel's queue behind another one (R236). -/
def State.queuedBehind (s : State) (f : Flight) : Bool :=
  let n := s.moverChan f.lrec
  f.lrec.usesChan && f.st == .queued &&
    ((s.chanOf n).isSome || (s.nextMover n).map (·.lrec.ref) != some f.lrec.ref)

/-- A dispatched record that keeps its partition from being quiet: it runs or can start, and is not a mover whose
tagged request is held. -/
def State.keepsAwake (s : State) (f : Flight) : Bool :=
  f.st != .waiting && !s.queuedBehind f &&
    !(f.lrec.isMover && s.pad.tagHeld.any fun t => t.req.ref == some f.lrec.ref)

/-- The partition has no dispatchable record, no engine running and no mover active (R516). -/
def State.ctxIdle (s : State) (p : Nat) : Bool :=
  (s.gangOf p).isNone && !((s.liveFlights p).any s.keepsAwake) && s.noneReady p

/-- Begin the restore of a context (R520). -/
def State.beginRestore (s : State) (p c : Nat) : State :=
  let s := s.setCtx p c { s.ctxOf p c with st := .restoring, since := s.sys.time }
  s.setPart p { s.partOf p with runCtx := some (BitVec.ofNat 4 c) }

/-- CONTEXT_YIELD (R516): the running context has been idle for 20 µs and another is runnable. Where no context runs,
the next runnable one is restored. DEDUCED: assumption 114. -/
def execContextYield (p : Fin 64) (s : State) : Out :=
  let pt := s.partOf p.val
  if pt.st ≠ .active then .next s
  else match pt.runCtx with
    | none => match s.nextCtx p.val 15 with
      | some d => .next (s.beginRestore p.val d)
      | none => .next s
    | some c =>
      if (s.ctxOf p.val c.toNat).st == .running && s.ctxIdle p.val && decide (20000 ≤ pt.idle) &&
          (s.nextCtx p.val c.toNat).isSome then .next (s.switchFrom p.val c.toNat false)
      else .next s

/-- The records of a context's save area (R518), as offsets and bytes: those in use. The order of the fields inside
the header, a wait and a tagged request is the model's. DESIGN CHOICE: assumption 115. -/
def State.saveRecords (s : State) (p c : Nat) : List (Nat × List Byte) :=
  let x := s.ctxOf p c
  let g := x.gangs.head?
  let tiles := (g.map (·.tiles)).getD []
  let vecs := (g.map (·.vecs)).getD []
  let cmps := (g.map (·.cmps)).getD []
  let gi (k : Nat) : Nat := s.rankOf p (k / 16) * 16 + k % 16
  let header := leBytes 8 (16 * p + c) ++ leBytes 8 s.sys.time.toNat ++ leBytes 4 tiles.length ++
    leBytes 4 vecs.length ++ leBytes 4 x.chans.length ++ leBytes 4 x.waits.length ++ leBytes 4 x.tags.length ++
    leBytes 4 0 ++ leBytes 8 x.left.toNat
  let wait (w : Wait × BitVec 64) : List Byte :=
    leBytes 2 w.1.vid.toNat ++ leBytes 2 (if w.1.prewait then 1 else 0) ++ leBytes 4 w.1.target.toNat ++
    leBytes 4 (w.2.toNat / 1000) ++ leBytes 2 w.1.ref.queue.val ++ leBytes 2 w.1.ref.index.toNat
  let tag (t : TagReq) : List Byte :=
    leBytes 2 (match t.op with | .write _ => 0 | .read => 1 | .peek => 2 | .fill _ => 3) ++ leBytes 2 t.slot ++
    leBytes 4 (s.rankOf p t.cluster) ++ leBytes 8 ((t.req.ref.map fun r => r.queue.val).getD 0xFFFF)
  [(0, header)] ++
  (tiles.map fun e => (0x1000 + 256 * gi e.1, leBytes 64 e.2.image.toNat)) ++
  (cmps.map fun e => (0x1000 + 256 * (s.rankOf p (e.1 / 1024) * 16 + bankTile e.1) + 64 + 2 * (e.1 % 64),
    leBytes 2 e.2.done)) ++
  (vecs.map fun e => (0x41000 + 64 * s.rankOf p e.1, leBytes 64 e.2.image.toNat)) ++
  (x.chans.map fun e => (0x42000 + 64 * (s.rankOf p (e.1 / 8) * 6 + e.1 % 8), leBytes 64 e.2.image.toNat)) ++
  ((List.range x.waits.length).zip x.waits).map (fun e => (0x48000 + 16 * e.1, wait e.2)) ++
  ((List.range x.tags.length).zip x.tags).map fun e => (0x58000 + 16 * e.1, tag e.2)

/-- The save sets of a context with the offset of each image in the save area. -/
def State.setImages (s : State) (p c : Nat) : List (Handle × Nat) :=
  let x := s.ctxOf p c
  ((saveSet x.set0 x.set1).foldl (fun (acc : List (Handle × Nat) × Nat) h =>
    let e := s.handleOf p h
    (acc.1 ++ [(e, acc.2)], acc.2 + e.size.toNat)) ([], 0x80000)).1

/-- What the save area answers to a save or a restore: whether it goes through, must wait for a scrub, or faults. -/
def State.saveGate (s : State) (p c : Nat) : Option Bool :=
  let x := s.ctxOf p c
  let h := s.handleOf p ((x.areas.extractLsb' 16 12).toNat)
  if !(h.v && h.kind == 1 && h.rd && h.wr) then some false
  else match s.viewWritable p (h.dev.toNat % 0x1000000000) h.size.toNat with
    | none => some true
    | some (.scrubbing _) => none
    | some _ => some false

/-- Write bytes into a context's save area. DESIGN CHOICE: assumption 115. -/
def State.savePut (s : State) (p c : Nat) (off : Nat) (data : List Byte) : State :=
  let h := s.handleOf p (((s.ctxOf p c).areas.extractLsb' 16 12).toNat)
  if s.scopeHit p (h.dev.toNat + off) data.length then s.scopeRefuse
  else s.viewWrite p (h.dev.toNat % 0x1000000000 + off) data

/-- A queue of a LOST context faults with cause 0x0019 (R522). DEDUCED: assumption 116. -/
def State.loseQueue (s : State) (p q : Nat) : State :=
  let x := s.queueOf p q
  if x.st == .ready || x.st == .faulted then
    let es := (x.entries.filter fun e => decide (0 < e.dispatched)).map fun e => { e with faulted := true }
    let s := s.setQueue p q { x with
      st := .faulted, faultCpl := es.isEmpty, entries := es
      started := match es.getLast? with
        | some e => ptrInc (s.ringLog2 p q) e.num
        | none => x.head }
    let l : LRec :=
      { ref := ⟨Fin.ofNat 65 p, Fin.ofNat 16 q, 0, 0xFFFF⟩, gid := x.gid, raw := 0, params := [], opnds := [], tag := 0
        after := false, bind := 0, area := 0, fault := none }
    let s := s.writeFault p (faultBytes s.sys.time l { engineFault 0x0019 with fetch := true } 0xFE 0xFFFF)
    (s.record (commandRec p x.gid 0x0019)).completions p q
  else s

/-- A save or restore has failed: the context is LOST and its saved engine state is discarded (R522).
DESIGN CHOICE: assumption 115; DEDUCED: assumption 116. -/
def State.loseCtx (s : State) (p c : Nat) : State :=
  let x := s.ctxOf p c
  let s := x.flights.foldl (fun s f => s.useRec f.lrec false) s
  let s := s.setCtx p c { x with
    st := .lost, waits := [], tags := [], flights := [], gangs := [], chans := [], written := false
    suspendAfter := false }
  let s := s.setPart p { s.partOf p with runCtx := none }
  (List.range 16).foldl (fun s q => if (x.cfg.extractLsb' 16 16).getLsbD q then s.loseQueue p q else s) s

/-- The time of a save or restore that ends (PART.SAVE_NS). -/
def State.saveTime (s : State) (p c : Nat) : State :=
  s.bump64 .part p 0x88 (s.sys.time - (s.ctxOf p c).since).toNat

/-- Restore the next runnable context after `c`, if there is one. -/
def State.switchTo (s : State) (p c : Nat) : State :=
  let s := s.setPart p { s.partOf p with runCtx := none }
  match s.nextCtx p c with
  | some d => s.beginRestore p d
  | none => s

/-- The gang operations of a stopped context join its saved state, with the flights of both. -/
def State.saveGangs (s : State) (p c : Nat) : State :=
  let x := s.ctxOf p c
  let parked := match s.parkedOf p with
    | some g => if x.owns p g.lrec.ref then [g] else []
    | none => []
  let s := if parked.isEmpty then s else s.setParked p none
  let take (f : Flight) : Bool := x.owns p f.lrec.ref && f.saved
  let s := s.setCtx p c { x with gangs := x.gangs ++ parked, flights := x.flights ++ s.fe.flights.filter take }
  { s with fe := { s.fe with flights := s.fe.flights.filter fun f => !take f } }

/-- CTX_SAVE_DONE (R517–R519): every engine has stopped, and the state and the save sets are in the save area.
DESIGN CHOICE: assumption 115. -/
def execCtxSaveDone (p : Fin 64) (s : State) : Out :=
  match (List.range 16).find? fun c => (s.ctxOf p.val c).st == .saving with
  | none => .next s
  | some c =>
    let run := match s.gangOf p.val with
      | some g => (s.ctxOf p.val c).owns p.val g.lrec.ref
      | none => false
    if run then .next s
    else match s.saveGate p.val c with
      | none => .next s
      | some ok =>
        let s := (s.saveGangs p.val c).saveTime p.val c
        let sets := s.setImages p.val c
        if !ok || sets.any (fun e => !(e.1.v && e.1.kind == 0 && s.padOwned p.val e.1.dev.toNat e.1.size.toNat) ||
            s.poisoned e.1.dev.toNat e.1.size.toNat) then
          .next ((s.loseCtx p.val c).switchTo p.val c)
        else
          let s := (s.saveRecords p.val c).foldl (fun s e => s.savePut p.val c e.1 e.2) s
          let s := sets.foldl (fun s e => s.savePut p.val c e.2 (s.padRead e.1.dev.toNat e.1.size.toNat)) s
          let x := s.ctxOf p.val c
          let s := s.setCtx p.val c { x with
            st := if x.suspendAfter then .suspended else .saved, suspendAfter := false, written := true }
          .next (s.switchTo p.val c)

/-- Copy a context's save sets back (R519, R520); none where the area or a set faults. -/
def State.restoreSets (s : State) (p c : Nat) : Option State :=
  let h := s.handleOf p (((s.ctxOf p c).areas.extractLsb' 16 12).toNat)
  if !(s.ctxOf p c).written then some s
  else (s.setImages p c).foldl (fun (acc : Option State) (e : Handle × Nat) =>
    match acc with
    | none => none
    | some s =>
      match s.viewRead p (h.dev.toNat % 0x1000000000 + e.2) e.1.size.toNat with
      | .ok bs => if e.1.v && e.1.kind == 0#2 then s.partWrite p 0 e.1.dev.toNat bs else none
      | .error _ => none) (some s)

/-- Give the engines back what a context saved (R520): gang operations, mover commands, waits with their remaining
time, tagged requests. The operation that was preempted goes on at once where another is parked behind it. -/
def State.restoreHeld (s : State) (p c : Nat) : State :=
  let x := s.ctxOf p c
  let s := s.setCtx p c { x with waits := [], tags := [], flights := [], gangs := [], chans := [] }
  let s := { s with fe := { s.fe with flights := s.fe.flights ++ x.flights } }
  let s := match x.gangs with
    | [] => s
    | [g] => s.setParked p (some g)
    | g :: g' :: _ =>
      (s.setParked p (some g')).setGang p (some (s.reloadAll p { g with since := s.sys.time }))
  let s := x.chans.foldl (fun s e => s.setChan e.1 (some e.2)) s
  let s := x.waits.foldl (fun s w =>
    s.registerWait { w.1 with deadline := w.1.deadline.map fun _ => s.sys.time + w.2 }) s
  x.tags.foldl (fun s t => s.tagAccess t.req t.op t.since t.id) s

/-- CTX_RESTORE_DONE (R519, R520): the restore completes and the context runs. DEDUCED: assumption 114. -/
def execCtxRestoreDone (p : Fin 64) (s : State) : Out :=
  match (List.range 16).find? fun c => (s.ctxOf p.val c).st == .restoring with
  | none => .next s
  | some c =>
    let x := s.ctxOf p.val c
    let gate := if x.written then s.saveGate p.val c else some true
    match gate with
    | none => .next s
    | some ok =>
      let s := s.saveTime p.val c
      match (if ok then s.restoreSets p.val c else none) with
      | none => .next ((s.loseCtx p.val c).switchTo p.val c)
      | some s =>
        let s := (s.ctxRun p.val c).restoreHeld p.val c
        let s := if x.areas.getLsbD 31 then
            s.setPr .part p.val 0x3C4 (0x80000000 ||| (x.areas &&& 0xFFF))
          else s
        .next (s.bump .part p.val 0x80)

end Sys2Proof.Machine
end

