-- ==== Sys2Proof/Machine/Rel.lean ====
section
/-! DEFINITION. Reliability, ageing and audit (chapter 15): the error ring, Sloe, transaction watchdogs, region faults,
the margin planner, and fused settings. -/

namespace Sys2Proof.Machine

/-! ## The error aggregator (R539–R541) -/

/-- ERR_FIRST_CLR (R541): a write of ERR.CTRL.FIRST_CLR. -/
def execErrFirstClr (f : Fn) (s : State) : Out :=
  match s.openAt f ⟨.err, 0⟩ 0x08 2 with
  | .error s => .next s
  | .ok _ => .next { s with err := { s.err with first := none } }

/-- ERR_POP (R539, R540): a write of ERR.CTRL.POP discards the oldest record. -/
def execErrPop (f : Fn) (s : State) : Out :=
  match s.openAt f ⟨.err, 0⟩ 0x08 1 with
  | .error s => .next s
  | .ok _ => .next { s with err := { s.err with ring := s.err.ring.tail } }

/-! ## Sloe (R547–R550) -/

/-- How many bits of a row are set. -/
def bitCount (v : BitVec 1024) : Nat := ((List.range 1024).filter fun i => v.getLsbD i).length

/-- The lowest bit of a row that is set; 0 where none is. -/
def firstBit (v : BitVec 1024) : Nat := ((List.range 1024).find? fun i => v.getLsbD i).getD 0

/-- Count a Sloe test that was not clean (R645). -/
def State.sloeFinding (s : State) : State := s.bump .sloe 0 0x4C

/-- A corrected SRAM error of a row (R549): recorded, and the tracker count rises by `n`. -/
def State.sramCe (s : State) (b row syndrome n : Nat) : State :=
  (s.record { ErrRec.mk0 0x01 sevCorrected (srcOf 0 (bankCluster b * 16 + bankTile b)) with
    owner := ownerByte (s.bankOf b).owner, location := BitVec.ofNat 64 (b * 0x20000 + row * 128)
    syndrome := BitVec.ofNat 32 syndrome }).track b row n

/-- Poison a word of a row (R543). -/
def State.poisonWord (s : State) (w : Nat) : State :=
  { s with pad := { s.pad with poison := s.pad.poison.put false w true } }

/-- Judge the test of a row that holds data (R549). A word that is poisoned reads as uncorrectable whatever else the
test finds. DEDUCED: assumption 117. -/
def State.judgeRow (s : State) (b row : Nat) (x : SloeFind) : State :=
  let w0 := (b * 0x20000 + row * 128) / 8
  let known := (List.range 16).find? fun i => s.pad.poison.get false (w0 + i)
  let bad := match known, x.step1 with
    | some i, _ => some i
    | none, .bad i => some i.val
    | none, _ => none
  match bad with
  | some i => ((s.poisonWord (w0 + i)).foundUe (8 * (w0 + i))).sloeFinding
  | none =>
    let n := bitCount x.d55 + bitCount x.dAA
    if 2 ≤ n then (s.decideRow b row false).sloeFinding
    else if n = 1 then (s.sramCe b row (firstBit (x.d55 ||| x.dAA)) 4).sloeFinding
    else match x.step1 with
      | .corrected i => (s.sramCe b row i.val 1).sloeFinding
      | _ => s

/-- Whether Sloe tests a bank now (R547): settled, no hole, not in retention. -/
def State.sloeReach (s : State) (b : Nat) : Bool :=
  !s.bankHole b && (s.bankOf b).st == .settled &&
  s.tierOf (regionOfCluster (bankCluster b)) (bankTier b) == .awake

/-- Test a row of the walk in one bank: a row that a spare replaces is passed over; a spare row in use holds the row it
replaces; one not in use that fails is marked BAD (R549). DEDUCED: assumption 117. -/
def State.testRow (s : State) (b row : Nat) (x : SloeFind) : State :=
  if !s.sloeReach b then s
  else if row < 1024 then
    if (List.range 16).any fun j => (s.rowEnt b j).used && (s.rowEnt b j).row.toNat == row then s else s.judgeRow b row x
  else
    let e := s.rowEnt b (row - 1024)
    if e.used then s.judgeRow b e.row.toNat x
    else if e.bad || (x.d55 == 0 && x.dAA == 0) then s
    else (s.setRowEnt b (row - 1024) { e with bad := true }).sloeFinding

/-- SLOE.CFG.EN. -/
def State.sloeOn (s : State) : Bool := (s.pr .sloe 0 0x40).getLsbD 31

/-- SLOE_ROW_TEST (R547–R549). `ahead` names a row of the row tracker, tested ahead of the walk; without it the walk
tests its next row of every bank, once INTERVAL has passed. `found` gives the tests that were not clean, by bank.
DEDUCED: assumptions 44, 117. -/
def execSloeRowTest (ahead : Option (Fin 65536 × Fin 1024)) (found : List (Fin 65536 × SloeFind)) (s : State) : Out :=
  if !s.sloeOn || s.sys.phase ≠ 7 then .next s
  else match ahead with
  | some (b, row) =>
    if !(s.err.tracker.any fun e => e.bank == b.val && e.row == row.val) || !s.sloeReach b.val then .next s
    else .next (s.judgeRow b.val row.val
      (((found.find? fun e => e.1 == b).map (·.2)).getD ⟨.clean, 0, 0⟩))
  | none =>
    let interval := ((s.pr .sloe 0 0x40).extractLsb' 0 16).toNat * 1000000000
    if s.sys.time.toNat < s.sloe.last.toNat + interval then .next s
    else
      let known := ((s.pad.poison.keys.filter fun w => w / 16 % 1024 == s.sloe.row).map fun w => w / 0x4000).filter
        fun b => found.all fun e => e.1.val ≠ b
      let s := found.foldl (fun s e => s.testRow e.1.val s.sloe.row e.2) s
      let s := known.eraseDups.foldl (fun s b => s.testRow b s.sloe.row ⟨.clean, 0, 0⟩) s
      let row := (s.sloe.row + 1) % 1040
      let s := if row = 0 then s.bump .sloe 0 0x44 else s
      .next { s with sloe := { s.sloe with row := row, last := s.sys.time } }

/-- The 64 B units of both stacks (R550). -/
def patrolUnits : Nat := 48 * 0x40000000 / 64

/-- SLOE_PATROL (R550–R552): the patrol reads the next 64 B unit. DEDUCED: assumptions 44, 117. -/
def execSloePatrol (x : PatrolRead) (s : State) : Out :=
  if !s.sloeOn || !(s.pr .sloe 0 0x40).getLsbD 30 || s.sys.phase ≠ 7 then .next s
  else
    let u := s.sloe.patrolUnit
    let s := { s with sloe := { s.sloe with patrolUnit := (u + 1) % patrolUnits } }
    if s.cel.poison.get false u || x == .bad then
      .next ({ s with cel := { s.cel with poison := s.cel.poison.put false u true } }.celUe (u * 64))
    else if x == .corrected then
      .next (s.record { ErrRec.mk0 0x05 sevCorrected (srcOf 4 (celStack (u * 64))) with
        owner := ownerByte (s.pageOwner (u / 0x8000)), location := BitVec.ofNat 64 (u * 64) })
    else .next s

/-! ## Region faults (R39) -/

/-- The partitions that own a cluster of a region. -/
def State.partsIn (s : State) (r : Nat) : List Nat :=
  (List.range 64).filter fun p => (s.clustersOf p).any fun c => regionOfCluster c == r

/-- A region fails (R39): recorded, every partition with a cluster there faults (in stage mode the job rolls back), and
the region is out of service until it is re-planned. DEDUCED: assumption 118. -/
def State.regionFault (s : State) (r : Nat) : State :=
  let s := s.record { ErrRec.mk0 0x12 sevContained (srcOf 2 r) with owner := ownerByte none }
  let s := (s.partsIn r).foldl (fun s p => s.unitFault p 0x0025 0) s
  s.setRegion r { s.regionOf r with out := true, due := true }

/-- REGION_FAULT (R39): a region's clock, supply or retention control fails. -/
def execRegionFault (r : Fin 16) (s : State) : Out := .next (s.regionFault r.val)

/-! ## Transaction watchdogs (R555, R556) -/

/-- A unit that has failed under R556 acts as R39 lays down at its level: a tile or cluster engine faults its
partition, and a slot faults the partition it serves; in stage mode a failed tile is mapped out. -/
def State.unitFails (s : State) (src : BitVec 16) : State :=
  let i := (src.extractLsb' 0 12).toNat
  match (src.extractLsb' 12 4).toNat with
  | 0 =>
    let s := match s.clusterOwner (i / 16) with
      | some p => s.unitFault p.val 0x0025 0
      | none => s
    if s.sys.stageMode then
      { s with fuse := { s.fuse with tileOut := s.fuse.tileOut.put false i true } }.raise .clu (i / 16) 2
    else s
  | 1 => match s.clusterOwner i with
    | some p => s.unitFault p.val 0x0025 0
    | none => s
  | 6 => if i < 64 then s.unitFault i 0x0025 0 else s
  | _ => (s.record { ErrRec.mk0 0x15 sevDevice src with owner := ownerByte none }).deviceFault 0x0025

/-- A watchdog has expired at a unit (R555, R556): recorded, and the unit fails where its last expiry was less than
1 s ago. DEDUCED: assumptions 118, 119. -/
def State.wdogExpiry (s : State) (src : BitVec 16) (owner : Option (Fin 64)) (cause : BitVec 16) (loc : BitVec 64) :
    State :=
  let again := match s.err.expiries.get none src.toNat with
    | some t => decide ((s.sys.time - t).toNat < 1000000000)
    | none => false
  let s := s.record { ErrRec.mk0 0x0C (if owner.isSome then sevContained else sevDevice) src with
    owner := ownerByte owner, location := loc, cause := cause.zeroExtend 32 }
  let s := { s with err := { s.err with expiries := s.err.expiries.put none src.toNat (some s.sys.time) } }
  if again then s.unitFails src else s

/-- The partition of a record; none: the physical function. DEDUCED: assumption 118. -/
def partOwner (p : Fin 65) : Option (Fin 64) := if p.val < 64 then some (Fin.ofNat 64 p.val) else none

/-- TRANSACTION_WATCHDOG (R555, R556, R189, R207, R222, R479): a transaction that has waited for ERR.CFG.WDOG ends
unanswered. DEDUCED: assumptions 118, 119. -/
def execTransactionWatchdog (w : WdogAt) (s : State) : Out :=
  let late (t : BitVec 64) : Bool := decide (t.toNat + s.wdogNs ≤ s.sys.time.toNat)
  match w with
  | .held i => match s.pad.held[i]? with
    | none => .next s
    | some h =>
      if !late h.since then .next s
      else
        let a := h.req.addr
        let s := { s with pad := { s.pad with held := s.pad.held.eraseIdx i } }
        let s := s.wdogExpiry (srcOf 0 (padCluster a.toNat * 16 + padTile a.toNat)) h.req.owner.part? 0x0025 a
        .next (s.failNoc h.req 0x0025)
  | .chan n => match s.chanOf n.val with
    | none => .next s
    | some c =>
      if (c.wait = waitHeld ∨ c.sent) ∧ late c.since then
        let cause : BitVec 16 := if c.sent then 0x001E else 0x0025
        .next ((s.wdogExpiry (srcOf 1 (n.val / 8)) (partOwner c.ref.part) cause 0).faultChan n.val c cause)
      else .next s
  | .half p hot half =>
    let slot := slotOf p.val hot
    let h := s.halfOf slot half
    match h.recs, h.bankWait with
    | l :: _, some t =>
      if late t ∧ s.mayDispatch l ∧ !s.banksReady l then
        .next ((s.wdogExpiry (srcOf 6 p.val) (partOwner p) 0x0025 0).takeHead slot half l
          (.faulted (engineFault 0x0025 (engineId 0 4 0))))
      else .next s
    | _, _ => .next s
  | .submit r => match s.flight? r with
    | none => .next s
    | some f =>
      let q := f.lrec.subF 0 4
      let x := s.queueOf r.part q
      if f.lrec.opcode == 0x01 && !f.st.ended && late f.time &&
          decide (2 ^ s.ringLog2 r.part q ≤ ptrDist (s.ringLog2 r.part q) x.head x.tail) then
        .next ((s.wdogExpiry (srcOf 6 r.part.val) (partOwner r.part) 0x000B 0).failFlight r (engineFault 0x000B (engineId 0 4 0)))
      else .next s

/-! ## The margin planner (R557–R560, R593, R594) -/

/-- The lowest supply request that the planned voltages need (R593), counting plans that are not yet applied. -/
def State.railNeed (s : State) : Nat :=
  let top := (List.range 16).foldl (fun n r =>
    let x := s.regionOf r
    max n (max x.mv.toNat ((x.pending.map fun q => q.2.toNat).getD 0))) 0
  min (top + 10) 800

/-- Lower the request once no planned voltage needs it (R594). DEDUCED: assumption 122. -/
def State.railLower (s : State) : State :=
  if s.railNeed < s.pwr.req.toNat ∧ !s.pwr.reqPending then
    { s with pwr := { s.pwr with req := BitVec.ofNat 10 s.railNeed } }
  else s

/-- Whether the predicted least slack of a region at `v` mV and `f` MHz reaches floor + guard (R558). Both sides are
multiplied by 1,000 × f × f_now. -/
def State.slackFits (s : State) (x : RegionPt) (kv guard v f : Nat) : Bool :=
  let f0 : Int := x.atMhz.toNat
  let v0 : Int := x.atMv.toNat
  let m : Int := 1000 * x.slack.toNat + kv * ((v : Int) - v0) - 1000 * (s.fuse.floorPs.toNat + guard)
  decide (0 ≤ m * f * f0 + 1000000000 * (f0 - f))

/-- The planner's voltages, ascending (R558). -/
def planMvs : List Nat := (List.range 51).map fun i => 550 + 5 * i

/-- The planner's search (R558): the highest frequency, and at it the lowest voltage, that fit.
DEDUCED: assumption 120. -/
def State.planPoint (s : State) (x : RegionPt) (kv guard : Nat) : Option (Nat × Nat) :=
  let top := ((s.pr .age 0 0x40).extractLsb' 0 11).toNat
  (List.range ((top - 1100) / 25 + 1)).findSome? fun i =>
    let f := top - 25 * i
    (planMvs.find? fun v => s.slackFits x kv guard v f).map fun v => (f, v)

/-- The common frequency of stage mode (R19): the lowest planned frequency of the regions in service.
DEDUCED: assumption 122. -/
def State.commonMhz (s : State) : Nat :=
  (List.range 16).foldl (fun n r => if (s.regionOf r).out then n else min n (s.regionOf r).mhz.toNat) 2047

/-- A region takes the common frequency, at the lowest voltage that fits there (R19). DEDUCED: assumption 122. -/
def State.runCommon (s : State) (f r : Nat) : State :=
  let x := s.regionOf r
  let v := if f = x.mhz.toNat then x.mv.toNat
    else (planMvs.find? fun v => s.slackFits x x.kv.toNat x.guardPs.toNat v f).getD x.mv.toNat
  s.setRegion r { x with runMhz := BitVec.ofNat 11 f, runMv := BitVec.ofNat 10 (min v x.mv.toNat) }

/-- Every region takes the common frequency of stage mode. -/
def State.runStage (s : State) : State := (List.range 16).foldl (fun s r => s.runCommon s.commonMhz r) s

/-- Every region takes its own planned point again (R310). -/
def State.runPlanned (s : State) : State :=
  (List.range 16).foldl (fun s r =>
    let x := s.regionOf r
    s.setRegion r { x with runMhz := x.mhz, runMv := x.mv }) s

/-- A plan comes into force whole (R559): it is counted, kept in the ageing history, and the rail request may fall.
DEDUCED: assumption 122. -/
def State.planApplied (s : State) (r : Nat) (q : BitVec 11 × BitVec 10) : State :=
  let s := s.setRegion r { s.regionOf r with mhz := q.1, mv := q.2, pending := none, railWait := false, out := false }
  let s := if s.sys.stageMode then s.runStage else s.setRegion r { s.regionOf r with runMhz := q.1, runMv := q.2 }
  let s := { s with fuse := { s.fuse with plan := s.fuse.plan.put RegionPt.init r (s.regionOf r) } }
  (s.bump .age 0 0x5C).railLower

/-- Take a region's pending plan as far as it goes without a frequency change (R559): a voltage that goes with a higher
frequency rises first. -/
def State.advancePlan (s : State) (r : Nat) : State :=
  let x := s.regionOf r
  match x.pending with
  | none => s
  | some q =>
    if x.railWait then s
    else if q.1 = x.mhz then s.planApplied r q
    else if x.mhz.toNat < q.1.toNat then
      s.setRegion r { x with mv := q.2, runMv := if s.sys.stageMode then x.runMv else q.2 }
    else s

/-- Take up a new plan for a region (R559, R594): one that needs a higher rail waits for it. DEDUCED: assumption 120. -/
def State.takePlan (s : State) (r : Nat) (q : BitVec 11 × BitVec 10) : State :=
  let s := s.setRegion r { s.regionOf r with pending := some q, railWait := false }
  if s.pwr.req.toNat < s.railNeed then
    let s := s.setRegion r { s.regionOf r with railWait := true }
    { s with pwr := { s.pwr with req := BitVec.ofNat 10 s.railNeed, reqPending := true, reqAt := s.sys.time } }
  else s.advancePlan r

/-- REPLAN (R558, R559): due at an alarm, after PLAN_DAYS days, and at a cold reset. `kv` is the region's fused ps per
mV in thousandths, and `guard` the projected drift in ps. DESIGN CHOICE: assumption 121. -/
def execReplan (r : Fin 16) (kv guard : BitVec 16) (s : State) : Out :=
  let x := s.regionOf r.val
  let days := ((s.pr .age 0 0x40).extractLsb' 24 8).toNat
  if s.sys.phase ≠ 7 ∨ (!x.due ∧ s.sys.time.toNat < x.planAt.toNat + days * 86400000000000) then .next s
  else
    let x := { x with due := false, planAt := s.sys.time, kv := kv, guardPs := guard }
    let s := s.setRegion r.val x
    match s.planPoint x kv.toNat guard.toNat with
    | some (f, v) => .next (s.takePlan r.val (BitVec.ofNat 11 f, BitVec.ofNat 10 v))
    | none => .next (if x.out then s else
        let s := s.regionFault r.val
        s.setRegion r.val { s.regionOf r.val with due := false })

/-- Whether every partition with a cluster in a region is at a step end (R559). -/
def State.regionAtSteps (s : State) (r : Nat) : Bool :=
  (s.partsIn r).all fun p => match s.gangOf p with
    | none => true
    | some g => g.tiles.all fun (e : Nat × TileRun) => !e.2.stepOpen

/-- REGION_FREQ_APPLY (R559): a new frequency is applied at its safe point. -/
def execRegionFreqApply (r : Fin 16) (s : State) : Out :=
  let x := s.regionOf r.val
  match x.pending with
  | none => .next s
  | some q =>
    let safe := if s.sys.stageMode then s.stg.st == 1 else s.regionAtSteps r.val
    if x.railWait || !safe then .next s else .next (s.planApplied r.val q)

/-! ## Ageing alarms (R553, R560) -/

/-- Take the readings of a region's monitors, numbered from `k` (R553): the valid ones of monitors that have not
failed, and the state with discards counted. DEDUCED: assumption 120. -/
def State.takeReadings (s : State) (r : Nat) : Nat → List (Option Nat) → State × List Nat
  | _, [] => (s, [])
  | k, v :: vs =>
    let n := (s.regionOf r).discards.get 0 k
    let put (s : State) (d : Nat) : State :=
      s.setRegion r { s.regionOf r with discards := (s.regionOf r).discards.put 0 k d }
    if 3 ≤ n then State.takeReadings s r (k + 1) vs
    else match v with
      | some x =>
        let q := State.takeReadings (put s 0) r (k + 1) vs
        (q.1, x :: q.2)
      | none =>
        let s := put s (n + 1)
        State.takeReadings
          (if n = 2 then s.record { ErrRec.mk0 0x10 sevInfo (srcOf 2 r) with owner := ownerByte none } else s) r (k + 1) vs

/-- DETAIL of an AGEING record: the slack in its low 16 bits, the drift above. DESIGN CHOICE: assumption 121. -/
def ageDetail (x : RegionPt) : BitVec 256 := (x.drift ++ x.slack.zeroExtend 16).zeroExtend 256

/-- A critical alarm (R560): the region's voltage rises by 10 mV at once, or at 800 mV its frequency falls by 25 MHz.
DEDUCED: assumption 120. -/
def State.critical (s : State) (r : Nat) : State :=
  let x := s.regionOf r
  let s := (s.bump .age 0 0x58).raise .age 0 2
  if x.mv.toNat < 800 then
    let up (v : BitVec 10) : BitVec 10 := BitVec.ofNat 10 (min (v.toNat + 10) 800)
    let s := s.setRegion r { x with mv := up x.mv, runMv := up x.runMv }
    { s with pwr := { s.pwr with req := BitVec.ofNat 10 (max s.pwr.req.toNat s.railNeed) } }
  else s.setRegion r { x with pending := some (BitVec.ofNat 11 (max 1100 (x.mhz.toNat - 25)), x.mv), railWait := false }

/-- CANARY_MEASURE (R553, R560): the readings of a region's 4 canaries (slack in ps) and 8 ring oscillators (drift in
0.01 %); none is a reading outside its plausible band. DEDUCED: assumption 120; DESIGN CHOICE: assumption 121. -/
def execCanaryMeasure (r : Fin 16) (slacks : List (Option (BitVec 11))) (drifts : List (Option (BitVec 16)))
    (s : State) : Out :=
  if s.sys.phase ≠ 7 then .next s
  else
    let a := s.takeReadings r.val 0 ((List.range 4).map fun i => (slacks.getD i none).map (·.toNat))
    let b := a.1.takeReadings r.val 4 ((List.range 8).map fun i => (drifts.getD i none).map (·.toNat))
    let s := b.1
    let x := s.regionOf r.val
    let x := match a.2.min? with
      | some m => { x with slack := BitVec.ofNat 11 m, atMhz := x.runMhz, atMv := x.runMv }
      | none => x
    let x := match b.2.max? with
      | some d => { x with drift := BitVec.ofNat 16 d }
      | none => x
    let s := s.setRegion r.val x
    let floor := s.fuse.floorPs.toNat
    let low := !a.2.isEmpty && decide (x.slack.toNat < floor + x.guardPs.toNat)
    let drifted := !b.2.isEmpty && decide (((s.pr .age 0 0x40).extractLsb' 16 4).toNat * 100 < x.drift.toNat)
    let crit := !a.2.isEmpty && decide (2 * x.slack.toNat < floor)
    if !low && !drifted then .next s
    else
      let s := s.record { ErrRec.mk0 0x11 (if crit then sevCorrected else sevInfo) (srcOf 2 r.val) with
        owner := ownerByte none, detail := ageDetail x }
      let s := ((s.bump .age 0 0x54).raise .age 0 1).ckptWarn 29 true
      let s := (List.range 16).foldl (fun s q => s.setRegion q { s.regionOf q with due := true }) s
      .next (if crit then s.critical r.val else s)

/-! ## Count-limited settings (R561–R564) -/

/-- Place an entry in the audit log (R563): at its end, or over the oldest tenancy-lock entry once all 64 are in use.
DEDUCED: assumption 123. -/
def auditPlace (e : AuditEnt) (log : List AuditEnt) : List AuditEnt :=
  if log.length < 64 then log ++ [e]
  else
    let locks := log.filter fun x => x.kind == 4
    match locks with
    | [] => log
    | l :: ls =>
      let old := ls.foldl (fun a x => if x.seq.toNat < a.seq.toNat then x else a) l
      log.map fun x => if x == old then e else x

/-- Add an audit entry (R563). The MAC is a free value, for the audit key is never readable (R564).
DEDUCED: assumption 22. -/
def State.audit (s : State) (kind state : BitVec 8) (arg : BitVec 32) (used : Nat) : State :=
  let m := s.free
  let s := m.2
  let seq := if s.fuse.auditSeq = 0xFFFF then 0xFFFF else s.fuse.auditSeq + 1
  let e : AuditEnt :=
    { seq := seq, kind := kind, state := state, boot := s.sys.coldResets, time := s.sys.time, arg := arg
      used := BitVec.ofNat 8 used, mac := m.1 }
  { s with fuse := { s.fuse with auditSeq := seq, audit := auditPlace e s.fuse.audit } }

/-- A FUSE record (R538), with the audit entry's number in DETAIL. DEDUCED: assumption 36. -/
def State.fuseRec (s : State) (seq : BitVec 16) : State :=
  s.record { ErrRec.mk0 0x13 sevInfo (srcOf 3 0) with owner := ownerByte none, detail := seq.zeroExtend 256 }

/-- Settle the PENDING audit entry (R562). DEDUCED: assumption 23. -/
def settleAudit (ok : Bool) (log : List AuditEnt) : List AuditEnt :=
  log.map fun e => if e.state == 1 then { e with state := if ok then 2 else 3 } else e

/-- The margin floor after one more lowering (R557). DEDUCED: assumption 123. -/
def nextFloor (x : Fuse) : Nat := max 10 (x.floorPs.toNat - 5)

/-- The effect of a blown setting (R561): a tile stays mapped out, the floor is lowered (R557), a key slot is
revoked. DEDUCED: assumption 123. -/
def Fuse.blow (x : Fuse) (kind : BitVec 8) (arg : BitVec 32) : Fuse :=
  if kind = 1 then
    { x with
      downgrades := x.downgrades + 1
      fusedOut := x.fusedOut.put false ((arg.extractLsb' 8 6).toNat * 16 + (arg.extractLsb' 0 4).toNat) true
      tileOut := x.tileOut.put false ((arg.extractLsb' 8 6).toNat * 16 + (arg.extractLsb' 0 4).toNat) true }
  else if kind = 2 then
    { x with lowerings := x.lowerings + 1, floorPs := BitVec.ofNat 7 (nextFloor x) }
  else if kind = 3 then
    { x with revocations := x.revocations + 1, revoked := x.revoked ||| (1#5 <<< (arg.extractLsb' 0 3).toNat) }
  else x

/-- FUSE_BLOW_DONE (R562): the fuses have been blown and read back; `ok`: as asked. -/
def execFuseBlowDone (ok : Bool) (s : State) : Out :=
  match s.fuse.op with
  | none => .next s
  | some (kind, arg) =>
    let seq := ((s.fuse.audit.find? fun e => e.state == 1).map (·.seq)).getD 0
    let x := { s.fuse with op := none, audit := settleAudit ok s.fuse.audit }
    let live := s.tileLive (arg.extractLsb' 8 6).toNat (arg.extractLsb' 0 4).toNat
    let s := { s with fuse := if ok then x.blow kind arg else x }.fuseRec seq
    let s := if ok ∧ kind = 1 ∧ live then s.raise .clu (arg.extractLsb' 8 6).toNat 2 else s
    .next (s.raise .fuse 0 (if ok then 1 else 2))

end Sys2Proof.Machine
end

