-- ==== Sys2Proof/Machine/Boot.lean ====
section
/-! DEFINITION. Start-up, resets and modes (chapters 1, 9 and 16): cold start, warm reset, PCIe reset, configuration
writes, stage and partitioned mode, and the tenancy lock. -/

namespace Sys2Proof.Machine

/-! ## Cold reset and cold start (R35, R584–R586) -/

/-- COLD_RESET (R35, R590): SYS_RESET_N falls, or power comes on. -/
def execColdReset (s : State) : Out := .next s.coldReset

/-- An INPUT record (R553) of the sideband pins, which I/O die 1 holds. -/
def State.inputRec (s : State) : State := s.record { ErrRec.mk0 0x10 sevInfo (srcOf 4 3) with owner := ownerByte none }

/-- COLD_START (R582, R584): SYS_RESET_N rises; the straps are sampled. DEDUCED: assumptions 10, 20. -/
def execColdStart (bootMode : BitVec 2) (slotId : BitVec 6) (s : State) : Out :=
  if s.sys.started then .next s
  else
    let cold := if s.sys.coldResets = 0xFFFFFFFF then s.sys.coldResets else s.sys.coldResets + 1
    let s := { s with
      sys := { s.sys with started := true, phase := 1, bootMode := bootMode, slotId := slotId, coldResets := cold, time := 0 }
      mgmt := { s.mgmt with pins := s.mgmt.pins ||| 1, upAt := 1000000 } }
    .next (if bootMode = 3 then s.inputRec else s)

/-- A failed start (R581, R585). -/
def State.bootFail (s : State) (code : BitVec 4) : State :=
  { s with sys := { s.sys with phase := 0xF, bootErr := code, warm := none } }

/-- Settle a fuse operation that a reset cut short (R562): `blown` says whether its fuses were blown.
DEDUCED: assumptions 22, 23. -/
def State.settleFuses (s : State) (blown : Bool) : State :=
  match s.fuse.op with
  | none => s
  | some (kind, arg) =>
    let x := { s.fuse with op := none, audit := settleAudit blown s.fuse.audit }
    ({ s with fuse := if blown then x.blow kind arg else x }).raise .fuse 0 (if blown then 1 else 2)

/-- Whether the boot ROM starts an image (R579, R580). DESIGN CHOICE: assumption 132. -/
def State.imageOk (s : State) (x : ImageRead) : Bool :=
  x.magic == 0x54363453 && decide (0x10000 ≤ x.length.toNat ∧ x.length.toNat ≤ 0x800000 - 512) &&
  x.length.toNat % 4096 == 0 && decide (x.keySlot.toNat ≤ 4) && !s.fuse.revoked.getLsbD x.keySlot.toNat &&
  x.keyHashOk && x.sigOk

/-- The image that the boot ROM starts (R580): image A first. DESIGN CHOICE: assumption 132. -/
def State.chooseImage (s : State) (a b : ImageRead) : Option (Bool × Word) :=
  if s.imageOk a then some (false, a.version) else if s.imageOk b then some (true, b.version) else none

/-- READY is reached after a cold start (R584, R590): ignored warm-reset sources are reported.
DEDUCED: assumptions 20, 129. -/
def State.bootReady (s : State) : State :=
  let s := { s with sys := { s.sys with phase := 7, pcieUp := !s.sys.pcieHeld } }
  if s.sys.warmIgnored = 0 then s
  else
    let n := s.sys.warmIgnored
    (((List.range n).foldl (fun s _ => s.inputRec) s).raise .glb 0 4)

/-- The cellar phase has ended (R584, R452): the device region is written under the device key, and no buddy half holds
an image. DEDUCED: assumption 50. -/
def State.cellarReady (s : State) : State :=
  let k := s.keyOf 64
  let first := 0xBE0000000 / 0x200000
  { s with
    cel := { s.cel with
      mem := s.cel.mem.keep fun a _ => decide (a / 0x200000 < first ∨ first + 256 ≤ a / 0x200000)
      poison := s.cel.poison.keep fun u _ => decide (u / 0x8000 < first ∨ first + 256 ≤ u / 0x8000)
      pageKey := (List.range 256).foldl (fun m i => m.put 0 (first + i) k) s.cel.pageKey }
    ckpt := { s.ckpt with half := [] } }

/-- BOOT_PHASE_DONE (R564, R580, R582–R585): the phase that runs ends with what it found. The SRAM phase runs beside
CELLAR. DEDUCED: assumptions 10, 23; DESIGN CHOICE: assumption 132. -/
def execBootPhaseDone (x : BootReport) (s : State) : Out :=
  let go (s : State) (p : BitVec 4) : State := { s with sys := { s.sys with phase := p } }
  if !s.sys.started ∨ s.sys.warm.isSome then .next s
  else match x with
  | .pll => .next (if s.sys.phase = 1 then { go s 2 with sys := { (go s 2).sys with time := 0 } } else s)
  | .fuse readOk auditOk blown =>
    if s.sys.phase ≠ 2 ∨ s.sys.flashRelease then .next s
    else if !readOk then .next (s.bootFail 3)
    else
      let s := s.settleFuses blown
      let s := if auditOk then s
        else ({ s with fuse := { s.fuse with auditBad := true } }).record
          { ErrRec.mk0 0x15 sevDevice (srcOf 3 0) with owner := ownerByte none }
      if s.sys.bootMode = 2 then .next { s with sys := { s.sys with flashRelease := true } }
      else .next (let s := go s 3; { s with sys := { s.sys with pcieUp := !s.sys.pcieHeld } })
  | .image a b =>
    if s.sys.phase ≠ 3 then .next s
    else match s.chooseImage a b with
      | none => .next (s.bootFail 1)
      | some (img, v) => .next (let s := go s 4; { s with sys := { s.sys with imageB := img, imageVersion := v } })
  | .keys entropyOk =>
    if s.sys.phase ≠ 4 then .next s
    else if !entropyOk then .next (s.bootFail 2)
    else .next (let s := go (s.newKey 64) 5
      { s with sys := { s.sys with tenancyLock := false, deviceKey := true } })
  | .cellar trainedOk =>
    if s.sys.phase ≠ 5 then .next s
    else if !trainedOk then .next (s.bootFail 4)
    else
      let s := s.cellarReady
      .next (if s.sys.sramDone then s.bootReady else go s 6)
  | .sram failed =>
    if (s.sys.phase ≠ 5 ∧ s.sys.phase ≠ 6) ∨ s.sys.sramDone then .next s
    else
      let s := if s.sys.bootMode = 1 then
          failed.foldl (fun s e => if s.bankHole e.1.val then s else s.mapOut e.1.val e.2.val true) s
        else s
      let s := { s with sys := { s.sys with sramDone := true } }
      .next (if s.sys.phase = 6 then s.bootReady else s)

/-! ## Warm reset (R587–R590) -/

/-- A warm-reset source other than PERST_N: it acts once READY, merges with one in progress, and is counted while a
cold start runs (R590). -/
def State.warmSource (s : State) (src : WarmSource) : State :=
  if s.sys.warm.isSome ∨ s.warmable then s.warmBegin src
  else if s.sys.started ∧ 1 ≤ s.sys.phase.toNat ∧ s.sys.phase.toNat ≤ 6 then
    { s with sys := { s.sys with warmIgnored := s.sys.warmIgnored + 1 } }
  else s

/-- WARM_RESET_PIN (R35, R590): a falling edge of WARM_RESET_N has been accepted. DEDUCED: assumption 130. -/
def execWarmResetPin (s : State) : Out :=
  .next ({ s with mgmt := { s.mgmt with pins := s.mgmt.pins &&& ~~~2#9 } }.warmSource .pin)

/-- PERST_ASSERT (R36, R586, R588): PERST_N falls. It holds the PCIe controller in reset in every state, and is a
warm-reset source only once the device has been READY. DEDUCED: assumption 20. -/
def execPerstAssert (s : State) : Out :=
  let s := { s with
    sys := { s.sys with pcieHeld := true, pcieUp := false }
    mgmt := { s.mgmt with pins := s.mgmt.pins &&& ~~~4#9 } }
  .next (if s.sys.warm.isSome ∨ s.warmable then s.warmBegin .perst else s.pcieReset)

/-- PERST_N_RISE (R586): the PCIe controller leaves reset, and its link trains unless the flash is released (R582) or
the controller has not been released by the boot ROM (R584). DEDUCED: assumption 129. -/
def execPerstNRise (s : State) : Out :=
  let up := s.sys.started && decide (3 ≤ s.sys.phase.toNat) && !s.clk.lost.getLsbD 1
  .next { s with
    sys := { s.sys with pcieHeld := false, pcieUp := up }
    mgmt := { s.mgmt with pins := s.mgmt.pins ||| 4 } }

/-- Leave a warm reset at READY (R587 steps 5–7, R588): partition keys are destroyed and SRAM is cleared. -/
def State.warmReady (s : State) (copy img : Bool) (version : Word) : State :=
  let n := if s.sys.warmResets = 0xFFFFFFFF then s.sys.warmResets else s.sys.warmResets + 1
  { s with
    sys := { s.sys with
      phase := 7, warm := none, warmResets := n, cellarCopy := copy, imageB := img, imageVersion := version
      pcieUp := !s.sys.pcieHeld && !s.clk.lost.getLsbD 1 } }.raise .glb 0 1

/-- WARM_RESET (R587): the boot ROM verifies the cellar copy of Spenor, or else an image of the flash, and the device
becomes READY. `blown` settles a fuse operation that the reset cut short (R562). DESIGN CHOICE: assumption 132. -/
def execWarmReset (copy a b : ImageRead) (blown : Bool) (s : State) : Out :=
  if s.sys.warm.isNone then .next s
  else
    let s := s.settleFuses blown
    if s.imageOk copy then .next (s.warmReady true s.sys.imageB copy.version)
    else match s.chooseImage a b with
      | some (img, v) => .next (s.warmReady false img v)
      | none => .next (s.bootFail 1)

/-! ## Configuration space (R566–R572) -/

/-- Send the pending MSI-X messages of a function that are no longer masked, in ascending vector (R572, R573). -/
def State.flushMsix (s : State) (f : Nat) : State :=
  let open_ (v : Nat) : Bool :=
    s.mayRequest f && (s.configOf f).msixEnable && !(s.configOf f).msixMask &&
    !(s.pr .msixTable f (v * 16 + 12)).getLsbD 0
  let vs := (s.host.msixPending.keys.filter fun k => k / 256 == f && open_ (k % 256)).map (· % 256)
  vs.foldl (fun s v =>
    { s with host := { s.host with msixPending := s.host.msixPending.put false (f * 256 + v) false } }.emit
      (.msix (Fin.ofNat 65 f) (BitVec.ofNat 11 v))) s

/-- The same for every function. -/
def State.flushAllMsix (s : State) : State := (List.range 65).foldl State.flushMsix s

/-- CONFIGURATION_WRITE (R566, R572): Bus Master Enable, the power state (of the physical function alone), and MSI-X
Enable and Function Mask of a function take new values. Configuration requests are answered once READY, and by a failed
start for the physical function (R581, R585). DESIGN CHOICE: assumption 26. -/
def execConfigurationWrite (fn : Fin 65) (busMaster d3hot msixEnable msixMask : Bool) (s : State) : Out :=
  let up := s.sys.pcieUp && s.sys.warm.isNone && !s.pwr.trip &&
    (s.sys.phase == 7 || (s.sys.phase == 0xF && fn == 0))
  if !up || !s.fnExists fn.val then .next s
  else
    let c : FnConfig := ⟨busMaster, d3hot && fn == 0, msixEnable, msixMask⟩
    let s := { s with host := { s.host with config := s.host.config.put FnConfig.init fn.val c } }
    .next s.flushAllMsix

/-! ## Stage mode (R308–R310, R348) -/

/-- A field of a register value. -/
def fieldOf (v : Word) (lo n : Nat) : Nat := (v.extractLsb' lo n).toNat

/-- The cross-checks of the STG page's registers (R348), given how each register would read. -/
def stgCross (reg : Nat → Word) : Bool :=
  let p := fieldOf (reg 0x40) 12 12
  let v := fieldOf (reg 0x40) 28 2 + 1
  let inter := fieldOf (reg 0x40) 30 2 == 1
  let words := fieldOf (reg 0x4C) 0 16
  decide (fieldOf (reg 0x40) 0 12 < p) && (inter == decide (2 ≤ v)) &&
  (!inter || fieldOf (reg 0x44) 0 12 % p == 0) && words % 64 == 0 &&
  decide (2 ^ fieldOf (reg 0x4C) 16 4 ≤ words) &&
  decide (fieldOf (reg 0x48) 28 4 + fieldOf (reg 0x48) 24 4 < fieldOf (reg 0x48) 16 6) &&
  (List.range 5).all fun n =>
    decide (words ≤ 2 ^ fieldOf (reg 0x68) (4 * (4 - n)) 4) || fieldOf (reg (0x100 + 64 * n)) 0 16 ≠ 0

/-- Check 0x4: the committed STG fields lie in their ranges and pass the cross-checks. -/
def State.stgFieldsOk (s : State) : Bool :=
  ([0x40, 0x44, 0x48, 0x4C, 0x50, 0x54, 0x58, 0x5C, 0x68].all fun o => fieldsOk .stg 0 o (s.stgReg o)) &&
  stgCross s.stgReg

/-- Whether a handle names a stage area of `part` bytes per cluster (R324). DEDUCED: assumption 25. -/
def areaHandle (h : Handle) (part : Nat) : Bool :=
  h.v && h.rd && h.wr && h.kind == 0 && decide (h.dev.toNat + part ≤ 0x8000000) &&
  h.size.toNat == 63 * 0x8000000 + part

/-- Check 0x5: every handle that the STG page names, with the window and size its field requires.
DEDUCED: assumption 25. -/
def State.stgHandlesOk (s : State) : Bool :=
  let prog (h : Handle) : Bool := h.v && h.rd && h.wr && decide (64 ≤ h.size.toNat)
  let depths := ((List.range 5).map fun n => 2 ^ s.stgField 0x68 (4 * n) 4).foldl (· + ·) 0
  let cel := s.stgHandle 0x50 0
  areaHandle (s.stgHandle 0x50 16) (s.sramSlots * s.itemWords * 64) &&
  (s.cellarSlots == 0 || (cel.v && cel.rd && cel.wr && cel.kind == 1 &&
    decide (s.cellarSlots * s.itemBytes ≤ cel.size.toNat))) &&
  areaHandle (s.stgHandle 0x54 16) (2 * s.itemWords * 64) && areaHandle (s.stgHandle 0x54 0) (2 * s.itemWords * 64) &&
  areaHandle (s.stgHandle 0x64 0) (depths * 64) && prog (s.stgHandle 0x58 16) && prog (s.stgHandle 0x58 0) &&
  prog (s.stgHandle 0x5C 0) && (!(s.stgReg 0x5C).getLsbD 28 || prog (s.stgHandle 0x5C 16))

/-- Check 0x6: the pages of the cellar stash area are mapped. DEDUCED: assumption 25. -/
def State.stgPagesOk (s : State) : Bool :=
  let n := s.cellarSlots * s.itemBytes
  let v := (s.stgHandle 0x50 0).dev.toNat % 0x1000000000
  n == 0 || (List.range ((v + n - 1) / 0x200000 - v / 0x200000 + 1)).all fun i =>
    (s.pteOf 0 (v / 0x200000 + i)).getLsbD 63

/-- The code of the first entry check that fails (R308); 0: none. DEDUCED: assumption 24. -/
def State.entryCheck (s : State) : BitVec 4 :=
  let others := (List.range 63).any fun p => s.configured (p + 1)
  let busy := !s.fe.flights.isEmpty || s.fe.queues.any fun (e : Nat × SwQueue) => !e.2.entries.isEmpty
  let mapped := s.syn.vmap.any fun (e : Nat × BitVec 32) =>
    decide (e.1 < 4096) && vmapV e.2 && vmapCluster e.2 == 0 && decide (192 ≤ vmapCounter e.2)
  if s.sys.tenancyLock then 1
  else if (s.clustersOf 0).length ≠ 64 || others then 2
  else if busy then 3
  else if !s.stgFieldsOk then 4
  else if !s.stgHandlesOk then 5
  else if !s.stgPagesOk then 6
  else if !s.areaOk 0 then 7
  else if mapped then 8
  else 0

/-- Enter stage mode (R309); the stage counters are cleared (R348). -/
def State.enterStage (s : State) : State :=
  let s := s.runStage
  let s := State.clearStageCounters { s with
    sys := { s.sys with stageMode := true }
    stg := { Stg.reset with st := 1, fault := s.stg.fault, stepsLeft := s.stg.stepsLeft }
    ckpt := { s.ckpt with uncommitted := false } }
  ((s.clearRegs .stg 0 0x80 0xB0).raise .stg 0 1).raise .glb 0 2

/-- A request for stage mode (R308): granted or refused, and refused with its code and logged; it has no effect in stage
mode. DEDUCED: assumption 24. -/
def State.stageRequest (s : State) (f : Fn) (t : Target) : State :=
  if s.sys.stageMode then s
  else
    let code := s.entryCheck
    if code = 0 then s.enterStage
    else ({ s.rejectState f t with stg := { s.stg with entryErr := code } }).raise .stg 0 1

/-- A request for partitioned mode (R310), granted only in the READY state of stage mode. DEDUCED: assumption 24. -/
def State.partRequest (s : State) : State :=
  if !s.sys.stageMode || s.stg.st ≠ 1 then s
  else
    let s := [0, 1, 2, 3, 4].foldl (fun s q => s.queFlush (.stg (Fin.ofNat 5 q))) s
    let s := { s with
      sys := { s.sys with stageMode := false }
      stg := { Stg.reset with
        entryErr := s.stg.entryErr, fault := s.stg.fault, stepsLeft := s.stg.stepsLeft } }
    s.runPlanned.raise .glb 0 2

/-- What an accepted write of GLB.CTRL does (R589, R308, R310): a warm reset, or a mode request. -/
def State.glbCtrl (s : State) (f : Fn) (t : Target) (v : Word) : State :=
  if v.getLsbD 31 then (if s.warmable then s.warmBegin .glb else s)
  else if v.extractLsb' 0 2 = 1 then s.stageRequest f t
  else if v.extractLsb' 0 2 = 2 then s.partRequest
  else s

/-- GLB_WARM_RESET (R589): a write of GLB.CTRL with WARM_RESET = 1 and the given KEY. DEDUCED: assumption 21. -/
def execGlbWarmReset (f : Fn) (key : BitVec 8) (s : State) : Out :=
  let v : Word := 0x80000000 ||| (key.zeroExtend 32 <<< 8)
  match s.openAt f ⟨.glb, 0⟩ 0x08 v with
  | .error s => .next s
  | .ok t => .next (s.glbCtrl f t v)

/-- STAGE_MODE_REQUEST (R308, R309): a write of MODE_REQ = 0b01. -/
def execStageModeRequest (f : Fn) (s : State) : Out :=
  match s.openAt f ⟨.glb, 0⟩ 0x08 1 with
  | .error s => .next s
  | .ok t => .next (s.stageRequest f t)

/-- PARTITIONED_MODE_REQUEST (R310): a write of MODE_REQ = 0b10. -/
def execPartitionedModeRequest (f : Fn) (s : State) : Out :=
  match s.openAt f ⟨.glb, 0⟩ 0x08 2 with
  | .error s => .next s
  | .ok _ => .next s.partRequest

/-- An accepted write of 1 to GLB.TENANCY (R532, R534). DEDUCED: assumption 123. -/
def State.lockTenancy (s : State) (f : Fn) (t : Target) : State :=
  if s.sys.stageMode then s.rejectState f t
  else if s.sys.tenancyLock then s
  else
    let n := min 255 ((s.fuse.audit.foldl (fun m e => if e.kind = 4 then max m e.used.toNat else m) 0) + 1)
    ({ s with sys := { s.sys with tenancyLock := true } }).audit 4 2 0 n

/-- TENANCY_LOCK (R532–R534): a write of 1 to GLB.TENANCY.LOCK. -/
def execTenancyLock (f : Fn) (s : State) : Out :=
  match s.openAt f ⟨.glb, 0⟩ 0xC0 1 with
  | .error s => .next s
  | .ok t => .next (s.lockTenancy f t)

end Sys2Proof.Machine
end

