-- ==== Sys2Proof/Machine/Power.lean ====
section
/-! DEFINITION. Power, temperature, rails, reference clocks and the time base (chapter 17, R592–R612). -/

namespace Sys2Proof.Machine

/-! ## Device faults of shared units (R39, R598, R606, R609) -/

/-- A SHARED_UNIT record of severity DEVICE, with the failing rail, clock or sensor in DETAIL. -/
def State.sharedRec (s : State) (src : BitVec 16) (detail : Nat) : State :=
  s.record { ErrRec.mk0 0x15 sevDevice src with owner := ownerByte none, detail := BitVec.ofNat 256 detail }

/-- Take every link port that is neither disabled nor down to DOWN (R606, R609). -/
def State.allLinksDown (s : State) : State :=
  (List.range 16).foldl (fun s l => if (s.link l).st = 0 ∨ (s.link l).st = 6 then s else s.linkDown l) s

/-! ## Temperature (R553, R604–R606) -/

def State.sensorOf (s : State) (i : Nat) : Sensor := s.pwr.sensors.get Sensor.init i

def State.setSensor (s : State) (i : Nat) (x : Sensor) : State :=
  { s with pwr := { s.pwr with sensors := s.pwr.sensors.put Sensor.init i x } }

/-- The sensors of the group that sensor `i` belongs to: regions, I/O dies, stacks. DEDUCED: assumption 124. -/
def sensorGroup (i : Nat) : List Nat :=
  if i < 16 then List.range 16 else if i < 18 then [16, 17] else [18, 19]

/-- The highest of some temperatures. -/
def hottest : List Int → Option Int
  | [] => none
  | t :: ts => match hottest ts with
    | some u => some (max t u)
    | none => some t

/-- The valid readings of some sensors, in 0.125 °C. -/
def State.validTemps (s : State) (is : List Nat) : List Int :=
  (is.filter fun i => (s.sensorOf i).valid && !(s.sensorOf i).failed).map fun i => (s.sensorOf i).raw.toInt

/-- A sensor's temperature in 0.125 °C: its reading, or for a failed sensor the highest valid reading of its neighbours
plus 10 °C (R553, R604); none where there is no reading. -/
def State.temp? (s : State) (i : Nat) : Option Int :=
  let x := s.sensorOf i
  if x.failed then
    match hottest (s.validTemps (sensorGroup i)) with
    | some t => some (t + 80)
    | none => (hottest (s.validTemps (List.range 20))).map (· + 80)
  else if x.valid then some x.raw.toInt else none

/-- The temperatures of all sensors that have one. -/
def State.temps (s : State) : List Int := (List.range 20).filterMap s.temp?

/-- The trip threshold of a sensor in 0.125 °C (R604). -/
def tripAt (i : Nat) : Int := if i < 18 then 880 else 800

/-- Take one sample of a sensor (R553): implausible readings and jumps of more than 20 °C are discarded, and the third
discard in a row fails it. DEDUCED: assumption 124. -/
def State.sampleSensor (s : State) (i : Nat) (raw : BitVec 16) : State :=
  let x := s.sensorOf i
  if x.failed then s
  else
    let t := raw.toInt
    let ok := decide (-320 ≤ t ∧ t ≤ 1200) && (!x.valid || decide ((t - x.raw.toInt).natAbs ≤ 160))
    if ok then
      s.setSensor i { x with raw := raw, valid := true, discards := 0, hits := if tripAt i ≤ t then x.hits + 1 else 0 }
    else
      let s := s.setSensor i { x with discards := x.discards + 1, failed := decide (2 ≤ x.discards) }
      if x.discards = 2 then
        s.record { ErrRec.mk0 0x10 sevInfo (if i < 16 then srcOf 2 i else srcOf 4 (if i < 18 then i - 14 else i - 18)) with
          owner := ownerByte none }
      else s

/-- Trip (R606): no pass issues, the cellar refreshes itself, every link port goes DOWN, and only the management bus
answers until a cold reset. DEDUCED: assumption 125. -/
def State.tripOn (s : State) (i : Nat) : State :=
  let s := { s with pwr := { s.pwr with trip := true } }.allLinksDown
  (s.sharedRec (if i < 16 then srcOf 2 i else srcOf 4 (if i < 18 then i - 14 else i - 18)) i).raise .pwr 0 8

/-- THERM_N's threshold check (R604). -/
def State.warnCheck (s : State) : State :=
  let w : Int := (((s.pr .pwr 0 0x44).extractLsb' 0 8).toNat : Int) * 8
  if s.pwr.warn then
    if s.temps.all fun t => decide (t < w - 24) then { s with pwr := { s.pwr with warn := false } } else s
  else if s.temps.any fun t => decide (w ≤ t) then
    { s with pwr := { s.pwr with warn := true } }.raise .pwr 0 2
  else s

/-- TEMP_SAMPLE (R604, R606): the 20 sensors are sampled, in 0.125 °C. DEDUCED: assumption 124. -/
def execTempSample (raw : List (BitVec 16)) (s : State) : Out :=
  if s.pwr.trip ∨ !s.sys.started then .next s
  else
    let s := (List.range 20).foldl (fun s i => match raw[i]? with
      | some x => s.sampleSensor i x
      | none => s) s
    let limit : Int := (((s.pr .ckpt 0 0x44).extractLsb' 0 8).toNat : Int) * 8
    let s := s.ckptWarn 28 ((List.range 18).any fun i => ((s.temp? i).map fun t => decide (limit ≤ t)).getD false)
    let s := s.warnCheck
    match (List.range 20).find? fun i => decide (3 ≤ (s.sensorOf i).hits) with
    | some i => .next (s.tripOn i)
    | none => .next s

/-! ## The capping controller (R600–R603, R607) -/

/-- PL_SLOW and PL_FAST in force, in 0.1 W (R600). -/
def State.plSlow (s : State) : Nat :=
  10 * min ((s.pr .pwr 0 0x40).extractLsb' 0 9).toNat ((s.pr .pwr 0 0x78).extractLsb' 0 9).toNat
def State.plFast (s : State) : Nat := 10 * ((s.pr .pwr 0 0x40).extractLsb' 16 9).toNat

/-- CAP_T in 0.125 °C. -/
def State.capT (s : State) : Int := (((s.pr .pwr 0 0x44).extractLsb' 8 8).toNat : Int) * 8

/-- A check that would raise k (R602): at 24 it sets SAT and adds one INFO record per second. -/
def State.raiseK (s : State) : State :=
  if s.pwr.k < 24 then
    let s' := { s with pwr := { s.pwr with k := s.pwr.k + 1 } }
    if s.pwr.k = 0 then s'.raise .pwr 0 1 else s'
  else
    let due := match s.pwr.satAt with
      | some t => decide (1000000000 ≤ (s.sys.time - t).toNat)
      | none => true
    if due then
      { s with pwr := { s.pwr with sat := true, satAt := some s.sys.time } }.record
        { ErrRec.mk0 0x10 sevInfo (srcOf 4 3) with owner := ownerByte none }
    else { s with pwr := { s.pwr with sat := true } }

/-- Changes of limits and thresholds that act at this evaluation (R607, R621). -/
def State.capStaged (s : State) : State :=
  let s := s.safePoints ⟨.pwr, 0⟩
  match s.pwr.boardCap with
  | some v => { s.setPr .pwr 0 0x78 v with pwr := { s.pwr with boardCap := none } }
  | none => s

/-- The checks of one evaluation (R602, R607): fast, slow every 10 µs, thermal and release every 100 µs; k moves by at
most one. DEDUCED: assumption 125. -/
def State.capChecks (s : State) : State :=
  let p := s.pwr.p100us.toNat
  let c := s.pwr.pClk.toNat
  let n := s.pwr.evals
  let k := s.pwr.k
  let fast := decide (s.plFast < p)
  let slow := decide (n % 10 = 0) && decide (s.plSlow < p)
  let hot := decide (n % 100 = 0) && s.temps.any fun t => decide (s.capT ≤ t)
  if fast || slow || hot then
    let s' := s.raiseK
    if !fast && !slow && decide (k < 24) then { s' with pwr := { s'.pwr with thermalAt := some s.sys.time } } else s'
  else if n % 100 = 0 ∧ 0 < k ∧ (p - c) * (32 - k) + c * (33 - k) + 20 * (32 - k) ≤ s.plSlow * (32 - k) ∧
      (s.temps.all fun t => decide (t < s.capT - 24)) then
    { s with pwr := { s.pwr with k := k - 1, sat := false, satAt := none } }
  else s

/-- CAP_EVAL (R602, R607): one evaluation of the controller, each µs: the 100 µs and 10 ms averages of package power and
the part on `VDD_ARRAY` and `VDD_SRAM`, in 0.1 W, and the rail readings.
DEDUCED: assumption 4; DESIGN CHOICE: assumption 126. -/
def execCapEval (p100us p10ms pClk : BitVec 16) (rails : List (Fin 9 × Word)) (s : State) : Out :=
  if !s.sys.started then .next s
  else
    let x := { s.pwr with
      p100us := p100us, p10ms := p10ms, pClk := pClk, evals := s.pwr.evals + 1
      rails := rails.foldl (fun m e => m.put 0 e.1.val e.2) s.pwr.rails }
    let s := { s with pwr := x }
    if s.pwr.trip then .next s else .next s.capStaged.capChecks

/-! ## Rails (R593, R594, R598) -/

/-- RAIL_EXCURSION (R598): a rail, numbered as R592 orders them, has been out of tolerance for 2 µs. `VDD_AUX` (8) resets
the management block; any other is a device fault. DEDUCED: assumption 125. -/
def execRailExcursion (rail : Fin 9) (s : State) : Out :=
  let s := { s with pwr := { s.pwr with railOk := s.pwr.railOk &&& ~~~(1#9 <<< rail.val) } }
  if rail.val = 8 then
    .next { s with
      pwr := { s.pwr with auxAt := some s.sys.time }
      mgmt := { s.mgmt with addr := 0, data := [], ack := false } }
  else
    let s := { s with pwr := { s.pwr with railFault := s.pwr.railFault ||| (1#9 <<< rail.val) } }
    .next (((((s.bump .pwr 0 0x7C).sharedRec (srcOf 4 3) rail.val).raise .pwr 0 4)).deviceFault 0x0025)

/-- RAIL_RETURN (R598): a rail is within tolerance again; the management block is back within 1 ms of `VDD_AUX`'s
return. -/
def execRailReturn (rail : Fin 9) (s : State) : Out :=
  if s.pwr.railOk.getLsbD rail.val then .next s
  else
    let s := { s with pwr := { s.pwr with railOk := s.pwr.railOk ||| (1#9 <<< rail.val) } }
    if rail.val = 8 then
      .next { s with
        pwr := { s.pwr with auxAt := some s.sys.time }
        mgmt := { s.mgmt with upAt := s.sys.time + 1000000 } }
    else .next s

/-- Regions whose plans wait for the rail go on (`ok`) or drop them (R594). -/
def State.railDone (s : State) (ok : Bool) : State :=
  let s := { s with pwr := { s.pwr with reqPending := false } }
  (List.range 16).foldl (fun s r =>
    let x := s.regionOf r
    if !x.railWait then s
    else if ok then (s.setRegion r { x with railWait := false }).advancePlan r
    else s.setRegion r { x with railWait := false, pending := none }) s

/-- ARRAY_RAIL_SETTLED (R594): `VDD_ARRAY` measures `mv`; within 5 mV of a pending request, the plans that wait for it
go on. -/
def execArrayRailSettled (mv : BitVec 10) (s : State) : Out :=
  let s := { s with pwr := { s.pwr with meas := mv } }
  let gap := ((mv.toNat : Int) - s.pwr.req.toNat).natAbs
  if s.pwr.reqPending ∧ gap ≤ 5 then .next (s.railDone true) else .next s

/-- ARRAY_REQ_TIMEOUT (R594): the rail has not settled within 1 s of the request, so the old plan stays. -/
def execArrayReqTimeout (s : State) : Out :=
  if s.pwr.reqPending ∧ 1000000000 ≤ (s.sys.time - s.pwr.reqAt).toNat then .next ((s.railDone false).railLower).inputRec
  else .next s

/-! ## Reference clocks (R609) -/

/-- End every outstanding read of host memory as a completion timeout does (R577, R609). -/
def State.dropHostReads (s : State) : State :=
  let rs := s.host.reads
  let s := { s with host := { s.host with reads := [] } }
  (rs.foldl (fun s r => s.failHostRead r 0x0025) s).finishInval

/-- REFCLK_LOSS (R609): SYS_REFCLK (0), PCIE_REFCLK (1) or LINK_REFCLK (2) is lost. DEDUCED: assumption 125. -/
def execRefclkLoss (c : Fin 3) (s : State) : Out :=
  if s.clk.lost.getLsbD c.val then .next s
  else
    let s := { s with clk := { s.clk with lost := s.clk.lost ||| (1#3 <<< c.val) } }.raise .clk 0 1
    if c.val = 0 then .next ((s.sharedRec (srcOf 4 3) 16).deviceFault 0x0025)
    else if c.val = 1 then .next { s with sys := { s.sys with pcieUp := false } }.dropHostReads
    else .next s.allLinksDown

/-- REFCLK_RETURN (R609). -/
def execRefclkReturn (c : Fin 3) (s : State) : Out :=
  if !s.clk.lost.getLsbD c.val then .next s
  else
    let s := { s with clk := { s.clk with lost := s.clk.lost &&& ~~~(1#3 <<< c.val) } }.raise .clk 0 1
    if c.val = 1 then
      .next { s with sys := { s.sys with pcieUp := !s.sys.pcieHeld && decide (3 ≤ s.sys.phase.toNat) } }
    else .next s

/-! ## The time base and TICK (R610–R612) -/

/-- CLK.TICK_CFG.MODE and REPEAT. -/
def State.tickMode (s : State) : BitVec 2 := (s.pr .clk 0 0x40).extractLsb' 0 2
/-- DESIGN CHOICE: assumption 126. -/
def State.tickRepeat (s : State) : Bool := (s.pr .clk 0 0x40).getLsbD 2

/-- Load the time base (R612); the regulators' refill goes on from the new time. DESIGN CHOICE: assumption 126. -/
def State.loadTime (s : State) (v : BitVec 64) : State :=
  { s with sys := { s.sys with time := v }, parts := { s.parts with refill := v.toNat / 1000 } }

/-- An ignored or missing edge: the fourth in a row clears LOCKED (R611). DESIGN CHOICE: assumption 126. -/
def State.tickMiss (s : State) : State :=
  let n := s.clk.bad + 1
  let s' := { s with clk := { s.clk with bad := n, good := 0, locked := s.clk.locked && decide (n < 4) } }
  if s.clk.locked ∧ 4 ≤ n then s'.raise .clk 0 2 else s'

/-- The error of an edge (R610): the time base less the nearest multiple of 1 ms. -/
def tickError (t : BitVec 64) : Int :=
  let m := t.toNat % 1000000
  if m < 500000 then m else (m : Int) - 1000000

/-- An accepted edge (R610, R611): its error is spread over the next 1 ms, the trim is updated (a free value, for the
manual gives no law), and the fourth error in a row within 20 ns sets LOCKED. DESIGN CHOICE: assumption 126. -/
def State.tickAccept (s : State) (e : Int) : State :=
  let f := s.free
  let s := f.2
  let good := if e.natAbs ≤ 20 then s.clk.good + 1 else 0
  { s with clk := { s.clk with
      err := e, errs := (e :: s.clk.errs).take 16, trim := f.1.truncate 24, good := good, bad := 0
      locked := s.clk.locked || decide (4 ≤ good), lastEdge := some s.sys.time, missFrom := none
      slew := -e, slewDone := 0, slewNs := 0
      tickOutAt := if s.tickRepeat then some (s.sys.time + 20) else s.clk.tickOutAt } }

/-- TICK_IN_EDGE (R610, R612): a rising edge of TICK_IN has passed its filter. -/
def execTickInEdge (s : State) : Out :=
  if s.tickMode ≠ 1 ∨ !s.sys.started then .next s
  else
    let e := tickError s.sys.time
    let timely := match s.clk.lastEdge with
      | some t => decide (900000 ≤ (s.sys.time - t).toNat ∧ (s.sys.time - t).toNat ≤ 1100000)
      | none => true
    if !timely || decide (500 < e.natAbs) then .next (s.bump .clk 0 0x54).tickMiss
    else
      let s := s.tickAccept e
      match s.clk.armed with
      | some v =>
        let s := s.loadTime v
        .next { s with clk := { s.clk with armed := none, lastEdge := some v, slew := 0 } }
      | none => .next s

/-- TICK_EDGE_MISSING (R611): 1.1 ms after the last accepted edge, and 1 ms after each edge found missing, none has
come. -/
def execTickEdgeMissing (s : State) : Out :=
  match s.clk.lastEdge with
  | none => .next s
  | some t =>
    let due := match s.clk.missFrom with
      | some m => m + 1000000
      | none => t + 1100000
    if s.tickMode = 1 ∧ due.toNat ≤ s.sys.time.toNat then
      .next ({ s with clk := { s.clk with missFrom := some due } }).tickMiss
    else .next s

/-- TICK_SOURCE (R610): in source mode TICK_OUT rises for 100 ns at each multiple of 1 ms. -/
def execTickSource (s : State) : Out :=
  if s.tickMode = 2 ∧ s.sys.started ∧ s.sys.time.toNat % 1000000 = 0 then
    .next { s with clk := { s.clk with tickOutTill := some (s.sys.time + 100) } }
  else .next s

/-- An accepted write of CLK.TIME_SET (R612): armed in follow mode, loaded at once in the others. -/
def State.timeSet (s : State) (f : Fn) (t : Target) (v : BitVec 64) : State :=
  if s.sys.stageMode || (List.range 64).any fun p => s.configured p then s.rejectState f t
  else
    let s := s.setPr64 .clk 0 0x44 v
    if s.tickMode = 1 then { s with clk := { s.clk with armed := some v } } else s.loadTime v

/-- TIME_SET (R612, R632): a 32-bit write of TIME_SET_HI after one of TIME_SET_LO, or (`wide`) a 64-bit write of the
pair. -/
def execTimeSet (f : Fn) (wide : Bool) (v : BitVec 64) (s : State) : Out :=
  match s.openAt f ⟨.clk, 0⟩ 0x48 (v.extractLsb' 32 32) with
  | .error s => .next s
  | .ok t =>
    if wide then .next (s.timeSet f t v)
    else match s.wbufOf f ⟨.clk, 0⟩ with
      | some h =>
        if h.offset = 0x44 then
          .next ((s.setWbuf f ⟨.clk, 0⟩ none).timeSet f t (v.extractLsb' 32 32 ++ h.value))
        else .next (s.rejectState f t)
      | none => .next (s.rejectState f t)

/-! ## One nanosecond (R26, R610) -/

/-- The nanoseconds that the time base advances in one (R610, R611): 1, with a correction's counts evenly spread over
1 ms. -/
def Clk.tick (x : Clk) : Nat × Clk :=
  if x.slew = x.slewDone then (1, x)
  else
    let n := x.slewNs + 1
    let want := x.slew * (n : Int) / 1000000
    if x.slewDone < want then (2, { x with slewNs := n, slewDone := x.slewDone + 1 })
    else if want < x.slewDone then (0, { x with slewNs := n, slewDone := x.slewDone - 1 })
    else (1, { x with slewNs := n })

/-- Advance the time base. -/
def State.tickTime (s : State) : State :=
  let r := s.clk.tick
  let t := s.sys.time + BitVec.ofNat 64 r.1
  let out := match r.2.tickOutAt with
    | some a => decide (a.toNat ≤ t.toNat)
    | none => false
  { s with
    sys := { s.sys with time := t }
    clk := if out then { r.2 with tickOutAt := none, tickOutTill := some (t + 100) } else r.2 }

end Sys2Proof.Machine
end

