-- ==== Sys2Proof/Machine/View.lean ====
section
/-! DEFINITION. What a register reads as (R626–R632, R646): the values that the state holds outside the register
file, and the stored value of every other register. -/

namespace Sys2Proof.Machine

/-- A word with one bit set where the condition holds. -/
def bitAt (n : Nat) (b : Bool) : Word := if b then 1#32 <<< n else 0

/-- A field of a word. -/
def fieldAt (lo n : Nat) : Word := BitVec.ofNat 32 (n * 2 ^ lo)

/-- The low or the high half of a 64-bit value. -/
def halfWord (v : BitVec 64) (hi : Bool) : Word := if hi then v.extractLsb' 32 32 else v.truncate 32

/-! ## Common registers (R626–R629, R636) -/

/-- Whether a page holds staged fields (R629); those of the FUSE page are its count-limited requests (R630). -/
def PageKind.staged (k : PageKind) : Bool := k == .fuse || k.regs.any fun r => r.acc == .rws

/-- Queue register blocks in a page (R274). -/
def PageKind.qBlocks : PageKind → Nat
  | .stg => 5 | .coll => 32 | .lnk => 1 | .part => 1 | _ => 0

/-- Commit groups of a page (R638). DEDUCED: assumption 31. -/
def PageKind.groups (k : PageKind) : Nat :=
  match k with
  | .clu => 2 | .part => 5 | .coll => 33 | .lnk => 2 | .fe => 17 | .budget => 5
  | k => if k.staged then 1 else 0

/-- Whether a virtual function's aperture shows a page of this type (R625). -/
def PageKind.inVf (k : PageKind) : Bool := [PageKind.part, .fe, .htab, .stg, .coll, .ckpt].contains k

/-- CAPS (R629). DESIGN CHOICE: assumption 38. -/
def PageKind.caps (k : PageKind) : Word :=
  bitAt 31 k.staged ||| bitAt 30 k.inVf ||| bitAt 29 (k.intMask ≠ 0) ||| fieldAt 16 k.qBlocks ||| fieldAt 8 k.groups

/-- ID (R628), and GLB.ID. -/
def State.viewId (s : State) (p : PageId) : Word :=
  match p.kind with
  | .glb => s.fuse.vendor ++ (0x640#12 ++ s.fuse.stepping)
  | k => (k.typeCode ++ 0#8) ++ (BitVec.ofNat 8 p.inst ++ 1#8)

/-- CAPS, and GLB.CAPS (R5). DESIGN CHOICE: assumption 38. -/
def State.viewCaps (s : State) (p : PageId) : Word :=
  match p.kind with
  | .glb => fieldAt 30 s.fuse.grade.toNat ||| fieldAt 24 s.gradeTiles ||| fieldAt 17 64 ||| fieldAt 12 16 ||| fieldAt 6 48
  | k => k.caps

/-- STAGE_COMMIT (R636). -/
def State.viewCommit (s : State) (p : PageId) : Word :=
  let c := s.commitOf p
  let map := p.kind == .route && s.lk.mapStaged.any fun e => e.2.isSome
  bitAt 31 (!(s.stagedKeys p).isEmpty || map) ||| bitAt 30 c.waiting ||| fieldAt 28 c.last.toNat |||
    fieldAt 2 c.applied.toNat

/-! ## Queue register blocks (R274) -/

/-- The word at offset `o` of an instance's register block, where the state holds it. -/
def State.viewQueue (s : State) (q : QInst) (o : Nat) : Option Word :=
  let x := s.que1 q
  if o = 0x04 then some (s.queWm q)
  else if o = 0x08 then
    some (bitAt 31 x.wm ||| bitAt 30 x.flushing ||| fieldAt 16 (s.depthLog2 q) ||| fieldAt 0 (s.occ q))
  else if o = 0x10 then some (fieldAt 0 (s.credits q))
  else none

/-! ## Device control pages -/

/-- GLB.STATUS (R591). -/
def Sys.status (x : Sys) : Word :=
  fieldAt 28 x.phase.toNat ||| fieldAt 24 (if x.phase = 0xF then x.bootErr.toNat else 0) ||| bitAt 23 x.stageMode |||
    bitAt 22 x.imageB ||| bitAt 21 x.cellarCopy ||| fieldAt 18 x.bootMode.toNat ||| fieldAt 12 x.slotId.toNat |||
    fieldAt 8 x.lastReset.toNat

def State.viewGlb (s : State) (off : Nat) : Option Word :=
  let x := s.sys
  match off with
  | 0x00C => some x.status
  | 0x040 => some (halfWord s.fuse.serial false)
  | 0x044 => some (halfWord s.fuse.serial true)
  | 0x048 => some (halfWord x.time false)
  | 0x04C => some (halfWord x.time true)
  | 0x050 => some x.imageVersion
  | 0x054 => some x.coldResets
  | 0x058 => some x.warmResets
  | 0x0C0 => some (bitAt 0 x.tenancyLock)
  | _ => none

/-- The hottest sensor and its temperature (R604, PWR.TEMP_MAX); none where no sensor has a temperature. -/
def State.hottestSensor (s : State) : Option (Nat × Int) :=
  (List.range 20).foldl (fun (best : Option (Nat × Int)) i => match s.temp? i, best with
    | some t, some b => if b.2 < t then some (i, t) else best
    | some t, none => some (i, t)
    | none, _ => best) none

/-- PWR.STATUS (R621): THERMAL shows the last 100 µs, and CEL_HOT a stack above 85 °C (R605). -/
def State.pwrStatus (s : State) : Word :=
  let x := s.pwr
  let thermal := (x.thermalAt.map fun t => decide ((s.sys.time - t).toNat ≤ 100000)).getD false
  let hot := [18, 19].any fun i => ((s.temp? i).map fun t => decide (680 < t)).getD false
  bitAt 31 (x.k ≠ 0) ||| bitAt 30 thermal ||| bitAt 29 x.sat ||| bitAt 28 x.trip ||| bitAt 27 hot ||| fieldAt 0 x.k

/-- PWR.TEMP_DATA of a sensor: a failed sensor shows its stand-in value (R553, R604). -/
def State.tempData (s : State) (i : Nat) : Word :=
  let x := s.sensorOf i
  bitAt 31 (x.valid && !x.failed) ||| bitAt 30 x.failed |||
    match s.temp? i with
    | some t => (BitVec.ofInt 16 t).zeroExtend 32
    | none => 0

def State.viewPwr (s : State) (off : Nat) : Option Word :=
  let x := s.pwr
  match off with
  | 0x00C => some s.pwrStatus
  | 0x048 => some (x.p10ms ++ x.p100us)
  | 0x04C => some (x.pClk.zeroExtend 32)
  | 0x050 => some (bitAt 31 x.reqPending ||| x.req.zeroExtend 32)
  | 0x054 => some (x.meas.zeroExtend 32)
  | 0x058 => some (fieldAt 16 x.railFault.toNat ||| fieldAt 0 x.railOk.toNat)
  | 0x060 => some (x.rails.get 0 (s.pr .pwr 0 0x5C).toNat)
  | 0x068 => some (s.tempData (s.pr .pwr 0 0x64).toNat)
  | 0x06C => some (match s.hottestSensor with
    | some b => fieldAt 16 b.1 ||| (BitVec.ofInt 16 b.2).zeroExtend 32
    | none => 0)
  | _ => none

/-- Whether the PLLs are locked (R584, R609): after the PLL phase, while the system clock is present. -/
def State.pllLocked (s : State) : Bool :=
  s.sys.started && s.sys.phase ≠ 1 && !s.clk.lost.getLsbD 0

/-- A value that saturates in `n` signed bits. -/
def satInt (n : Nat) (v : Int) : Int := max (-(2 ^ (n - 1))) (min (2 ^ (n - 1) - 1) v)

/-- A region's frequency under the skip ratio k (R599, R603), rounded down. -/
def State.effMhz (s : State) (r : Nat) : Nat := (s.regionOf r).runMhz.toNat * (32 - s.pwr.k) / 32

def State.viewClk (s : State) (off : Nat) : Option Word :=
  let x := s.clk
  let r := (s.pr .clk 0 0x58).toNat
  match off with
  | 0x00C =>
    let l := s.pllLocked
    some (bitAt 31 (!x.lost.getLsbD 0) ||| bitAt 30 (!x.lost.getLsbD 1) ||| bitAt 29 (!x.lost.getLsbD 2) |||
      bitAt 28 l ||| bitAt 27 l ||| if l then 0xFFFF else 0)
  | 0x04C => some (bitAt 31 x.locked ||| bitAt 30 x.armed.isSome ||| (BitVec.ofInt 16 (satInt 16 x.err)).zeroExtend 32)
  | 0x050 => some (x.trim.zeroExtend 32)
  | 0x05C => some (fieldAt 21 (s.regionOf r).mhz.toNat ||| fieldAt 10 (s.effMhz r) ||| fieldAt 0 s.pwr.k)
  | _ => none

def State.viewAge (s : State) (off : Nat) : Option Word :=
  let x := s.regionOf (s.pr .age 0 0x48).toNat
  match off with
  | 0x044 => some (s.fuse.floorPs.zeroExtend 32)
  | 0x04C => some (fieldAt 21 x.mhz.toNat ||| fieldAt 11 x.mv.toNat ||| fieldAt 0 x.slack.toNat)
  | 0x050 => some (x.drift.zeroExtend 32)
  | _ => none

/-- An audit entry's 32 B (R563). -/
def AuditEnt.raw (e : AuditEnt) : BitVec 256 :=
  (e.mac ++ (0#24 ++ e.used)) ++ ((e.arg ++ e.time) ++ ((e.boot ++ e.state) ++ (e.kind ++ e.seq)))

def State.viewFuse (s : State) (off : Nat) : Option Word :=
  let x := s.fuse
  if off = 0x00C then
    some (bitAt 31 x.op.isSome ||| bitAt 30 x.auditBad ||| fieldAt 9 x.downgrades ||| fieldAt 5 x.lowerings |||
      fieldAt 2 x.revocations)
  else if 0x050 ≤ off ∧ off < 0x070 then
    some (match x.audit[(s.pr .fuse 0 0x4C).toNat]? with
      | some e => e.raw.extractLsb' (8 * (off - 0x050)) 32
      | none => 0)
  else none

/-- Why FAULT_N is low (MGMT.FAULT_SRC, R623). DESIGN CHOICE: assumption 38. -/
def State.faultSrc (s : State) : Word :=
  bitAt 3 s.pwr.trip ||| bitAt 2 (s.sys.phase == 0xF) ||| bitAt 1 s.err.device |||
    bitAt 0 (s.pwr.railOk &&& 0xFF ≠ 0xFF || s.clk.lost.getLsbD 0)

/-- DESIGN CHOICE: assumption 39. -/
def State.viewMgmt (s : State) (off : Nat) : Option Word :=
  match off with
  | 0x040 => some (fieldAt 0 (0x58 + s.sys.slotId.toNat % 8))
  | 0x04C => some (s.mgmt.pins.zeroExtend 32)
  | 0x054 => some s.faultSrc
  | 0x110 => some (fieldAt 4 s.que.stallSampled.toNat ||| fieldAt 0 s.que.stallDriven.toNat)
  | 0x114 => some s.wmGroups
  | _ => none

/-- An error record's 64 B (R539). -/
def ErrRec.raw (r : ErrRec) : BitVec 512 :=
  (r.detail ++ ((r.syndrome ++ r.cause) ++ r.location)) ++
    (((r.count ++ r.flags) ++ (r.owner ++ r.source)) ++ (((r.sev ++ 0#6) ++ r.cls) ++ r.time))

/-- A word of an error record; all zero where there is none. -/
def recWord (r : Option ErrRec) (k : Nat) : Word :=
  match r with
  | some r => r.raw.extractLsb' (32 * k) 32
  | none => 0

def State.viewErr (s : State) (off : Nat) : Option Word :=
  let x := s.err
  if off = 0x00C then some (fieldAt 22 x.ring.length ||| bitAt 17 x.cellarDegraded ||| bitAt 16 x.first.isSome)
  else if off = 0x048 then
    some (fieldAt 0 (x.ceTimes.filter fun t => decide ((s.sys.time - t).toNat < 1000000000)).length)
  else if 0x400 ≤ off ∧ off < 0x440 then some (recWord x.ring.head? ((off - 0x400) / 4))
  else if 0x440 ≤ off ∧ off < 0x480 then some (recWord x.first ((off - 0x440) / 4))
  else none

def State.viewSloe (s : State) (off : Nat) : Option Word :=
  if off = 0x048 then some (fieldAt 16 (s.sloe.patrolUnit * 1000 / 805306368) ||| fieldAt 0 s.sloe.row) else none

/-! ## Memory, stage and training pages -/

def State.viewCel (s : State) (off : Nat) : Option Word :=
  let sel := s.pr .cel 0 0x44
  let pte := s.pteOf (sel.extractLsb' 16 6).toNat (sel.extractLsb' 0 15).toNat
  let keys := (List.range 64).foldl (fun (m : BitVec 64) p => if s.keyOf p = 0 then m else m ||| (1#64 <<< p)) 0
  match off with
  | 0x048 => some (halfWord pte false)
  | 0x04C => some (halfWord pte true)
  | 0x050 =>
    some (fieldAt 16 (s.cel.pte.filter fun e => e.2.getLsbD 59).length ||| fieldAt 0 s.cel.misses.length)
  | 0x054 => some ((s.cel.misses.head?.map Miss.word).getD 0)
  | 0x05C => some (fieldAt 0 s.pagesFree)
  | 0x060 => some (halfWord keys false)
  | 0x064 => some (halfWord keys true)
  | _ => none

def State.viewStg (s : State) (off : Nat) : Option Word :=
  let x := s.stg
  match off with
  | 0x00C =>
    some (fieldAt 28 x.st.toNat ||| fieldAt 24 x.entryErr.toNat ||| bitAt 23 x.throttled ||| fieldAt 16 s.ledgerUsed |||
      fieldAt 0 x.stepsLeft.toNat)
  | 0x0B4 =>
    let sel := (s.pr .stg 0 0xB0).toNat
    some (BitVec.ofNat 32 (leVal (((s.ledger (sel / 16)).bytes.drop (4 * (sel % 16))).take 4)))
  | 0x0BC => some (s.cstash (s.pr .stg 0 0xB8).toNat)
  | 0x0C0 => some (bitAt 31 x.fault.crit ||| fieldAt 16 x.fault.cause.toNat ||| fieldAt 0 x.fault.mb.toNat)
  | _ => none

def State.viewCkpt (s : State) (off : Nat) : Option Word :=
  let x := s.ckpt
  match off with
  | 0x008 => some (bitAt 3 x.toCommitted ||| bitAt 2 x.restore ||| bitAt 1 x.full ||| bitAt 0 x.take)
  | 0x00C => some (fieldAt 28 x.st.toNat ||| fieldAt 24 x.err.toNat ||| fieldAt 0 x.cseq.toNat)
  | 0x058 => some (x.scope.get 0 (s.pr .ckpt 0 0x54).toNat)
  | _ => none

/-! ## Link pages -/

def State.viewLnk (s : State) (l off : Nat) : Option Word :=
  let x := s.link l
  let port := match s.lportOf l with
    | some p => p
    | none => 15
  match off with
  | 0x044 => some (fieldAt 28 x.st.toNat ||| fieldAt 20 port ||| fieldAt 16 x.fails)
  | 0x048 => some (fieldAt 28 x.result.toNat ||| fieldAt 24 x.other.toNat)
  | 0x04C => some (halfWord ((x.ident.map (·.serial)).getD 0) false)
  | 0x050 => some (halfWord ((x.ident.map (·.serial)).getD 0) true)
  | 0x054 => some (match x.ident with
    | some i => bitAt 31 (i.epoch == s.epoch) ||| fieldAt 16 i.phys.toNat ||| fieldAt 0 i.port.toNat
    | none => 0)
  | _ => none

def State.viewPort (s : State) (p off : Nat) : Option Word :=
  let x := s.port p
  match off with
  | 0x044 => some (fieldAt 28 x.st.toNat ||| fieldAt 24 (s.liveMembers p).length)
  | 0x048 => some (fieldAt 16 x.next.toNat ||| fieldAt 0 x.acked.toNat)
  | _ => none

def State.viewRoute (s : State) (off : Nat) : Option Word :=
  if off = 0x050 then some (s.lk.map.get 0 (s.pr .route 0 0x4C).toNat) else none

/-! ## Cluster pages -/

/-- CLU.STATUS (R643): a cluster that the device owns is clock-gated (R16). -/
def State.cluStatus (s : State) (c : Nat) : Word :=
  let live := ((List.range 16).filter fun t => s.tileLive c t).length
  fieldAt 16 live ||| match s.clusterOwner c with
    | some p => fieldAt 24 p.val
    | none => 0xC0000000

/-- CLU.TILE_MAP (R132). -/
def State.tileMap (s : State) (c : Nat) : Word :=
  let live := (List.range 16).foldl (fun (m : Word) t => m ||| bitAt (16 + t) (s.tileLive c t)) 0
  live ||| (~~~(s.fuse.disabled.get 0 c)).zeroExtend 32

/-- CLU.ROWMAP_DATA of the selected entry (R210). -/
def RowEnt.word (e : RowEnt) : Word :=
  bitAt 31 (e.used && !e.bad) ||| bitAt 30 e.field ||| bitAt 29 e.bad ||| e.row.zeroExtend 32

/-- CLU.SRAM_STATE of a region's tiers (R206). -/
def State.sramState (s : State) (r : Nat) : Word :=
  (List.range 4).foldl (fun (m : Word) t => m ||| match s.tierOf r t with
    | .awake => 0
    | .retained => bitAt t true
    | .entering _ => bitAt (4 + t) true
    | .waking _ => bitAt (4 + t) true) 0

def State.viewClu (s : State) (c off : Nat) : Option Word :=
  if off = 0x00C then some (s.cluStatus c)
  else if 0x200 ≤ off ∧ off < 0x240 ∧ s.tilesEnabled c ≤ (off - 0x200) / 4 then some 0
  else if off = 0x300 then some (s.tileMap c)
  else if off = 0x538 then
    let sel := s.pr .clu c 0x534
    some (s.rowEnt (c * 1024 + (sel.extractLsb' 0 10).toNat) (sel.extractLsb' 10 4).toNat).word
  else if off = 0x540 then some (s.sramState (regionOfCluster c))
  else none

/-- A bank-owner entry as read (R183). -/
def State.botEntry (s : State) (b : Nat) : BitVec 16 :=
  let x := s.bankOf b
  let st : BitVec 16 := match x.st with
    | .settled => 0
    | .pending => 1
    | .wiping => 2
    | .failed => 3
  (st <<< 13) ||| (if s.bankHole b then 0x1000 else 0) ||| match x.owner with
    | some p => BitVec.ofNat 16 p.val
    | none => 0x80

/-- How many banks of a cluster are in a state. -/
def State.banksIn (s : State) (c : Nat) (st : BankSt) : Nat :=
  (s.pad.bank.filter fun e => decide (bankCluster e.1 = c ∧ e.2.st = st)).length

def State.viewBot (s : State) (c off : Nat) : Option Word :=
  if off = 0x040 then some (fieldAt 16 (s.banksIn c .wiping) ||| fieldAt 0 (s.banksIn c .pending))
  else if 0x800 ≤ off then
    let b := c * 1024 + (off - 0x800) / 2
    some (s.botEntry (b + 1) ++ s.botEntry b)
  else none

def State.viewSync (s : State) (c off : Nat) : Option Word :=
  if off = 0x040 then
    some (fieldAt 16 (s.syn.waits.filter fun w => w.cluster == c).length ||| fieldAt 0 (s.mappedIn c))
  else if 0x400 ≤ off ∧ off < 0x800 then some (s.countOf c ((off - 0x400) / 4))
  else none

/-- MOV.CHn_STATUS (R247): the command that runs, or the oldest in the channel's queue, which its pre-wait may hold
(R282). DEDUCED: assumption 140. -/
def State.chanStatus (s : State) (n : Nat) : Word :=
  let word (wait : Nat) (r : RecRef) (tag : BitVec 16) : Word :=
    bitAt 31 true ||| fieldAt 27 wait ||| fieldAt 16 (if r.part.val = 64 then 0 else r.part.val) ||| fieldAt 0 tag.toNat
  match s.chanOf n with
  | some c => word c.wait.toNat c.ref c.tag
  | none => match s.nextMover n with
    | some f => word (if f.st = .waiting then 8 else 0) f.lrec.ref f.lrec.ref.index
    | none => 0

def State.viewMov (s : State) (c off : Nat) : Option Word :=
  if 0x040 ≤ off ∧ off < 0x060 then some (s.chanStatus (c * 8 + (off - 0x040) / 4)) else none

/-! ## Partition and slot pages -/

/-- The quota flags (R507). -/
def State.overBanks (s : State) (p : Nat) : Bool := decide ((s.pr .part p 0x50).toNat < s.banksOwned p)
def State.overCellar (s : State) (p : Nat) : Bool := decide ((s.pr .part p 0x54).toNat < s.pagesMapped p)

/-- The code of a partition's state (R501). -/
def PartSt.code : PartSt → Nat
  | .free => 0 | .active => 1 | .resetting => 2

/-- PART.STATUS (R535). -/
def State.partStatus (s : State) (p : Nat) : Word :=
  fieldAt 30 (s.partOf p).st.code ||| bitAt 29 (s.overBanks p || s.overCellar p) ||| bitAt 28 (s.overBanks p) |||
    bitAt 27 (s.overCellar p) ||| fieldAt 16 (s.partMhz p) ||| fieldAt 0 (s.clustersOf p).length

/-- The code of a context's state (R515). -/
def CtxSt.code : CtxSt → Nat
  | .free => 0 | .running => 1 | .saving => 2 | .saved => 3 | .restoring => 4 | .suspended => 5 | .lost => 6

/-- A 64-bit sum, saturating, over the partition's clusters (R81, R132, R169). -/
def State.sumClu64 (s : State) (p : Nat) (offs : List Nat) : BitVec 64 :=
  let n := ((s.clustersOf p).flatMap fun c => offs.map fun o => (s.pr64 .clu c o).toNat).foldl (· + ·) 0
  if n < 2 ^ 64 then BitVec.ofNat 64 n else BitVec.allOnes 64

/-- A 32-bit sum, saturating, over the partition's clusters. -/
def State.sumClu (s : State) (p off : Nat) : Word :=
  satAdd32 0 (((s.clustersOf p).map fun c => (s.pr .clu c off).toNat).foldl (· + ·) 0)

/-- The partition's sum of its clusters' flush counts (R81). -/
def State.flushSum (s : State) (p : Nat) : BitVec 64 :=
  BitVec.ofNat 64 (((s.clustersOf p).flatMap fun c => (List.range 16).map fun t =>
    (s.pr .clu c (0x200 + 4 * t)).toNat).foldl (· + ·) 0)

/-- The clusters that a partition owns, one bit each (R535). -/
def State.cluMask (s : State) (p : Nat) : BitVec 64 :=
  (s.clustersOf p).foldl (fun (m : BitVec 64) c => m ||| (1#64 <<< c)) 0

/-- The registers of the selected context (R514, R515). -/
def State.viewCtx (s : State) (p off : Nat) : Option Word :=
  let c := s.ctxSel p
  let x := s.ctxOf p c
  match off with
  | 0x064 => some x.cfg
  | 0x068 => some x.areas
  | 0x06C => some x.set0
  | 0x070 => some x.set1
  | 0x078 => some (fieldAt 28 x.st.code ||| bitAt 27 (s.ctxRunnable p c) ||| fieldAt 20 x.err.toNat)
  | 0x07C => some (match (s.partOf p).runCtx with
    | some c => bitAt 31 true ||| fieldAt 0 c.toNat
    | none => 0)
  | _ => none

/-- The sums over a partition's clusters. -/
def State.viewSums (s : State) (p off : Nat) : Option Word :=
  let waits := s.sumClu64 p [0x318, 0x320, 0x328, 0x330]
  match off with
  | 0x300 => some (halfWord (s.flushSum p) false)
  | 0x304 => some (halfWord (s.flushSum p) true)
  | 0x308 => some (s.sumClu p 0x240)
  | 0x30C => some (s.sumClu p 0x244)
  | 0x310 => some (s.sumClu p 0x248)
  | 0x314 => some (s.sumClu p 0x24C)
  | 0x380 => some (halfWord (s.sumClu64 p [0x310]) false)
  | 0x384 => some (halfWord (s.sumClu64 p [0x310]) true)
  | 0x388 => some (halfWord waits false)
  | 0x38C => some (halfWord waits true)
  | 0x3C8 => some (halfWord (s.sumClu64 p [0x400]) false)
  | 0x3CC => some (halfWord (s.sumClu64 p [0x400]) true)
  | 0x3D0 => some (s.sumClu p 0x408)
  | _ => none

/-- The synchronisation registers of a PART page (R305, R306). -/
def State.viewPartSync (s : State) (p off : Nat) : Option Word :=
  let at_ := s.vid p ((s.pr .part p 0x488).toNat % 4096)
  match off with
  | 0x488 => some ((s.pr .part p 0x488 &&& 0xFFF) ||| bitAt 31 at_.isSome)
  | 0x48C => some (match at_ with
    | some (c, n) => s.countOf c n
    | none => 0)
  | 0x494 => some (s.vmapOf p ((s.pr .part p 0x490).toNat % 4096))
  | 0x498 =>
    let b := s.brambleOf p
    some (bitAt 31 b.frozen ||| bitAt 30 b.ext |||
      fieldAt 0 (min ((s.pr .part p 0x480).toNat % 2 ^ 17) (b.quiet / 10000)))
  | _ => none

def State.viewPart (s : State) (p off : Nat) : Option Word :=
  let x := s.partOf p
  match off with
  | 0x008 => some (bitAt 0 (x.st == .resetting || x.resetDue))
  | 0x00C => some (s.partStatus p)
  | 0x040 => some (halfWord (s.cluMask p) false)
  | 0x044 => some (halfWord (s.cluMask p) true)
  | 0x04C => some (bitAt 31 x.cluOp.isSome ||| fieldAt 24 x.cluErr.toNat ||| fieldAt 0 x.cluLast.toNat)
  | 0x058 => some (fieldAt 0 (s.pagesMapped p))
  | 0x404 => some (bitAt 31 x.releaseBusy ||| fieldAt 0 (s.banksSettled p))
  | off =>
    if off < 0x080 then s.viewCtx p off
    else if off < 0x480 then s.viewSums p off
    else s.viewPartSync p off

/-- A queue block's pointers and status (R491, R497). -/
def State.viewSwQueue (s : State) (p q o : Nat) : Option Word :=
  let x := s.queueOf p q
  let n := (s.fe.flights.filter fun f =>
    f.lrec.part == p && f.lrec.queue == q && !f.st.ended).length
  let st : Nat := match x.st with
    | .free => 0
    | .ready => 1
    | .faulted => 2
    | .zombie => 3
  match o with
  | 0x20 => some (x.head.zeroExtend 32)
  | 0x24 => some (x.tail.zeroExtend 32)
  | 0x2C => some (x.cplTail.zeroExtend 32)
  | 0x34 =>
    some (fieldAt 28 st ||| bitAt 27 (s.bound p q) ||| fieldAt 16 x.gid.toNat ||| fieldAt 12 x.err.toNat |||
      fieldAt 0 (min n 4095))
  | _ => none

def State.viewFe (s : State) (p off : Nat) : Option Word :=
  if off = 0x048 then
    let a := s.fe.faultAreas.get FaultArea.init p
    some (bitAt 23 a.snap ||| fieldAt 16 a.wr.toNat ||| fieldAt 0 a.lost.toNat)
  else if 0x100 ≤ off ∧ off < 0x500 then s.viewSwQueue p ((off - 0x100) / 64) (off % 64)
  else none

/-- A handle entry's 32 B (R468); a virtual function reads BASE of a KIND 3 entry as 0 (R470). -/
def Handle.raw (h : Handle) (vf : Bool) : BitVec 256 :=
  0#96 ++ ((h.scale ++ (h.fmt ++ h.rights)) ++ (h.size ++ if vf && h.kind == 3 then 0#64 else h.base))

def State.viewHtab (s : State) (vf : Bool) (p off : Nat) : Option Word :=
  let h := (s.pr .htab p 0x40).toNat % 4096
  if off = 0x044 then some (fieldAt 0 (min 0xFFFF (s.useOf p h)))
  else if 0x060 ≤ off ∧ off < 0x080 then some (((s.handleOf p h).raw vf).extractLsb' (8 * (off - 0x060)) 32)
  else none

/-- The global ID of the queue in a slot's half; 0 while the half is empty. -/
def Half.gid (h : Half) : Nat := (h.recs.head?.map fun r => r.gid.toNat).getD 0

def State.viewSlot (s : State) (n off : Nat) : Option Word :=
  let h0 := s.halfOf n false
  let h1 := s.halfOf n true
  match off with
  | 0x040 =>
    some (bitAt 31 (!h0.recs.isEmpty) ||| bitAt 30 (!h1.recs.isEmpty) ||| fieldAt 20 h0.gid ||| fieldAt 10 h1.gid)
  | 0x044 => some (bitAt 8 (n % 2 == 0) ||| fieldAt 0 (n / 2))
  | _ => none

/-- 32 pending bits of a function's MSI-X vectors (R573). -/
def State.viewPba (s : State) (f off : Nat) : Word :=
  (List.range 32).foldl (fun (m : Word) i => m ||| bitAt i (s.host.msixPending.get false (f * 256 + off * 8 + i))) 0

/-! ## Every page -/

/-- What the state shows at a register that is not read from the register file. -/
def State.viewOwn (s : State) (f : Fn) (p : PageId) (off : Nat) : Option Word :=
  match blockInst p off with
  | some q => s.viewQueue q (off % 64)
  | none => match p.kind with
    | .glb => s.viewGlb off
    | .pwr => s.viewPwr off
    | .clk => s.viewClk off
    | .age => s.viewAge off
    | .fuse => s.viewFuse off
    | .mgmt => s.viewMgmt off
    | .err => s.viewErr off
    | .sloe => s.viewSloe off
    | .cel => s.viewCel off
    | .stg => s.viewStg off
    | .coll => none
    | .ckpt => s.viewCkpt off
    | .route => s.viewRoute off
    | .lnk => s.viewLnk p.inst off
    | .port => s.viewPort p.inst off
    | .fe => s.viewFe p.inst off
    | .slot => s.viewSlot p.inst off
    | .part => s.viewPart p.inst off
    | .htab => s.viewHtab f.isVf p.inst off
    | .budget => if off = 0x00C then some (s.parts.oversub.zeroExtend 32) else none
    | .clu => s.viewClu p.inst off
    | .bot => s.viewBot p.inst off
    | .sync => s.viewSync p.inst off
    | .mov => s.viewMov p.inst off
    | .vec => none
    | .msixTable => none
    | .msixPba => some (s.viewPba p.inst off)

/-- The value of the register at offset `off` of a page, as function `f` reads it, with no side effect. A reserved
offset and a register that is only written read 0 (R624, R630, R646).
DEDUCED: assumption 8; DESIGN CHOICE: assumption 38. -/
def State.view (s : State) (f : Fn) (p : PageId) (off : Nat) : Word :=
  match p.spec off with
  | none => 0
  | some r =>
    if p.kind ≠ .msixTable ∧ p.kind ≠ .msixPba ∧ off = 0x000 then s.viewId p
    else if p.kind ≠ .msixTable ∧ p.kind ≠ .msixPba ∧ off = 0x004 then s.viewCaps p
    else if p.kind ≠ .msixTable ∧ p.kind ≠ .msixPba ∧ off = 0x020 then s.viewCommit p
    else if r.acc = .wo then 0
    else match s.viewOwn f p off with
      | some v => v
      | none => s.pr p.kind p.inst off

end Sys2Proof.Machine
end

