-- ==== Sys2Proof/Machine/Mgmt.lean ====
section
/-! DEFINITION. The management bus (R616–R618), the sideband pins (R553, R613) and the test access port (R615). -/

namespace Sys2Proof.Machine

/-! ## Management bus -/

/-- Whether the management block answers (R598, R616): from 1 ms after SYS_RESET_N has risen, while VDD_AUX is in
tolerance. -/
def State.smbUp (s : State) : Bool :=
  s.sys.started && decide (s.mgmt.upAt.toNat ≤ s.sys.time.toNat) && s.pwr.railOk.getLsbD 8

/-- The end of a transfer: whether it was acknowledged, and the bytes that it returned. -/
def State.smbEnd (s : State) (ack : Bool) (data : List Byte) : State :=
  { s with mgmt := { s.mgmt with ack := ack, data := data } }

/-- A command that completes (MGMT.SMB_CMDS, R623). -/
def State.smbDone (s : State) (data : List Byte) : State := (s.bump .mgmt 0 0x48).smbEnd true data

/-- A transfer that is refused (MGMT.SMB_ERR, R623). DEDUCED: assumption 127. -/
def State.smbRefuse (s : State) : State := ((s.bump .mgmt 0 0x44).raise .mgmt 0 1).smbEnd false []

/-- A transfer to the device's address: not acknowledged while the management block is down. DEDUCED: assumption 127. -/
def State.smb (s : State) (k : State → State) : State := if s.smbUp then k s else s.smbEnd false []

/-- Move the command address on (R617). DEDUCED: assumption 127. -/
def State.smbAdvance (s : State) : State := { s with mgmt := { s.mgmt with addr := s.mgmt.addr + 4 } }

/-- The pages that command 0x11 reads (R618). -/
def PageKind.smbReads (k : PageKind) : Bool := [PageKind.glb, .pwr, .clk, .mgmt, .err, .age, .fuse].contains k

/-- The page that an access of the management bus is logged in: the one addressed, or GLB (R624). -/
def smbPage (a : Nat) : PageId :=
  if a < 0x4000000 then (pageAt (a / 0x1000)).getD ⟨.glb, 0⟩ else ⟨.glb, 0⟩

/-- SMB_SET_ADDRESS (R616, R617): command 0x10; `pecOk`: no PEC byte was sent, or it was right. -/
def execSmbSetAddress (a : Word) (pecOk : Bool) (s : State) : Out :=
  .next <| s.smb fun s =>
    if pecOk then ({ s with mgmt := { s.mgmt with addr := a } }).smbDone [] else s.smbRefuse

/-- SMB_READ (R617, R618): command 0x11. An unaligned read returns all ones and is logged (R631); no read has a side
effect. -/
def execSmbRead (s : State) : Out :=
  .next <| s.smb fun s =>
    let a := s.mgmt.addr.toNat
    let p := smbPage a
    let v : Word :=
      if a % 4 = 0 ∧ a < 0x4000000 ∧ (pageAt (a / 0x1000)).isSome ∧ p.kind.smbReads then s.view .smb p (a % 0x1000)
      else BitVec.allOnes 32
    let s := if a % 4 = 0 then s else s.rejectAt .smb p a a 3
    s.smbAdvance.smbDone (leBytes 4 v.toNat)

/-- SMB_WRITE (R617, R618): command 0x12. Only PWR.BOARD_CAP takes a write, which acts at the capping controller's
next evaluation (R621). -/
def execSmbWrite (v : Word) (pecOk : Bool) (s : State) : Out :=
  .next <| s.smb fun s =>
    let a := s.mgmt.addr.toNat
    if !pecOk then s.smbRefuse
    else if a = 0x1078 then
      if 150 ≤ v.toNat ∧ v.toNat ≤ 300 then
        ({ s with pwr := { s.pwr with boardCap := some v } }).smbAdvance.smbDone []
      else (s.reject .smb ⟨.pwr, 0⟩ 0x78 1).smbAdvance.smbRefuse
    else (s.rejectAt .smb (smbPage a) a a (if a % 4 = 0 then 4 else 2)).smbAdvance.smbRefuse

/-- SMB_READ_TEMP (R617): command 0x20, the hottest valid sensor. While no sensor is valid the value is open.
DEDUCED: assumption 127. -/
def execSmbReadTemp (s : State) : Out :=
  .next <| s.smb fun s =>
    match hottest (s.validTemps (List.range 20)) with
    | some t => s.smbDone (leBytes 2 (BitVec.ofInt 16 t).toNat)
    | none => s.free.2.smbDone (leBytes 2 s.free.1.toNat)

/-- SMB_READ_POWER (R617): command 0x21. -/
def execSmbReadPower (s : State) : Out := .next <| s.smb fun s => s.smbDone (leBytes 2 s.pwr.p10ms.toNat)

/-- FAULT_N is low (R541, R581, R606). DEDUCED: assumption 131. -/
def State.faultN (s : State) : Bool := s.err.device || s.sys.phase == 0xF || s.pwr.trip

/-- THERM_N is low (R604, R606). DEDUCED: assumption 131. -/
def State.thermN (s : State) : Bool := s.pwr.warn || s.pwr.trip

/-- The word of command 0x22 (R617). -/
def State.smbSummary (s : State) : Word :=
  fieldAt 12 s.sys.phase.toNat ||| fieldAt 8 (if s.sys.phase = 0xF then s.sys.bootErr.toNat else 0) |||
    bitAt 7 s.faultN ||| bitAt 6 s.thermN ||| bitAt 5 s.pwr.trip ||| fieldAt 0 s.pwr.k

/-- SMB_READ_SUMMARY (R617): command 0x22. -/
def execSmbReadSummary (s : State) : Out := .next <| s.smb fun s => s.smbDone (leBytes 2 s.smbSummary.toNat)

/-- SMB_UNKNOWN_COMMAND (R617): any other code is not acknowledged, and is counted. -/
def execSmbUnknownCommand (code : BitVec 8) (s : State) : Out :=
  if ([0x10, 0x11, 0x12, 0x20, 0x21, 0x22] : List (BitVec 8)).contains code then .next s
  else .next <| s.smb fun s => s.smbRefuse

/-- SMB_CLOCK_LOW_TIMEOUT (R616): the transfer in progress ends without a result. -/
def execSmbClockLowTimeout (s : State) : Out := .next (s.smbEnd false [])

/-! ## Sideband pins (R553, R613) -/

/-- Set a bit of PIN_LEVEL. -/
def State.setPin (s : State) (n : Nat) (level : Bool) : State :=
  let m : BitVec 9 := 1#9 <<< n
  { s with mgmt := { s.mgmt with pins := if level then s.mgmt.pins ||| m else s.mgmt.pins &&& ~~~m } }

/-- The test access port in Test-Logic-Reset, which selects IDCODE. -/
def Tap.toReset (t : Tap) : Tap := { t with st := .reset, instr := .idcode, tdo := none }

/-- SIDEBAND_PIN_CHANGE (R553, R613): a filtered level, or with `glitch` a change that was shorter than its filter. The
reset pins have commands of their own for their edges; only WARM_RESET_N's rise shows here.
DESIGN CHOICE: assumption 39; DEDUCED: assumption 130. -/
def execSidebandPinChange (pin : Sideband) (level glitch : Bool) (s : State) : Out :=
  if !s.sys.started then .next s
  else if glitch then .next (s.bump .mgmt 0 0x50).inputRec
  else match pin with
    | .stallN n =>
      let m : BitVec 4 := 1#4 <<< n.val
      let s := s.setPin (4 + n.val) level
      .next { s with que := { s.que with
        stallSampled := if level then s.que.stallSampled &&& ~~~m else s.que.stallSampled ||| m } }
    | .trstN =>
      let s := s.setPin 3 level
      .next (if level then s else { s with mgmt := { s.mgmt with tap := s.mgmt.tap.toReset } })
    | .tickIn => .next (s.setPin 8 level)
    | .warmResetN => .next (if level then s.setPin 1 true else s)
    | .perstN => .next s
    | .sysResetN => .next s

/-! ## Test access port (R615) -/

/-- The state diagram of IEEE 1149.1: the next state for a value of TMS. -/
def TapSt.next (st : TapSt) (tms : Bool) : TapSt :=
  match st with
  | .reset => if tms then .reset else .idle
  | .idle => if tms then .drSelect else .idle
  | .drSelect => if tms then .irSelect else .drCapture
  | .drCapture => if tms then .drExit1 else .drShift
  | .drShift => if tms then .drExit1 else .drShift
  | .drExit1 => if tms then .drUpdate else .drPause
  | .drPause => if tms then .drExit2 else .drPause
  | .drExit2 => if tms then .drUpdate else .drShift
  | .drUpdate => if tms then .drSelect else .idle
  | .irSelect => if tms then .reset else .irCapture
  | .irCapture => if tms then .irExit1 else .irShift
  | .irShift => if tms then .irExit1 else .irShift
  | .irExit1 => if tms then .irUpdate else .irPause
  | .irPause => if tms then .irExit2 else .irPause
  | .irExit2 => if tms then .irUpdate else .irShift
  | .irUpdate => if tms then .drSelect else .idle

/-- The bits of a value, lowest first. -/
def bitsOf (n : Nat) (v : Nat) : List Bool := (List.range n).map fun i => v.testBit i

/-- IDCODE: stepping, device code, manufacturer identity, 1. DESIGN CHOICE: assumption 97. -/
def State.idcode (s : State) : Word := s.fuse.stepping ++ ((0x0640#16 ++ Config.jtagMaker) ++ 1#1)

/-- What Capture-DR loads, and the state after it: the boundary register takes the pins, of which this model holds the
nine of PIN_LEVEL; the others' levels are open. DESIGN CHOICE: assumption 97. -/
def State.captureDr (s : State) : List Bool × State :=
  match s.mgmt.tap.instr with
  | .idcode => (bitsOf 32 s.idcode.toNat, s)
  | .sample | .extest =>
    let x := s.free
    (bitsOf 9 s.mgmt.pins.toNat ++ bitsOf 26 x.1.toNat, x.2)
  | .bypass | .clamp | .highz => ([false], s)

/-- A rising edge of TCK: the state that it ends acts, and TMS chooses the next. -/
def State.tckRise (s : State) (tms tdi : Bool) : State :=
  let t := s.mgmt.tap
  let x := if t.st = .drCapture then s.captureDr else (t.dr, s)
  let dr := if t.st = .drShift then t.dr.drop 1 ++ [tdi] else x.1
  let s := x.2
  let t' : Tap := { t with st := t.st.next tms, dr := dr }
  { s with mgmt := { s.mgmt with tap := if t'.st = .reset then t'.toReset else t' } }

/-- A falling edge of TCK: updates, and TDO, which is driven only while a register shifts. What the instruction register
shifts out is open. -/
def State.tckFall (s : State) (code : TapInstr) : State :=
  let t := s.mgmt.tap
  match t.st with
  | .drUpdate =>
    let b := if t.instr = .sample ∨ t.instr = .extest then t.dr else t.boundary
    { s with mgmt := { s.mgmt with tap := { t with boundary := b, tdo := none } } }
  | .irUpdate => { s with mgmt := { s.mgmt with tap := { t with instr := code, tdo := none } } }
  | .drShift => { s with mgmt := { s.mgmt with tap := { t with tdo := t.dr.head? } } }
  | .irShift =>
    let x := s.free
    { x.2 with mgmt := { x.2.mgmt with tap := { t with tdo := some (x.1.getLsbD 0) } } }
  | _ => { s with mgmt := { s.mgmt with tap := { t with tdo := none } } }

/-- TCK_EDGE (R615): `code` is the instruction that the bits shifted into the instruction register name, which Update-IR
takes. TRST_N low holds the port in reset. DESIGN CHOICE: assumption 97. -/
def execTckEdge (rising tms tdi : Bool) (code : TapInstr) (s : State) : Out :=
  if !s.mgmt.pins.getLsbD 3 then .next { s with mgmt := { s.mgmt with tap := s.mgmt.tap.toReset } }
  else .next (if rising then s.tckRise tms tdi else s.tckFall code)

end Sys2Proof.Machine
end

