-- ==== Sys2Proof/Machine/Commit.lean ====
section
/-! DEFINITION. Commits (R636–R640): what each commit group asks for before it takes effect, when it does, and what
follows; discards; and the waiting groups' safe points. -/

namespace Sys2Proof.Machine

/-- What becomes of a group at its commit (R638): it acts, waits for its safe point, or is rejected. -/
inductive GroupFate where
  | apply
  | wait
  | refuse
deriving DecidableEq, Repr

/-- Acts where the condition holds, and is rejected elsewhere. -/
def fateIf (b : Bool) : GroupFate := if b then .apply else .refuse

/-! ## Queue blocks (R262, R275) -/

/-- Whether an instance's block, as it stands, keeps LOW below HIGH, its thresholds and CUT within the depth, and
stores whole what it must. DEDUCED: assumption 35; DESIGN CHOICE: assumption 111. -/
def State.blockOk (s : State) (q : QInst) : Bool :=
  let d := s.depth q
  let wm := s.queWm q
  let cut := (s.queCfg q).toNat % 65536
  let hi := (wm.extractLsb' 16 16).toNat
  let lo := wm.toNat % 65536
  decide (lo < hi ∧ hi ≤ d ∧ cut ≤ d) && (cut ≠ 0 || decide (s.maxItem q ≤ d))

/-- The queue instances whose blocks a group takes. -/
def groupQueues (p : PageId) (g : Nat) : List QInst :=
  match p.kind with
  | .stg => (List.range 5).map fun n => QInst.stg (Fin.ofNat 5 n)
  | .coll => if 32 ≤ g then [QInst.coll (Fin.ofNat 32 (g - 32))] else []
  | .lnk => if g = 2 then [QInst.link (Fin.ofNat 16 p.inst)] else []
  | .part => if g = 5 then [QInst.ingest (Fin.ofNat 64 p.inst)] else []
  | _ => []

/-! ## Handle entries (R468–R470) -/

/-- The entry that the staged words of an HTAB page make of the selected one. DEDUCED: assumption 33. -/
def State.htabNext (s : State) (p h : Nat) : Handle :=
  let old := (s.handleOf p h).raw false
  let w (k : Nat) : Word := (s.stagedOf (rk .htab p (0x60 + 4 * k))).getD (old.extractLsb' (32 * k) 32)
  { base := w 1 ++ w 0, dev := 0, size := w 3 ++ w 2, rights := (w 4).extractLsb' 0 8, fmt := (w 4).extractLsb' 8 8
    scale := (w 4).extractLsb' 16 16 }

/-- The device address behind BASE (R470); none where the range does not lie wholly in the window of its KIND.
DEDUCED: assumption 33. -/
def State.handleDev (s : State) (p : Nat) (h : Handle) : Option (BitVec 64) :=
  let b := h.base.toNat
  let e := b + h.size.toNat
  if h.kind = 0 then
    let cs := s.clustersOf p
    if e ≤ cs.length * 0x8000000 then
      some (BitVec.ofNat 64 (cs.getD (b / 0x8000000) 0 * 0x8000000 + b % 0x8000000))
    else none
  else if h.kind = 1 then if e ≤ 0x1000000000 then some (BitVec.ofNat 64 (0x4000000000 + b)) else none
  else if h.kind = 2 then if e ≤ 2 ^ 63 then some (BitVec.ofNat 64 (2 ^ 63 + b)) else none
  else if h.base.getLsbD 62 && !h.base.getLsbD 63 && decide (b / 2 ^ 48 = (e - 1) / 2 ^ 48) then some h.base else none

/-- Whether an HTAB commit is rejected (R469). `vf`: the commit comes through the virtual function. An entry with V = 0
names no range. DEDUCED: assumption 33. -/
def State.htabBad (s : State) (vf : Bool) (p h : Nat) : Bool :=
  let e := s.htabNext p h
  let upper := [5, 6, 7].any fun k => (s.stagedOf (rk .htab p (0x60 + 4 * k))).getD 0 ≠ 0
  upper || e.rights.extractLsb' 0 2 ≠ 0 || e.scale.extractLsb' 12 3 ≠ 0 ||
  (e.v && (decide (e.size.toNat = 0 ∨ 2 ^ 48 < e.size.toNat) || (s.handleDev p e).isNone ||
    !(e.fmt == 0xFF || fmtOk e.fmt.toNat))) ||
  (e.cmd && e.kind == 3) || (vf && e.kind == 3) || decide (4080 ≤ h ∧ h ≤ 4087 ∧ p = 0) || decide (s.useOf p h ≠ 0)

/-- Write the selected handle entry. -/
def State.htabApply (s : State) (p : Nat) : State :=
  let h := (s.pr .htab p 0x40).toNat % 4096
  let e := s.htabNext p h
  let s := s.setHandle p h { e with dev := (s.handleDev p e).getD 0 }
  (List.range 8).foldl (fun s k => s.stage (rk .htab p (0x60 + 4 * k)) none) s

/-! ## The checkpoint scope (R433) -/

/-- A scope entry's range: its handle's first and last device address. -/
def State.scopeRange (s : State) (v : Word) : Nat × Nat :=
  let h := s.handleOf 0 (v.toNat % 4096)
  (h.dev.toNat, h.dev.toNat + h.size.toNat)

/-- Whether every entry that is in the scope names a range of R433, and no two overlap. -/
def State.scopeOk (s : State) (tab : SMap Word) : Bool :=
  let es := ((List.range 16).map fun i => tab.get 0 i).filter fun v => v.getLsbD 31
  let one (v : Word) : Bool :=
    let h := s.handleOf 0 (v.toNat % 4096)
    let g := if h.kind = 0 then 0x20000 else 0x200000
    h.v && (h.kind == 0 || h.kind == 1) && h.dev.toNat % g == 0 && h.size.toNat % g == 0
  (es.all one) && (List.range es.length).all fun i => (List.range i).all fun j =>
    let a := s.scopeRange (es.getD i 0)
    let b := s.scopeRange (es.getD j 0)
    decide (a.2 ≤ b.1 ∨ b.2 ≤ a.1)

/-- The scope table as the staged entry leaves it. -/
def State.scopeNext (s : State) : SMap Word :=
  match s.stagedOf (rk .ckpt 0 0x58) with
  | some v => s.ckpt.scope.put 0 ((s.pr .ckpt 0 0x54).toNat % 16) v
  | none => s.ckpt.scope

/-! ## Fused settings (R561, R562) -/

/-- The change that the staged requests of the FUSE page ask for: its audit kind, its argument and how often the
setting has been changed with it; none where nothing or more than one thing is asked for. DEDUCED: assumption 36. -/
def State.fuseAsk (s : State) : Option (BitVec 8 × BitVec 32 × Nat) :=
  let d := (s.stagedOf (rk .fuse 0 0x40)).getD 0
  let l := (s.stagedOf (rk .fuse 0 0x44)).getD 0
  let r := (s.stagedOf (rk .fuse 0 0x48)).getD 0
  match d.getLsbD 31, l.getLsbD 0, r.getLsbD 31 with
  | true, false, false => some (1, d &&& 0x3F0F, s.fuse.downgrades + 1)
  | false, true, false => some (2, BitVec.ofNat 32 (nextFloor s.fuse), s.fuse.lowerings + 1)
  | false, false, true => some (3, r &&& 7, s.fuse.revocations + 1)
  | _, _, _ => none

/-- Whether VDD_AUX has been in tolerance for the last 10 ms. -/
def State.auxSteady (s : State) : Bool :=
  s.pwr.railOk.getLsbD 8 && ((s.pwr.auxAt.map fun t => decide (10000000 < (s.sys.time - t).toNat)).getD true)

/-- Whether a fused change may begin: its count is not used up, no other operation runs, and VDD_AUX is steady. -/
def State.fuseOk (s : State) : Bool :=
  match s.fuseAsk with
  | some (kind, _, n) => decide (n ≤ if kind = 2 then 8 else 4) && s.fuse.op.isNone && s.auxSteady
  | none => false

/-- Stage 1 of a fused change (R562): the audit entry is written PENDING, and the fuses are being blown.
DEDUCED: assumption 36. -/
def State.fuseBegin (s : State) : State :=
  match s.fuseAsk with
  | some (kind, arg, n) =>
    let s := s.audit kind 1 arg n
    { s with fuse := { s.fuse with op := some (kind, arg) } }
  | none => s

/-! ## Fates -/

/-- A partition's groups. -/
def State.partFate (s : State) (p g : Nat) : GroupFate :=
  if g = 1 then if (s.gangOf p).isNone then .apply else .wait
  else if g = 2 then .apply
  else if g = 3 then
    let c := s.ctxSel p
    fateIf (((s.ctxOf p c).st == .saved || (s.ctxOf p c).st == .suspended) && s.ctxCheck p c == 0)
  else if g = 4 then
    let cfg := s.nextVal (rk .part p 0xD0)
    let h := s.handleOf p (cfg.toNat % 4096)
    let bytes := 2 ^ (cfg.extractLsb' 16 4).toNat * 4096
    let idle := decide ((s.que1 (.ingest (Fin.ofNat 64 p))).used = 0) && (s.partOf p).posts.isEmpty
    fateIf (idle && (!cfg.getLsbD 31 ||
      (h.v && h.kind == 0 && h.rd && h.wr && decide (h.size.toNat = bytes) && h.dev.toNat % 4096 == 0)))
  else .apply

/-- The STG page: its cross-checks (R348), and its safe point. -/
def State.stgFate (s : State) : GroupFate :=
  if stgCross fun o => s.nextVal (rk .stg 0 o) then
    if s.stg.st = 0 ∨ s.stg.st = 1 ∨ s.stg.st = 5 then .apply else .wait
  else .refuse

/-- CEL.CARVE (R216): no mapped page may move into the buddy area, and stage mode allows no change. -/
def State.carveFate (s : State) : GroupFate :=
  let pool := (s.applyStaged ⟨.cel, 0⟩ 1).poolPages
  fateIf (!s.sys.stageMode && !(s.cel.pte.any fun e => e.2.getLsbD 63 && decide (pool ≤ (e.2.extractLsb' 21 15).toNat)))

/-- FE.FAULT_CFG (R468, R487): the fault area is large enough, and its handle has WR and CMD. DEDUCED: assumption 34. -/
def State.faultCfgFate (s : State) (p : Nat) : GroupFate :=
  let cfg := s.nextVal (rk .fe p 0x40)
  let h := s.handleOf p (cfg.toNat % 4096)
  fateIf (!cfg.getLsbD 31 ||
    (h.v && h.wr && h.cmd && decide (24 * 1024 + (cfg.extractLsb' 12 7).toNat * 2048 ≤ h.size.toNat)))

/-- What the commit of one group meets (R638). `vf`: it comes through a virtual function. DEDUCED: assumption 31. -/
def State.groupFate (s : State) (vf : Bool) (p : PageId) (g : Nat) : GroupFate :=
  let blocks := (groupQueues p g).all fun q => (s.applyStaged p g).blockOk q
  if !blocks then .refuse
  else match p.kind with
    | .clu =>
      let lo := p.inst * 512
      if g = 1 then .apply
      else fateIf (!(s.pad.tags.any fun e => decide (lo ≤ e.1 ∧ e.1 < lo + 512)) &&
        !(s.pad.tagHeld.any fun t => t.cluster == p.inst))
    | .part => s.partFate p.inst g
    | .fe => s.faultCfgFate p.inst
    | .htab => fateIf (!s.htabBad vf p.inst ((s.pr .htab p.inst 0x40).toNat % 4096))
    | .cel => s.carveFate
    | .stg => s.stgFate
    | .coll => if g = 1 then (if s.collBusy then .wait else .apply) else .apply
    | .ckpt => if s.scopeOk s.scopeNext then (if s.ckpt.st = 0 then .apply else .wait) else .refuse
    | .route => if s.epochOk then .wait else .refuse
    | .pwr =>
      let c := s.nextVal (rk .pwr 0 0x40)
      if (c.extractLsb' 16 9).toNat < (c.extractLsb' 0 9).toNat then .refuse else .wait
    | .fuse => fateIf s.fuseOk
    | .port => .wait
    | .budget => .wait
    | .glb | .clk | .age | .mgmt | .err | .sloe | .lnk | .slot | .bot | .sync | .mov | .vec | .msixTable | .msixPba =>
      .apply

/-- A link whose EN or REACH changes (R392): an ACTIVE link goes down under R370, and one that may no longer train is
DISABLED. DEDUCED: assumption 93. -/
def State.lnkApply (s : State) (l : Nat) : State :=
  let key := rk .lnk l 0x40
  let moved := (s.nextVal key ^^^ s.reg key) &&& 0xE0000000 ≠ 0
  let s := s.settleGroup ⟨.lnk, l⟩ 1 true
  let s := if moved ∧ (s.link l).st = 5 then s.linkDown l else s
  if s.linkEnabled l then s else s.setLink l { s.link l with st := 0 }

/-- A group takes effect. -/
def State.groupApply (s : State) (p : PageId) (g : Nat) : State :=
  let done (s : State) : State := s.settleGroup p g true
  let wms (s : State) : State := (groupQueues p g).foldl (fun s q => s.evalWm q) s
  match p.kind with
  | .part =>
    if g = 3 then done (s.ctxTake p.inst (s.ctxSel p.inst))
    else if g = 4 then
      let s := done s
      s.setPart p.inst { s.partOf p.inst with released := 0, items := [] }
    else wms (done s)
  | .htab => done (s.htabApply p.inst)
  | .coll => if g = 1 then s.collApply else wms (done s)
  | .ckpt => done s.ckptApply
  | .lnk => if g = 1 then s.lnkApply p.inst else wms (done s)
  | .clk => let s := done s; { s with clk := { s.clk with lastEdge := none, missFrom := none } }
  | .fuse => done s.fuseBegin
  | _ => wms (done s)

/-- A group is rejected (R637): its staged values stay, and the commit is logged. -/
def State.groupRefuse (s : State) (f : Fn) (p : PageId) (g : Nat) : State :=
  let s := (s.settleGroup p g false).reject f p 0x20 6
  match p.kind with
  | .htab => s.bump .htab p.inst 0x48
  | .fuse => s.fuseRec s.fuse.auditSeq
  | _ => s

/-- One group of an accepted commit. DEDUCED: assumption 31. -/
def State.commitGroup (s : State) (f : Fn) (p : PageId) (g : Nat) : State :=
  match s.groupFate f.isVf p g with
  | .apply => s.groupApply p g
  | .refuse => s.groupRefuse f p g
  | .wait => if p.kind = .route then s.epochStart else s

/-- The groups that a commit of the page takes: those with a staged value; the coordinate map's belong to ROUTE's.
DEDUCED: assumption 31. -/
def State.commitGroups (s : State) (p : PageId) : List Nat :=
  if p.kind = .route then
    if !(s.stagedKeys p).isEmpty || s.lk.mapStaged.any fun e => e.2.isSome then [1] else []
  else s.stagedGroups p

/-- A commit of a page (R637, R639): without effect where nothing is staged or a commit waits. -/
def State.commitPage (s : State) (f : Fn) (p : PageId) : State :=
  let c := s.commitOf p
  let gs := s.commitGroups p
  if c.waiting || gs.isEmpty then s
  else
    let s := s.setCommit p { c with waiting := true, groups := gs, anyApplied := false, anyRejected := false }
    gs.foldl (fun s g => s.commitGroup f p g) s

/-- A discard (R639). -/
def State.discardPage (s : State) (p : PageId) : State :=
  let s := (s.stagedKeys p).foldl (fun s k => s.stage k none) s
  let s := if p.kind = .route then { s with lk := { s.lk with mapStaged := [] } } else s
  s.setCommit p { s.commitOf p with
    waiting := false, groups := [], anyApplied := false, anyRejected := false, last := 3 }

/-- STAGE_COMMIT (R636–R639): a write of COMMIT to the page at an index of the function's BAR0.
DEDUCED: assumption 32. -/
def execStageCommit (f : Fn) (page : BitVec 14) (s : State) : Out :=
  match s.openWrite f (page.toNat * 0x1000 + 0x20) 4 1 with
  | .error s => .next s
  | .ok (t, _) => .next (s.commitPage f t.page)

/-- STAGE_DISCARD (R639): a write of DISCARD. -/
def execStageDiscard (f : Fn) (page : BitVec 14) (s : State) : Out :=
  match s.openWrite f (page.toNat * 0x1000 + 0x20) 4 2 with
  | .error s => .next s
  | .ok (t, _) => .next (s.discardPage t.page)

/-- Whether a waiting group's safe point holds now (R638). The refill (BUDGET), the controller's evaluation (PWR), the
step boundary (STG), the capture (CKPT) and the epoch change (PORT) are commands of their own, or part of one, which
take the waiting fields with them. DEDUCED: assumption 32. -/
def State.atSafePoint (s : State) (p : PageId) : Bool :=
  match p.kind with
  | .part => (s.gangOf p.inst).isNone
  | .coll => !s.collBusy
  | .route => s.epochReady
  | _ => false

/-- COMMIT_APPLY (R638): a waiting group of the page at a physical-function page index takes effect at its safe
point. DEDUCED: assumption 32. -/
def execCommitApply (page : BitVec 14) (g : BitVec 6) (s : State) : Out :=
  match pageAt page.toNat with
  | none => .next s
  | some p =>
    let c := s.commitOf p
    if c.waiting && c.groups.contains g.toNat && s.atSafePoint p then
      .next (if p.kind = .route then s.epochApply else s.groupApply p g.toNat)
    else .next s

end Sys2Proof.Machine
end

