-- ==== Sys2Proof/Machine/Access.lean ====
section
/-! DEFINITION. Register reads and writes as a whole (R624–R635, R641): what an accepted write of each register does,
and the side effects of reads. Registers that have a command of their own act through that command's meaning. -/

namespace Sys2Proof.Machine

/-- The state that a meaning goes on in. DEDUCED: assumption 28. -/
def onward (s : State) (o : Out) : State :=
  match o with
  | .next s' => s'
  | _ => s

/-- The partition or cluster number of a page. -/
def Target.n64 (t : Target) : Fin 64 := Fin.ofNat 64 t.page.inst

/-! ## Writes by page -/

/-- Request a counter clear (R82): it acts at a step boundary, or at once where the partition runs no gang
operation. DEDUCED: assumption 37. -/
def State.askClear (s : State) (p bit : Nat) : State :=
  let pt := s.partOf p
  let s := s.setPart p { pt with clears := pt.clears ||| (1 <<< bit) }
  if (s.gangOf p).isNone then s.applyClears p else s

/-- ERR.CTRL: FIRST_CLR and POP. -/
def State.writeErr (s : State) (f : Fn) (v : Word) : State :=
  let s := if v.getLsbD 1 then onward s (execErrFirstClr f s) else s
  if v.getLsbD 0 then onward s (execErrPop f s) else s

/-- CEL.RESUME. -/
def State.writeResume (s : State) (f : Fn) (v : Word) : State :=
  let ch := Fin.ofNat 512 (v.toNat % 512)
  onward s (if v.getLsbD 31 then execCelResumeFail f ch s else execCelResumeRetry f ch s)

/-- PART.CTRL (R501, R502, R530): one action at a time. -/
def State.writePartCtrl (s : State) (f : Fn) (t : Target) (v : Word) : State :=
  if v = 0 then s
  else if v = 1 then onward s (execPartReset f t.n64 s)
  else if v = 2 then onward s (execPartUnconfigure f t.n64 s)
  else if v = 4 then onward s (execPartConfigure f t.n64 s)
  else s.reject f t.page t.off 1

/-- PART.CLU_CMD (R503). -/
def State.writeCluCmd (s : State) (f : Fn) (t : Target) (v : Word) : State :=
  s.cluCmd f t t.n64 (v.extractLsb' 30 2) (Fin.ofNat 64 (v.toNat % 64)) (Fin.ofNat 64 (v.extractLsb' 16 6).toNat)

/-- PART.CTX_CTRL (R514–R523). -/
def State.writeCtxCtrl (s : State) (f : Fn) (t : Target) (v : Word) : State :=
  let p := t.n64
  onward s (if v = 1 then execCtxCreate f p s
    else if v = 2 then execCtxDestroy f p s
    else if v = 3 then execCtxSuspend f p s
    else execCtxResume f p s)

/-- A quota (R507): its new value acts at once, and OVER_QUOTA interrupts where it rises. -/
def State.writeQuota (s : State) (t : Target) (v : Word) : State :=
  let p := t.page.inst
  let was := s.overBanks p || s.overCellar p
  let s := s.setReg t.key v
  if !was && (s.overBanks p || s.overCellar p) then s.raise .part p 4 else s

/-- The clear bit of a PART page's counter clear register. -/
def partClear (off : Nat) : Option Nat :=
  match off with
  | 0x318 => some 0
  | 0x3A0 => some 1
  | 0x3E0 => some 2
  | 0x458 => some 3
  | 0x4B4 => some 4
  | 0x4D8 => some 5
  | 0x514 => some 6
  | 0x0C8 => some 7
  | _ => none

/-- Registers of a PART page that act as they are written. -/
def State.writePart (s : State) (f : Fn) (t : Target) (v : Word) : State :=
  match t.off with
  | 0x008 => s.writePartCtrl f t v
  | 0x048 => s.writeCluCmd f t v
  | 0x050 => s.writeQuota t v
  | 0x054 => s.writeQuota t v
  | 0x060 => if s.selectorFree t then s.setReg t.key v else s.rejectState f t
  | 0x074 => s.writeCtxCtrl f t v
  | 0x0DC => onward s (execIngestPost f t.n64 v s)
  | 0x400 => onward s (execBankRelease f t.n64 v s)
  | 0x484 => onward s (execSyncSignal f t.n64 v s)
  | 0x494 => onward s (execVmapWrite f t.n64 v s)
  | off =>
    match partClear off with
    | some b => if v.getLsbD 0 then s.askClear t.page.inst b else s
    | none => s.setReg t.key v

/-- A queue's block on an FE page (R478, R491–R497): its doorbell, its commands, and CPL_HEAD, which makes room for
completions. -/
def State.writeFeQueue (s : State) (f : Fn) (t : Target) (v : Word) : State :=
  let p := Fin.ofNat 65 t.page.inst
  let q := Fin.ofNat 16 ((t.off - 0x100) / 64)
  match t.off % 64 with
  | 0x1C => onward s (execDoorbell f p q v s)
  | 0x28 => (s.setReg t.key v).completions p.val q.val
  | 0x30 =>
    if v = 1 then onward s (execQueueCreate f p q s)
    else if v = 2 then onward s (execQueueDestroy f p q s)
    else if v = 3 then onward s (execQueueResume f p q s)
    else s
  | _ => s.setReg t.key v

/-- FE.SNAP_ACK (R488): SNAP is cleared, here and in the fault area's header. DEDUCED: assumption 37. -/
def State.snapAck (s : State) (p : Nat) : State :=
  let a := s.fe.faultAreas.get FaultArea.init p
  let s := s.setFaultArea p { a with snap := false }
  if a.snap && (s.pr .fe p 0x40).getLsbD 31 then s.faultHeader p else s

/-- Registers of an FE page that act as they are written. -/
def State.writeFe (s : State) (f : Fn) (t : Target) (v : Word) : State :=
  if t.off = 0x4C then (if v.getLsbD 0 then s.snapAck t.page.inst else s)
  else if 0x100 ≤ t.off then s.writeFeQueue f t v
  else s.setReg t.key v

/-- STG.STEP (R348): the held low half and this high half, only in READY. -/
def State.writeStep (s : State) (f : Fn) (t : Target) (v : Word) : State :=
  match s.wbufOf f t.page with
  | none => s.rejectState f t
  | some lo =>
    if lo.offset ≠ 0x70 ∨ s.stg.st ≠ 1 then s.rejectState f t
    else (s.setWbuf f t.page none).setPr64 .stg 0 0x70 (v ++ lo.value)

/-- Registers of the STG page that act as they are written. -/
def State.writeStg (s : State) (f : Fn) (t : Target) (v : Word) : State :=
  match t.off with
  | 0x008 => onward s (execStgFaultClr f v s)
  | 0x06C => onward s (execStepGo f v s)
  | 0x074 => s.writeStep f t v
  | 0x0C4 => if v.getLsbD 0 then s.askClear 0 8 else s
  | _ => s.setReg t.key v

/-- A VERDICT collective (R400, R420) is in progress on some context. -/
def State.verdictRuns (s : State) : Bool :=
  (List.range 16).any fun n => match (s.cctx n).run with
    | some r => match s.flight? r.ref with
      | some x => x.lrec.cVerdict && x.lrec.cReduces
      | none => false
    | none => false

/-- Registers of the COLL page that act as they are written: the training state is fixed while a VERDICT collective runs
(R423). -/
def State.writeColl (s : State) (f : Fn) (t : Target) (v : Word) : State :=
  if t.off = 0xAC then (if v.getLsbD 0 then s.askClear 0 9 else s)
  else if s.verdictRuns then s.rejectState f t
  else s.setReg t.key v

/-- Registers of the CKPT page that act as they are written. -/
def State.writeCkpt (s : State) (f : Fn) (t : Target) (v : Word) : State :=
  match t.off with
  | 0x008 => s.ckptCtrl f v
  | 0x054 => if s.selectorFree t then s.setReg t.key v else s.rejectState f t
  | 0x090 => if v.getLsbD 0 then s.askClear 0 10 else s
  | _ => s.setReg t.key v

/-- BUDGET.SLOW_CLR (R536). -/
def State.slowClear (s : State) (p : Nat) : State := s.clearRegs .budget p 0x060 0x088

/-- What an accepted write of a register that is neither staged nor common does. -/
def State.writePlain (s : State) (f : Fn) (t : Target) (v : Word) : State :=
  match t.page.kind with
  | .glb => if t.off = 0x08 then s.glbCtrl f t v else s.setReg t.key v
  | .err => s.writeErr f v
  | .clk => if t.off = 0x48 then onward s (execTimeSet f false (v ++ 0#32) s) else s.setReg t.key v
  | .mgmt => (s.setReg t.key v).updateStall
  | .cel =>
    if t.off = 0x4C then onward s (execPteWrite f v s)
    else if t.off = 0x58 then s.writeResume f v
    else s.setReg t.key v
  | .stg => s.writeStg f t v
  | .coll => s.writeColl f t v
  | .ckpt => s.writeCkpt f t v
  | .lnk => onward s (execLnkRetrain f (Fin.ofNat 16 t.page.inst) v s)
  | .fe => s.writeFe f t v
  | .part => s.writePart f t v
  | .htab => if s.selectorFree t then s.setReg t.key v else s.rejectState f t
  | .budget => if v.getLsbD 0 then s.slowClear t.page.inst else s
  | .clu => if t.off = 0x544 then onward s (execTagClr f t.n64 v s) else s.setReg t.key v
  | .bot => onward s (execBotEntryWrite f t.n64 (Fin.ofNat 512 ((t.off - 0x800) / 4)) false (v.zeroExtend 64) s)
  | .msixTable => (s.setReg t.key v).flushMsix t.page.inst
  | .pwr | .age | .fuse | .sloe | .route | .port | .slot | .sync | .mov | .vec | .msixPba => s.setReg t.key v

/-! ## Staged writes (R637, R640) -/

/-- Whether a staged register may be written now: queue configurations only while the queue is FREE (R497), a context's
block only while it is FREE, SAVED or SUSPENDED (R514). -/
def State.mayStage (s : State) (t : Target) : Bool :=
  match t.page.kind with
  | .fe => t.off < 0x100 || (s.queueOf t.page.inst ((t.off - 0x100) / 64)).st == .free
  | .part =>
    if 0x64 ≤ t.off ∧ t.off ≤ 0x70 then
      let st := (s.ctxOf t.page.inst (s.ctxSel t.page.inst)).st
      st == .free || st == .saved || st == .suspended
    else true
  | _ => true

/-- Whether a staged register takes a value now: it may be written, and its group does not wait (R639). -/
def State.stageOpen (s : State) (t : Target) : Bool :=
  let c := s.commitOf t.page
  s.mayStage t && !(c.waiting && c.groups.contains (groupOf t.page.kind t.off))

/-- Whether a write of Q_CFG changes WM_EN or WM_GROUP, which only the physical function writes (R276).
DEDUCED: assumption 58. -/
def State.wmChange (s : State) (t : Target) (v : Word) : Bool :=
  match blockInst t.page t.off with
  | some _ => t.off % 64 == 0 && (v ^^^ s.nextVal t.key) &&& 0x9F000000 ≠ 0
  | none => false

/-- Stage an accepted write. ROUTE.MAP_DATA is staged for the coordinate that MAP_SEL names (R394). -/
def State.writeStaged (s : State) (f : Fn) (t : Target) (v : Word) : State :=
  if f.isVf && s.wmChange t v then s.reject f t.page t.off 4
  else if !s.mayStage t then s.rejectState f t
  else if t.page.kind = .route ∧ t.off = 0x50 then
    if (s.commitOf t.page).waiting then s.rejectState f t
    else { s with lk := { s.lk with mapStaged := s.lk.mapStaged.put none (s.pr .route 0 0x4C).toNat (some v) } }
  else s.stageWrite f t v

/-! ## Pairs (R632) and whole writes -/

/-- Whether the low half of a pair is held until its high half is written: those pairs that a write reaches. -/
def heldLow (t : Target) (r : RegSpec) : Bool :=
  pairLow t.page.kind t.off && (r.acc == .rw || r.acc == .rws || r.acc == .wo) && t.page.kind != .bot

/-- The high half of a staged pair: both halves are staged together. DEDUCED: assumption 30. -/
def stagedHigh (t : Target) (r : RegSpec) : Bool :=
  r.acc == .rws && decide (4 ≤ t.off) && pairLow t.page.kind (t.off - 4)

/-- Set INT_ENABLE (R641): a bit that becomes 1 over a set status bit announces it. -/
def State.writeEnable (s : State) (t : Target) (v : Word) : State :=
  let new := v &&& ~~~(s.reg t.key)
  let s := s.setReg t.key v
  s.announce t.page 0 (new &&& s.pr t.page.kind t.page.inst 0x10)

/-- A common register (R626). -/
def State.writeCommon (s : State) (f : Fn) (t : Target) (v : Word) : State :=
  match t.off with
  | 0x010 => s.writeOneClear t v
  | 0x014 => s.writeEnable t v
  | 0x018 => s.raise t.page.kind t.page.inst v
  | 0x020 => if v.getLsbD 0 then s.commitPage f t.page else if v.getLsbD 1 then s.discardPage t.page else s
  | _ => s

/-- What an accepted 32-bit write does. Bits of read-only fields are ignored. -/
def State.writeAct (s : State) (f : Fn) (t : Target) (r : RegSpec) (v : Word) : State :=
  let v := v &&& r.wmask
  if t.page.kind != .msixTable && decide (0x010 ≤ t.off ∧ t.off < 0x040) then s.writeCommon f t v
  else if heldLow t r then
    if r.acc == .rws && !s.stageOpen t then s.rejectState f t else s.setWbuf f t.page (some ⟨t.off, v⟩)
  else if stagedHigh t r then
    match s.wbufOf f t.page with
    | some lo =>
      if lo.offset = t.off - 4 then
        let low : Target := ⟨t.page, t.off - 4⟩
        if !s.stageOpen t then s.rejectState f t
        else ((s.setWbuf f t.page none).stageWrite f low lo.value).stageWrite f t v
      else s.rejectState f t
    | none => s.rejectState f t
  else if blockInst t.page t.off ≠ none ∧ t.off % 64 = 0x0C then
    match blockInst t.page t.off with
    | some q => onward s (execQueueFlush f q v s)
    | none => s
  else match r.acc with
    | .rws => s.writeStaged f t v
    | .rwl => if t.page.kind = .glb then (if v.getLsbD 0 then s.lockTenancy f t else s) else s.writeStaged f t v
    | _ => s.writePlain f t v

/-- A 32-bit write. A rejected PART.SYNC_SIGNAL or CEL.PTE_DATA_HI is counted as well (R298, R221). -/
def State.write32 (s : State) (f : Fn) (offset size : Nat) (v : Word) : State :=
  match s.openWrite f offset size v with
  | .error s' => match s.resolve f offset with
    | some t =>
      if size = 4 ∧ t.page.kind = .part ∧ t.off = 0x484 then onward s (execSyncSignal f t.n64 v s)
      else if size = 4 ∧ t.page.kind = .cel ∧ t.off = 0x4C then onward s (execPteWrite f v s)
      else s'
    | none => s'
  | .ok (t, r) => s.writeAct f t r v

/-- Whether an aligned 64-bit write at this register takes a pair whole: a held pair, or two bank-owner words. -/
def writePair (t : Target) (r : RegSpec) : Bool :=
  heldLow t r || (t.page.kind == .bot && decide (0x800 ≤ t.off))

/-- A 64-bit write (R631, R632, R184): a pair acts at once, after both halves have been checked, and leaves what the
write buffer holds; anything else is two 32-bit writes. DEDUCED: assumption 30. -/
def State.write64 (s : State) (f : Fn) (offset : Nat) (v : BitVec 64) : State :=
  let lo : Word := v.extractLsb' 0 32
  let hi : Word := v.extractLsb' 32 32
  let pair : Option (Target × RegSpec) := match s.resolve f offset with
    | none => none
    | some t => match t.page.spec t.off with
      | none => none
      | some r => if writePair t r && s.served f offset then some (t, r) else none
  match pair with
  | none => (s.write32 f offset 4 lo).write32 f (offset + 4) 4 hi
  | some _ =>
    match s.openWrite f offset 4 lo with
    | .error s => s
    | .ok (t, r) =>
      match s.openWrite f (offset + 4) 4 hi with
      | .error s => s
      | .ok (t', r') =>
        if t.page.kind = .bot then
          onward s (execBotEntryWrite f t.n64 (Fin.ofNat 512 ((t.off - 0x800) / 4)) true v s)
        else
          let held := s.wbufOf f t.page
          let s := (s.writeAct f t r lo).writeAct f t' r' hi
          s.setWbuf f t.page held

/-- REGISTER_WRITE (R630, R631): a write of a given width at an offset of the function's BAR0.
DEDUCED: assumption 28. -/
def execRegisterWrite (f : Fn) (offset : BitVec 26) (w : Width) (v : BitVec 64) (s : State) : Out :=
  if w = .w64 ∧ offset.toNat % 8 = 0 then .next (s.write64 f offset.toNat v)
  else .next (s.write32 f offset.toNat w.bytes (v.extractLsb' 0 32))

/-- INT_FORCE (R641): a write of the page's INT_FORCE register. -/
def execIntForce (f : Fn) (page : BitVec 14) (bits : Word) (s : State) : Out :=
  match s.openWrite f (page.toNat * 0x1000 + 0x18) 4 bits with
  | .error s => .next s
  | .ok (t, r) => .next (s.writeAct f t r bits)

/-! ## Reads -/

/-- What follows from the read of a register (R554, R225, R540): an RC register is cleared, and a word of the oldest
record marks it as seen. DEDUCED: assumption 37. -/
def State.readEffect (s : State) (f : Fn) (t : Target) : State :=
  if f = .smb then s
  else if t.off = 0x01C ∧ t.page.kind ≠ .msixTable ∧ t.page.kind ≠ .msixPba then s.setReg t.key 0
  else if t.page.kind = .cel ∧ t.off = 0x54 then { s with cel := { s.cel with misses := s.cel.misses.tail } }
  else if t.page.kind = .err ∧ 0x400 ≤ t.off ∧ t.off < 0x440 then
    match s.err.ring with
    | r :: rs => { s with err := { s.err with ring := { r with seen := true } :: rs } }
    | [] => s
  else s

/-- An aligned 32-bit read of a register (R632): the low half of a pair latches the high half, and the high half is the
latched one where the latch holds that pair. -/
def State.read32 (s : State) (f : Fn) (t : Target) : Word × State :=
  let v := s.view f t.page t.off
  if f = .smb then (v, s)
  else if pairLow t.page.kind t.off then
    (v, (s.setLatch f t.page (some ⟨t.off, s.view f t.page (t.off + 4)⟩)).readEffect f t)
  else if 4 ≤ t.off ∧ pairLow t.page.kind (t.off - 4) then
    match s.latchOf f t.page with
    | some h => (if h.offset = t.off - 4 then h.value else v, s)
    | none => (v, s)
  else (v, s.readEffect f t)

/-- A read of 32 bits at an offset, which may name no register. -/
def State.readWord (s : State) (f : Fn) (offset : Nat) : Word × State :=
  match s.resolve f offset with
  | some t => s.read32 f t
  | none => (0, s)

/-- A read of 64 bits: both halves of a pair at once, or two reads. -/
def State.read64 (s : State) (f : Fn) (offset : Nat) : BitVec 64 × State :=
  match s.resolve f offset with
  | some t =>
    if pairLow t.page.kind t.off then (s.view f t.page (t.off + 4) ++ s.view f t.page t.off, s)
    else
      let a := s.readWord f offset
      let b := a.2.readWord f (offset + 4)
      (b.1 ++ a.1, b.2)
  | none => (0, s)

/-- REGISTER_PAIR_READ (R631, R632, R635): a read of a given width at an offset of the function's BAR0. While accesses
are not served it returns all ones, or 0 in a failed start; an unaligned one returns all ones and is logged; a narrow
one returns the addressed bytes and has no side effect. -/
def execRegisterPairRead (f : Fn) (offset : BitVec 26) (w : Width) (s : State) : Out :=
  let o := offset.toNat
  if !s.served f o then .next (s.answer (s.unserved f w))
  else if o % w.bytes ≠ 0 then
    let s := match s.resolve f o with
      | some t => s.reject f t.page t.off 3
      | none => s.rejectAt f (logPage f) o (if f.isVf then (logPage f).base + o % 0x1000 else o) 3
    .next (s.answer (allOnesOf w))
  else match w with
    | .w64 => let r := s.read64 f o; .next (r.2.answer r.1)
    | .w32 => let r := s.readWord f o; .next (r.2.answer (r.1.zeroExtend 64))
    | .w16 | .w8 =>
      let v : Word := match s.resolve f (o / 4 * 4) with
        | some t => s.view f t.page t.off
        | none => 0
      .next (s.answer (((v >>> (8 * (o % 4))) &&& (if w = .w8 then 0xFF else 0xFFFF)).zeroExtend 64))

/-- ERR_LOG_READ (R554): a read of the ERR_LOG of the page at an index of the function's BAR0. -/
def execErrLogRead (f : Fn) (page : BitVec 14) (s : State) : Out :=
  let o := page.toNat * 0x1000 + 0x1C
  if !s.served f o then .next (s.answer (s.unserved f .w32))
  else let r := s.readWord f o; .next (r.2.answer (r.1.zeroExtend 64))

end Sys2Proof.Machine
end

