-- ==== Sys2Proof/Machine/Dispatch.lean ====
section
/-! DEFINITION. The meaning of each command: one arm per constructor of `Instr`. -/

namespace Sys2Proof.Machine

def exec (i : Instr) (s : State) : Host.Outcome State Fault Refusal :=
  match i with
  | .coldReset => Sys2Proof.Machine.execColdReset s
  | .coldStart bootMode slotId => Sys2Proof.Machine.execColdStart bootMode slotId s
  | .bootPhaseDone x => Sys2Proof.Machine.execBootPhaseDone x s
  | .warmReset copy a b blown => Sys2Proof.Machine.execWarmReset copy a b blown s
  | .warmResetPin => Sys2Proof.Machine.execWarmResetPin s
  | .perstAssert => Sys2Proof.Machine.execPerstAssert s
  | .glbWarmReset f key => Sys2Proof.Machine.execGlbWarmReset f key s
  | .stageModeRequest f => Sys2Proof.Machine.execStageModeRequest f s
  | .partitionedModeRequest f => Sys2Proof.Machine.execPartitionedModeRequest f s
  | .tenancyLock f => Sys2Proof.Machine.execTenancyLock f s
  | .registerWrite f offset w v => Sys2Proof.Machine.execRegisterWrite f offset w v s
  | .registerPairRead f offset w => Sys2Proof.Machine.execRegisterPairRead f offset w s
  | .errLogRead f page => Sys2Proof.Machine.execErrLogRead f page s
  | .stageCommit f page => Sys2Proof.Machine.execStageCommit f page s
  | .stageDiscard f page => Sys2Proof.Machine.execStageDiscard f page s
  | .commitApply page g => Sys2Proof.Machine.execCommitApply page g s
  | .intForce f page bits => Sys2Proof.Machine.execIntForce f page bits s
  | .dispatchRecord p hot half => Sys2Proof.Machine.execDispatchRecord p hot half s
  | .recordComplete r => Sys2Proof.Machine.execRecordComplete r s
  | .nop r => Sys2Proof.Machine.execNop r s
  | .selfSubmit r => Sys2Proof.Machine.execSelfSubmit r s
  | .timestamp r => Sys2Proof.Machine.execTimestamp r s
  | .doorbell f p q v => Sys2Proof.Machine.execDoorbell f p q v s
  | .ringEntryFetch p hot half hostEntry hostRecs => Sys2Proof.Machine.execRingEntryFetch p hot half hostEntry hostRecs s
  | .halfRelease p hot => Sys2Proof.Machine.execHalfRelease p hot s
  | .commandFault r => Sys2Proof.Machine.execCommandFault r s
  | .queueCreate f p q => Sys2Proof.Machine.execQueueCreate f p q s
  | .queueDestroy f p q => Sys2Proof.Machine.execQueueDestroy f p q s
  | .queueResume f p q => Sys2Proof.Machine.execQueueResume f p q s
  | .matmul r => Sys2Proof.Machine.execMatmul r s
  | .convOp r => Sys2Proof.Machine.execConv r s
  | .attQk r => Sys2Proof.Machine.execAttQk r s
  | .attPv r => Sys2Proof.Machine.execAttPv r s
  | .vecMap r => Sys2Proof.Machine.execVecMap r s
  | .vecReduce r => Sys2Proof.Machine.execVecReduce r s
  | .vecNorm r => Sys2Proof.Machine.execVecNorm r s
  | .vecSoftmax r => Sys2Proof.Machine.execVecSoftmax r s
  | .vecConvert r => Sys2Proof.Machine.execVecConvert r s
  | .vecRandom r => Sys2Proof.Machine.execVecRandom r s
  | .cmpCount r => Sys2Proof.Machine.execCmpCount r s
  | .passIssue c t w => Sys2Proof.Machine.execPassIssue c t w s
  | .activityStep c t => Sys2Proof.Machine.execActivityStep c t s
  | .pulpHoldExpiry c t => Sys2Proof.Machine.execPulpHoldExpiry c t s
  | .stepCommit c u => Sys2Proof.Machine.execStepCommit c u s
  | .stepRestart c u drain => Sys2Proof.Machine.execStepRestart c u drain s
  | .barrierArrive c => Sys2Proof.Machine.execBarrierArrive c s
  | .barrierClose p cycles => Sys2Proof.Machine.execBarrierClose p cycles s
  | .gangTimeout p => Sys2Proof.Machine.execGangTimeout p s
  | .park p => Sys2Proof.Machine.execPark p s
  | .parkedResume p cycles => Sys2Proof.Machine.execParkedResume p cycles s
  | .nocRead q n waited => Sys2Proof.Machine.execNocRead q n waited s
  | .nocWrite q data inc tierBusy waited => Sys2Proof.Machine.execNocWrite q data inc tierBusy waited s
  | .collideRetry id tierBusy => Sys2Proof.Machine.execCollideRetry id tierBusy s
  | .arrivalIncrement id => Sys2Proof.Machine.execArrivalIncrement id s
  | .syncAddApply c => Sys2Proof.Machine.execSyncAddApply c s
  | .botEntryWrite f c w wide v => Sys2Proof.Machine.execBotEntryWrite f c w wide v s
  | .handoverUnpend b => Sys2Proof.Machine.execHandoverUnpend b s
  | .wipeStart c t tier => Sys2Proof.Machine.execWipeStart c t tier s
  | .wipeDone c t tier => Sys2Proof.Machine.execWipeDone c t tier s
  | .bankRelease f p v => Sys2Proof.Machine.execBankRelease f p v s
  | .retentionEnter r tier => Sys2Proof.Machine.execRetentionEnter r tier s
  | .retentionWake q op => Sys2Proof.Machine.execRetentionWake q op s
  | .retentionWakeDone r tier => Sys2Proof.Machine.execRetentionWakeDone r tier s
  | .rowMapout b row => Sys2Proof.Machine.execRowMapout b row s
  | .tagWrite q data => Sys2Proof.Machine.execTagWrite q data s
  | .tagRead q => Sys2Proof.Machine.execTagRead q s
  | .tagPeek q => Sys2Proof.Machine.execTagPeek q s
  | .tagFill q data => Sys2Proof.Machine.execTagFill q data s
  | .tagBusyRetry id => Sys2Proof.Machine.execTagBusyRetry id s
  | .tagTimeout id => Sys2Proof.Machine.execTagTimeout id s
  | .tagClr f c v => Sys2Proof.Machine.execTagClr f c v s
  | .pteWrite f v => Sys2Proof.Machine.execPteWrite f v s
  | .pageScrubDone p vpn => Sys2Proof.Machine.execPageScrubDone p vpn s
  | .pteUnmapDone p vpn => Sys2Proof.Machine.execPteUnmapDone p vpn s
  | .celMissRead f => Sys2Proof.Machine.execCelMissRead f s
  | .celResumeRetry f ch => Sys2Proof.Machine.execCelResumeRetry f ch s
  | .celResumeFail f ch => Sys2Proof.Machine.execCelResumeFail f ch s
  | .cellarMissTimeout ch => Sys2Proof.Machine.execCellarMissTimeout ch s
  | .pageResponse prg code => Sys2Proof.Machine.execPageResponse prg code s
  | .pageRequestTimeout prg => Sys2Proof.Machine.execPageRequestTimeout prg s
  | .atsInvalidation f tag page n => Sys2Proof.Machine.execAtsInvalidation f tag page n s
  | .hostReadCompletion id status data => Sys2Proof.Machine.execHostReadCompletion id status data s
  | .hostCompletionTimeout id => Sys2Proof.Machine.execHostCompletionTimeout id s
  | .copyOp r => Sys2Proof.Machine.execCopy r s
  | .fillOp r => Sys2Proof.Machine.execFill r s
  | .skew r => Sys2Proof.Machine.execSkew r s
  | .packOp r => Sys2Proof.Machine.execPack r s
  | .unpackOp r => Sys2Proof.Machine.execUnpack r s
  | .moverChunkDone n hostOk collide => Sys2Proof.Machine.execMoverChunkDone n hostOk collide s
  | .queueWrite q data eoi => Sys2Proof.Machine.execQueueWrite q data eoi s
  | .queueRead q => Sys2Proof.Machine.execQueueRead q s
  | .queuePtrMismatch q => Sys2Proof.Machine.execQueuePtrMismatch q s
  | .queueFlush f q v => Sys2Proof.Machine.execQueueFlush f q v s
  | .signalOp r => Sys2Proof.Machine.execSignal r s
  | .waitOp r => Sys2Proof.Machine.execWait r s
  | .arrive r => Sys2Proof.Machine.execArrive r s
  | .setOp r => Sys2Proof.Machine.execSet r s
  | .waitBusyRetry r => Sys2Proof.Machine.execWaitBusyRetry r s
  | .waitTimeout r => Sys2Proof.Machine.execWaitTimeout r s
  | .syncSignal f p v => Sys2Proof.Machine.execSyncSignal f p v s
  | .vmapWrite f p v => Sys2Proof.Machine.execVmapWrite f p v s
  | .brambleWindow p => Sys2Proof.Machine.execBrambleWindow p s
  | .brambleSnapshotDone p => Sys2Proof.Machine.execBrambleSnapshotDone p s
  | .stageFeed r => Sys2Proof.Machine.execStageFeed r s
  | .critEnter r => Sys2Proof.Machine.execCritEnter r s
  | .critExit r => Sys2Proof.Machine.execCritExit r s
  | .stepBegin => Sys2Proof.Machine.execStepBegin s
  | .updateInvoke => Sys2Proof.Machine.execUpdateInvoke s
  | .stepBoundary => Sys2Proof.Machine.execStepBoundary s
  | .admission => Sys2Proof.Machine.execAdmission s
  | .stageDispatch => Sys2Proof.Machine.execStageDispatch s
  | .invocationDone => Sys2Proof.Machine.execInvocationDone s
  | .captureItem q => Sys2Proof.Machine.execCaptureItem q s
  | .sendGranule d => Sys2Proof.Machine.execSendGranule d s
  | .spillStart => Sys2Proof.Machine.execSpillStart s
  | .spillDone => Sys2Proof.Machine.execSpillDone s
  | .prefetchStart => Sys2Proof.Machine.execPrefetchStart s
  | .prefetchDone => Sys2Proof.Machine.execPrefetchDone s
  | .jobFault => Sys2Proof.Machine.execJobFault s
  | .stgFaultClr f v => Sys2Proof.Machine.execStgFaultClr f v s
  | .stepGo f v => Sys2Proof.Machine.execStepGo f v s
  | .flitReceive l f fecCorr fecBad => Sys2Proof.Machine.execFlitReceive l f fecCorr fecBad s
  | .nakReceive l seq => Sys2Proof.Machine.execNakReceive l seq s
  | .replayTimeout l => Sys2Proof.Machine.execReplayTimeout l s
  | .linkLockLoss l => Sys2Proof.Machine.execLinkLockLoss l s
  | .resyncRequest l => Sys2Proof.Machine.execResyncRequest l s
  | .resyncReply l last => Sys2Proof.Machine.execResyncReply l last s
  | .resyncTimeout p => Sys2Proof.Machine.execResyncTimeout p s
  | .writePacket p vc refused => Sys2Proof.Machine.execWritePacket p vc refused s
  | .writeIncPacket p vc refused => Sys2Proof.Machine.execWriteIncPacket p vc refused s
  | .arrivePacket p vc => Sys2Proof.Machine.execArrivePacket p vc s
  | .cmplPacket p vc => Sys2Proof.Machine.execCmplPacket p vc s
  | .stagePacket p vc => Sys2Proof.Machine.execStagePacket p vc s
  | .creditPacket p vc => Sys2Proof.Machine.execCreditPacket p vc s
  | .transitForward p vc => Sys2Proof.Machine.execTransitForward p vc s
  | .linkTrainStart l => Sys2Proof.Machine.execLinkTrainStart l s
  | .phyTrainDone l => Sys2Proof.Machine.execPhyTrainDone l s
  | .fecLock l => Sys2Proof.Machine.execFecLock l s
  | .train l epoch => Sys2Proof.Machine.execTrain l epoch s
  | .ident l serial phys port logical dir => Sys2Proof.Machine.execIdent l serial phys port logical dir s
  | .identSendTimer l => Sys2Proof.Machine.execIdentSendTimer l s
  | .quinceJudge l => Sys2Proof.Machine.execQuinceJudge l s
  | .downRetrain l => Sys2Proof.Machine.execDownRetrain l s
  | .lnkRetrain f l v => Sys2Proof.Machine.execLnkRetrain f l v s
  | .floodReset l origin ident step => Sys2Proof.Machine.execFloodReset l origin ident step s
  | .floodJobFault l origin ident step => Sys2Proof.Machine.execFloodJobFault l origin ident step s
  | .allReduce r => Sys2Proof.Machine.execAllReduce r s
  | .reduceScatter r => Sys2Proof.Machine.execReduceScatter r s
  | .allGather r => Sys2Proof.Machine.execAllGather r s
  | .broadcast r => Sys2Proof.Machine.execBroadcast r s
  | .barrier r => Sys2Proof.Machine.execBarrier r s
  | .snapshot r => Sys2Proof.Machine.execSnapshot r s
  | .upData p vc => Sys2Proof.Machine.execUpData p vc s
  | .upEnd p vc => Sys2Proof.Machine.execUpEnd p vc s
  | .downData p vc => Sys2Proof.Machine.execDownData p vc s
  | .downEnd p vc => Sys2Proof.Machine.execDownEnd p vc s
  | .closeTime n => Sys2Proof.Machine.execCloseTime n s
  | .refuse p vc => Sys2Proof.Machine.execRefuse p vc s
  | .lateReq p vc => Sys2Proof.Machine.execLateReq p vc s
  | .lateData p vc => Sys2Proof.Machine.execLateData p vc s
  | .lateLost p vc => Sys2Proof.Machine.execLateLost p vc s
  | .torn p vc => Sys2Proof.Machine.execTorn p vc s
  | .collectiveTimeout n => Sys2Proof.Machine.execCollectiveTimeout n s
  | .verdictUp p vc => Sys2Proof.Machine.execVerdictUp p vc s
  | .verdictDown p vc => Sys2Proof.Machine.execVerdictDown p vc s
  | .barrierUp p vc => Sys2Proof.Machine.execBarrierUp p vc s
  | .barrierDown p vc => Sys2Proof.Machine.execBarrierDown p vc s
  | .marker p vc => Sys2Proof.Machine.execMarker p vc s
  | .shardData p vc => Sys2Proof.Machine.execShardData p vc s
  | .shardEnd p vc => Sys2Proof.Machine.execShardEnd p vc s
  | .ckptAck p vc => Sys2Proof.Machine.execCkptAck p vc s
  | .ckptNak p vc => Sys2Proof.Machine.execCkptNak p vc s
  | .shardAckTimeout n => Sys2Proof.Machine.execShardAckTimeout n s
  | .abandon p vc => Sys2Proof.Machine.execAbandon p vc s
  | .pullReq p vc => Sys2Proof.Machine.execPullReq p vc s
  | .pullData p vc => Sys2Proof.Machine.execPullData p vc s
  | .pullEnd p vc => Sys2Proof.Machine.execPullEnd p vc s
  | .restoreTimeout b => Sys2Proof.Machine.execRestoreTimeout b s
  | .ckptTake f v => Sys2Proof.Machine.execCkptTake f v s
  | .ckptFull f v => Sys2Proof.Machine.execCkptFull f v s
  | .ckptRestore f v => Sys2Proof.Machine.execCkptRestore f v s
  | .partConfigure f p => Sys2Proof.Machine.execPartConfigure f p s
  | .partUnconfigure f p => Sys2Proof.Machine.execPartUnconfigure f p s
  | .partReset f p => Sys2Proof.Machine.execPartReset f p s
  | .vfFlr p => Sys2Proof.Machine.execVfFlr p s
  | .vfEnableChange on n => Sys2Proof.Machine.execVfEnableChange on n s
  | .clusterTake f p c => Sys2Proof.Machine.execClusterTake f p c s
  | .clusterReturn f p c => Sys2Proof.Machine.execClusterReturn f p c s
  | .clusterMove f p c exp => Sys2Proof.Machine.execClusterMove f p c exp s
  | .clusterOpDone p => Sys2Proof.Machine.execClusterOpDone p s
  | .regulatorRefill => Sys2Proof.Machine.execRegulatorRefill s
  | .ctxCreate f p => Sys2Proof.Machine.execCtxCreate f p s
  | .ctxDestroy f p => Sys2Proof.Machine.execCtxDestroy f p s
  | .ctxSuspend f p => Sys2Proof.Machine.execCtxSuspend f p s
  | .ctxResume f p => Sys2Proof.Machine.execCtxResume f p s
  | .quantumExpiry p => Sys2Proof.Machine.execQuantumExpiry p s
  | .contextYield p => Sys2Proof.Machine.execContextYield p s
  | .ctxSaveDone p => Sys2Proof.Machine.execCtxSaveDone p s
  | .ctxRestoreDone p => Sys2Proof.Machine.execCtxRestoreDone p s
  | .ingestPost f p v => Sys2Proof.Machine.execIngestPost f p v s
  | .ingestLanded p => Sys2Proof.Machine.execIngestLanded p s
  | .errFirstClr f => Sys2Proof.Machine.execErrFirstClr f s
  | .errPop f => Sys2Proof.Machine.execErrPop f s
  | .sloeRowTest ahead found => Sys2Proof.Machine.execSloeRowTest ahead found s
  | .sloePatrol x => Sys2Proof.Machine.execSloePatrol x s
  | .transactionWatchdog w => Sys2Proof.Machine.execTransactionWatchdog w s
  | .canaryMeasure r slacks drifts => Sys2Proof.Machine.execCanaryMeasure r slacks drifts s
  | .replan r kv guard => Sys2Proof.Machine.execReplan r kv guard s
  | .regionFreqApply r => Sys2Proof.Machine.execRegionFreqApply r s
  | .fuseBlowDone ok => Sys2Proof.Machine.execFuseBlowDone ok s
  | .tempSample raw => Sys2Proof.Machine.execTempSample raw s
  | .capEval p100us p10ms pClk rails => Sys2Proof.Machine.execCapEval p100us p10ms pClk rails s
  | .railExcursion rail => Sys2Proof.Machine.execRailExcursion rail s
  | .arrayRailSettled mv => Sys2Proof.Machine.execArrayRailSettled mv s
  | .arrayReqTimeout => Sys2Proof.Machine.execArrayReqTimeout s
  | .refclkLoss c => Sys2Proof.Machine.execRefclkLoss c s
  | .tickInEdge => Sys2Proof.Machine.execTickInEdge s
  | .tickSource => Sys2Proof.Machine.execTickSource s
  | .timeSet f wide v => Sys2Proof.Machine.execTimeSet f wide v s
  | .smbSetAddress a pecOk => Sys2Proof.Machine.execSmbSetAddress a pecOk s
  | .smbRead => Sys2Proof.Machine.execSmbRead s
  | .smbWrite v pecOk => Sys2Proof.Machine.execSmbWrite v pecOk s
  | .smbReadTemp => Sys2Proof.Machine.execSmbReadTemp s
  | .smbReadPower => Sys2Proof.Machine.execSmbReadPower s
  | .smbReadSummary => Sys2Proof.Machine.execSmbReadSummary s
  | .smbUnknownCommand code => Sys2Proof.Machine.execSmbUnknownCommand code s
  | .perstNRise => Sys2Proof.Machine.execPerstNRise s
  | .retentionEntryDone r tier => Sys2Proof.Machine.execRetentionEntryDone r tier s
  | .railReturn rail => Sys2Proof.Machine.execRailReturn rail s
  | .refclkReturn c => Sys2Proof.Machine.execRefclkReturn c s
  | .tickEdgeMissing => Sys2Proof.Machine.execTickEdgeMissing s
  | .stallNHoldExpiry n => Sys2Proof.Machine.execStallNHoldExpiry n s
  | .sidebandPinChange pin level glitch => Sys2Proof.Machine.execSidebandPinChange pin level glitch s
  | .tckEdge rising tms tdi code => Sys2Proof.Machine.execTckEdge rising tms tdi code s
  | .smbClockLowTimeout => Sys2Proof.Machine.execSmbClockLowTimeout s
  | .regionFault r => Sys2Proof.Machine.execRegionFault r s
  | .checkpointShardSend => Sys2Proof.Machine.execCheckpointShardSend s
  | .configurationWrite fn busMaster d3hot msixEnable msixMask => Sys2Proof.Machine.execConfigurationWrite fn busMaster d3hot msixEnable msixMask s

end Sys2Proof.Machine
end

