-- ==== Sys2Proof/Machine/Tick.lean ====
section
/-! DEFINITION. One nanosecond of the device time base (R610, R611), which is what a step does while no command waits:
the time base advances, and with it the counts of time that the registers keep. -/

namespace Sys2Proof.Machine

/-! ## Bramble's quiet time (R299) -/

/-- Whether the quiet time of a partition grows (R299): something is blocked, nothing runs, waits for the device or is
ready. -/
def State.quietNow (s : State) (p : Nat) : Bool :=
  !((s.blockedWaits p).isEmpty && (s.blockedTags p).isEmpty) && (s.gangOf p).isNone &&
  !((s.liveFlights p).any s.keepsAwake) && !(s.pad.held.any fun h => reqForPart h.req p) && s.noneReady p

/-- One nanosecond of Bramble. -/
def State.tickBramble (s : State) (p : Nat) : State :=
  let b := s.brambleOf p
  if s.quietNow p then s.setBramble p { b with quiet := b.quiet + 1 }
  else if b.quiet = 0 ∧ !b.counted ∧ !b.ext then s
  else s.quietRestart p

/-! ## Throttle times (R513) -/

/-- The regulators that the chunk of a mover channel draws on. -/
def State.chunkUses (s : State) (c : ChanCmd) (r : Nat) : Bool :=
  match s.flight? c.ref with
  | none => false
  | some f =>
    let ps := (c.srcPieces f.lrec).1 ++ (c.srcPieces f.lrec).2 ++ c.dstPieces c.chunkLen
    let at_ (w : Window) : Bool := ps.any fun q => windowOf (BitVec.ofNat 64 q.1) == w
    if r = 0 then true else if r = 1 then at_ .celView else if r = 3 then at_ .host else false

/-- A unit of the partition is ready and its regulator `r` holds no tokens: a chunk, a word of an ingest post, an ARRIVE,
or a queue with an entry to fetch. -/
def State.throttledBy (s : State) (p r : Nat) : Bool :=
  decide (s.parts.tokens.get 0 (p * 5 + r) ≤ 0) &&
  ((s.cel.chans.any fun e => match e.2 with
      | some c => c.ref.part.val == p && c.wait == waitTokens && s.chunkUses c r
      | none => false) ||
    (r == 3 && ((s.partOf p).posts.head?.map fun x => decide (x.paid < 8)).getD false) ||
    (r == 2 && (s.liveFlights p).any fun f => f.lrec.opcode == 0x52 && f.st == .queued) ||
    (r == 4 && [false, true].any fun hot => [false, true].any fun half =>
      (s.halfOf (slotOf p hot) half).recs.isEmpty &&
      (s.chooseQueue (slotOf p hot) p hot (s.halfOf (slotOf p hot) (!half))).isSome))

/-- PART.THR_NOC to THR_FETCH. -/
def State.tickThrottle (s : State) (p : Nat) : State :=
  (List.range 5).foldl (fun s r => if s.throttledBy p r then s.bump64 .part p (0xA0 + 8 * r) 1 else s) s

/-! ## Idle time of a context (R516) -/

/-- How long the running context of a partition has been idle. -/
def State.tickIdle (s : State) (p : Nat) : State :=
  let x := s.partOf p
  let idle : Bool := match x.runCtx with
    | some c => (s.ctxOf p c.toNat).st == .running && s.ctxIdle p
    | none => false
  if idle then s.setPart p { x with idle := x.idle + 1 }
  else if x.idle = 0 then s else s.setPart p { x with idle := 0 }

/-- One nanosecond of a configured partition. -/
def State.tickPart (s : State) (p : Nat) : State := ((s.tickBramble p).tickThrottle p).tickIdle p

/-! ## Stage, links and power -/

/-- STG.STASH_STALL (R338), LEDGER_STALL (R327) and IDLE (R348). -/
def State.tickStage (s : State) : State :=
  if !s.sys.stageMode then s
  else
    let runs := s.stg.st == 2 || s.stg.st == 3 || s.stg.st == 4
    let s := if s.stg.throttled then s.bump64 .stg 0 0x98 1 else s
    let s := if runs && s.itemWaits && !s.canAlloc then s.bump64 .stg 0 0xA0 1 else s
    if runs && s.stg.inv.isNone then s.bump64 .stg 0 0xA8 1 else s

/-- A member that waits for a replay entry (R371). -/
def State.replayStalled (s : State) (l : Nat) : Bool :=
  let x := s.link l
  x.st == 5 && decide (512 ≤ x.buf.length) && ((s.lportOf l).map fun p => !(s.port p).txq.isEmpty).getD false

/-- PORT.WINDOW_STALL and CREDIT_STALL (R366, R369, R393), LNK.REPLAY_STALL, and the watermarks of the receive queues
(R264). -/
def State.tickLinks (s : State) : State :=
  let s := (List.range 16).foldl (fun s l => s.evalWm (.link (Fin.ofNat 16 l))) s
  let s := (List.range 6).foldl (fun s p =>
    if (s.port p).st ≠ 1 ∨ (s.port p).txq.isEmpty then s
    else if 2047 ≤ s.unacked p then s.bump64 .port p 0x58 1
    else if (s.pickPacket p).isNone && (s.liveMembers p).any fun l => decide ((s.link l).buf.length < 512) then
      s.bump64 .port p 0x60 1
    else s) s
  (List.range 16).foldl (fun s l => if s.replayStalled l then s.bump .lnk l 0x88 else s) s

/-- PWR.CAP_NS (R621). -/
def State.tickPower (s : State) : State := if s.pwr.k = 0 then s else s.bump64 .pwr 0 0x70 1

/-- One nanosecond. Nothing counts before SYS_RESET_N has risen.
DESIGN CHOICE: assumption 1; PRESUMED: assumption 133. -/
def State.tick (s : State) : State :=
  if !s.sys.started then s
  else
    let ps := (List.range 64).filter fun p => s.configured p
    let s := ps.foldl State.tickPart s.tickTime
    s.tickStage.tickLinks.tickPower

end Sys2Proof.Machine
end

