-- ==== Sys2Proof/WellFormed.lean ====
section
/-! DEFINITION. Which commands are well formed: the checks on operands that their types leave open (lengths of data, widths
of values, lists that name a thing at most once). Everything else an operand can hold is a value the hardware can see. -/

namespace Sys2Proof

/-- A NoC-port request's bytes (R34, R177): at least one, all of one bank. -/
def NocReq.fits (q : NocReq) (n : Nat) : Bool := decide (1 ≤ n ∧ q.addr.toNat % 0x20000 + n ≤ 0x20000)

/-- The bytes that a NoC-port request reads or writes. -/
def NocOp.bytes : NocOp → Nat
  | .read n => n
  | .write d _ => d.length

/-- What a cold-start phase reports names no row twice (R584). -/
def BootReport.wf : BootReport → Bool
  | .sram rows => decide rows.Nodup
  | .pll | .fuse .. | .image .. | .keys _ | .cellar _ => true

/-- The well-formed commands: a register value fits the width of its access (R631); a tagged write carries a row (R195); a
window holds at most 1,024 records (R483); a queue word has its instance's size (R249); a flit has a 244 B body (R356);
a region has four canaries and eight ring oscillators, the device 20 sensors (R553, R560, R604); an invalidation names at least one page (R229). -/
def Instr.wf : Instr → Bool
  | .registerWrite _ _ w v => decide (v.toNat < 2 ^ (8 * w.bytes))
  | .botEntryWrite _ _ _ wide v => wide || decide (v.toNat < 2 ^ 32)
  | .bootPhaseDone x => x.wf
  | .nocRead q n _ => q.fits n
  | .nocWrite q data _ _ _ => q.fits data.length
  | .retentionWake q op => q.fits op.bytes
  | .tagWrite _ data | .tagFill _ data => data.length == 128
  | .ringEntryFetch _ _ _ _ recs => decide (recs.length ≤ 1024)
  | .queueWrite q data _ => data.length == Machine.wordBytes q
  | .flitReceive _ f _ _ => f.body.length == 244
  | .sloeRowTest _ found => decide (found.map (·.1)).Nodup
  | .canaryMeasure _ slacks drifts => slacks.length == 4 && drifts.length == 8
  | .tempSample raw => raw.length == 20
  | .capEval _ _ _ rails => decide (rails.map (·.1)).Nodup
  | .atsInvalidation _ _ _ n => decide (1 ≤ n)
  | .coldReset | .coldStart .. | .warmReset .. | .warmResetPin | .perstAssert | .glbWarmReset ..
  | .stageModeRequest .. | .partitionedModeRequest .. | .tenancyLock .. | .registerPairRead .. | .errLogRead ..
  | .stageCommit .. | .stageDiscard .. | .commitApply .. | .intForce .. | .dispatchRecord ..
  | .recordComplete .. | .nop .. | .selfSubmit .. | .timestamp .. | .doorbell .. | .halfRelease ..
  | .commandFault .. | .queueCreate .. | .queueDestroy .. | .queueResume .. | .matmul .. | .convOp ..
  | .attQk .. | .attPv .. | .vecMap .. | .vecReduce .. | .vecNorm .. | .vecSoftmax .. | .vecConvert ..
  | .vecRandom .. | .cmpCount .. | .passIssue .. | .activityStep .. | .pulpHoldExpiry .. | .stepCommit ..
  | .stepRestart .. | .barrierArrive .. | .barrierClose .. | .gangTimeout .. | .park .. | .parkedResume ..
  | .collideRetry .. | .arrivalIncrement .. | .syncAddApply .. | .handoverUnpend .. | .wipeStart ..
  | .wipeDone .. | .bankRelease .. | .retentionEnter .. | .retentionWakeDone .. | .rowMapout .. | .tagRead ..
  | .tagPeek .. | .tagBusyRetry .. | .tagTimeout .. | .tagClr .. | .pteWrite .. | .pageScrubDone ..
  | .pteUnmapDone .. | .celMissRead .. | .celResumeRetry .. | .celResumeFail .. | .cellarMissTimeout ..
  | .pageResponse .. | .pageRequestTimeout .. | .hostReadCompletion .. | .hostCompletionTimeout .. | .copyOp ..
  | .fillOp .. | .skew .. | .packOp .. | .unpackOp .. | .moverChunkDone .. | .queueRead ..
  | .queuePtrMismatch .. | .queueFlush .. | .signalOp .. | .waitOp .. | .arrive .. | .setOp ..
  | .waitBusyRetry .. | .waitTimeout .. | .syncSignal .. | .vmapWrite .. | .brambleWindow ..
  | .brambleSnapshotDone .. | .stageFeed .. | .critEnter .. | .critExit .. | .stepBegin | .updateInvoke
  | .stepBoundary | .admission | .stageDispatch | .invocationDone | .captureItem .. | .sendGranule ..
  | .spillStart | .spillDone | .prefetchStart | .prefetchDone | .jobFault | .stgFaultClr .. | .stepGo ..
  | .nakReceive .. | .replayTimeout .. | .linkLockLoss .. | .resyncRequest .. | .resyncReply ..
  | .resyncTimeout .. | .writePacket .. | .writeIncPacket .. | .arrivePacket .. | .cmplPacket ..
  | .stagePacket .. | .creditPacket .. | .transitForward .. | .linkTrainStart .. | .phyTrainDone ..
  | .fecLock .. | .train .. | .ident .. | .identSendTimer .. | .quinceJudge .. | .downRetrain ..
  | .lnkRetrain .. | .floodReset .. | .floodJobFault .. | .allReduce .. | .reduceScatter .. | .allGather ..
  | .broadcast .. | .barrier .. | .snapshot .. | .upData .. | .upEnd .. | .downData .. | .downEnd ..
  | .closeTime .. | .refuse .. | .lateReq .. | .lateData .. | .lateLost .. | .torn .. | .collectiveTimeout ..
  | .verdictUp .. | .verdictDown .. | .barrierUp .. | .barrierDown .. | .marker .. | .shardData ..
  | .shardEnd .. | .ckptAck .. | .ckptNak .. | .shardAckTimeout .. | .abandon .. | .pullReq .. | .pullData ..
  | .pullEnd .. | .restoreTimeout .. | .ckptTake .. | .ckptFull .. | .ckptRestore .. | .partConfigure ..
  | .partUnconfigure .. | .partReset .. | .vfFlr .. | .vfEnableChange .. | .clusterTake .. | .clusterReturn ..
  | .clusterMove .. | .clusterOpDone .. | .regulatorRefill | .ctxCreate .. | .ctxDestroy .. | .ctxSuspend ..
  | .ctxResume .. | .quantumExpiry .. | .contextYield .. | .ctxSaveDone .. | .ctxRestoreDone ..
  | .ingestPost .. | .ingestLanded .. | .errFirstClr .. | .errPop .. | .sloePatrol .. | .transactionWatchdog ..
  | .replan .. | .regionFreqApply .. | .fuseBlowDone .. | .railExcursion .. | .arrayRailSettled ..
  | .arrayReqTimeout | .refclkLoss .. | .tickInEdge | .tickSource | .timeSet .. | .smbSetAddress .. | .smbRead
  | .smbWrite .. | .smbReadTemp | .smbReadPower | .smbReadSummary | .smbUnknownCommand .. | .perstNRise
  | .retentionEntryDone .. | .railReturn .. | .refclkReturn .. | .tickEdgeMissing | .stallNHoldExpiry ..
  | .sidebandPinChange .. | .tckEdge .. | .smbClockLowTimeout | .regionFault .. | .checkpointShardSend
  | .configurationWrite .. => true

end Sys2Proof
end

