-- ==== Sys2Proof/Safety.lean ====
section
/-! DEFINITION. The terms in which claims are stated: what it is for a command to complete, what a command leaves as it
was, and the invariants of the whole block. -/

namespace Sys2Proof.Machine

/-- The command answers a next state, and `P` holds of it. DESIGN CHOICE: assumption 2. -/
def Completes (c : Instr) (s : State) (P : State → Prop) : Prop := ∃ t, exec c s = .next t ∧ P t

/-- Every byte of the scratchpad and of the cellar reads as before. -/
def KeepsBytes (s t : State) : Prop := (∀ a, t.padByte a = s.padByte a) ∧ ∀ a, t.celCell a = s.celCell a

/-- The bytes of the scratchpad from address `a` on are `data`. -/
def PadHolds (t : State) (a : Nat) (data : List Byte) : Prop := ∀ i, i < data.length → t.padByte (a + i) = data.getD i 0

/-- Every byte of the scratchpad but the `n` bytes at `a` reads as before. -/
def PadKeepsBut (s t : State) (a n : Nat) : Prop := ∀ x, ¬ (a ≤ x ∧ x < a + n) → t.padByte x = s.padByte x

/-- Every byte of the scratchpad outside the ranges reads as before, and so does the cellar where no range lies in it. -/
def KeepsOutside (rs : List (Nat × Nat)) (s t : State) : Prop :=
  (∀ a, (∀ w, w ∈ rs → ¬ (w.1 ≤ a ∧ a < w.1 + w.2)) → t.padByte a = s.padByte a) ∧
  ((∀ w, w ∈ rs → windowOf (BitVec.ofNat 64 w.1) ≠ .celView ∧ windowOf (BitVec.ofNat 64 w.1) ≠ .celPhys) →
    t.cel.mem = s.cel.mem)

/-- Every stored register but those listed holds what it held. -/
def KeepsRegsBut (keys : List Nat) (s t : State) : Prop := ∀ k, k ∉ keys → t.reg k = s.reg k

/-- No partition has a fault area enabled, so a fault of a partition writes no fault record to memory (R487, R488). -/
def NoFaultArea (s : State) : Prop := ∀ p, p < 64 → (s.pr .fe p 0x40).getLsbD 31 = false

/-- The canonical form of the scratchpad's bytes: addresses strictly rising, and no byte equal to the 0 that an unlisted
address reads as. DEDUCED: assumption 14. -/
def Memory.wf (m : List Host.Cell) : Bool := SMap.wf (fun _ => 0) m

/-- The memories are in canonical form, and the error ring is no longer than its 512 records (R540). -/
def MemInv (s : State) : Prop :=
  Memory.wf s.pad.mem = true ∧ SMap.wf s.celDefault s.cel.mem = true ∧ s.err.ring.length ≤ 512

/-- The count-limited settings stay within their limits (R561), and a fuse operation in progress has a count left to
use. -/
def FuseInv (s : State) : Prop :=
  s.fuse.downgrades ≤ 4 ∧ s.fuse.lowerings ≤ 8 ∧ s.fuse.revocations ≤ 4 ∧
  match s.fuse.op with
  | some (kind, _) =>
    (kind = 1 → s.fuse.downgrades < 4) ∧ (kind = 2 → s.fuse.lowerings < 8) ∧ (kind = 3 → s.fuse.revocations < 4)
  | none => True

/-- A device that has not started is in its first phase, and the tenancy lock is set only where start-up is over (R37,
R532, R584). -/
def LockInv (s : State) : Prop :=
  (s.sys.started = false → s.sys.phase = 1 ∧ s.sys.warm = none) ∧
  (s.sys.tenancyLock = true →
    s.sys.started = true ∧ (s.sys.phase = 7 ∨ s.sys.phase = 0xF ∨ s.sys.warm.isSome = true))

end Sys2Proof.Machine
end

