-- ==== Sys2Proof/Certificates/Slice0/Obligations.lean ====
section
/-! DEFINITION. The statements of this model for the provers, each a proposition named `Obligations.<Name>`. Every
command of the opcode table completes somewhere, and a statement says where and with what effect. -/

open Sys2Proof Sys2Proof.Machine

/-- For every state whose queue holds a command c in front of commands cs, step is exec of c on the state with the queue
cs; every constructor of Instr is covered. (18_register_map.md) -/
def Obligations.StepRunsFrontCommand : Prop :=
  ∀ (c : Instr) (cs : List Instr) (s : State), s.pending = c :: cs → step s = exec c { s with pending := cs }

/-- On an empty queue, before SYS_RESET_N has risen a step changes nothing; afterwards it advances the time base by what
the clock engine gives for one nanosecond (1, and 0 or more with a slew), and memories, queues of commands, flights
and the fuses are unchanged. What a step on an empty queue does is the model’s own choice (assumption 1).
(01_architecture.md, 17_power_clocks_pins.md) -/
def Obligations.IdleStepIsOneNanosecond : Prop :=
  ∀ s : State, s.pending = [] →
    (s.sys.started = false → step s = .next s) ∧
    (s.sys.started = true → ∃ t, step s = .next t ∧ t.pending = [] ∧
      t.sys.time = s.sys.time + BitVec.ofNat 64 s.clk.tick.1 ∧ t.pad = s.pad ∧ t.cel = s.cel ∧ t.fe = s.fe ∧
      t.fuse = s.fuse ∧ t.gang = s.gang ∧ t.lk = s.lk)

/-- From every state a step answers a next state: no command ends in a fault of the model and none is refused. Whatever
command runs and whatever state it runs in, the next state holds the same waiting commands in the same order.
(13_command_front_end.md, 15_reliability_and_ageing.md, 18_register_map.md) -/
def Obligations.EveryStepAnswersNext : Prop :=
  (∀ s : State, ∃ t : State, step s = .next t) ∧
  (∀ (c : Instr) (s t : State), exec c s = .next t → t.pending = s.pending)

/-- If the scratchpad and the cellar are held in canonical form and the error ring holds at most 512 records, the same
is true after any step, whichever command waits at the front of the queue. (15_reliability_and_ageing.md,
05_scratchpad.md, 06_cellar_and_movers.md) -/
def Obligations.StepKeepsMemoryForm : Prop :=
  ∀ s t : State, MemInv s → step s = .next t → MemInv t

/-- If at most 4 downgrades, 8 lowerings of the margin floor and 4 key revocations have been fused, and a fuse operation
in progress still has a count left, the same is true after any step: no sequence of commands exceeds a limit.
(15_reliability_and_ageing.md) -/
def Obligations.StepKeepsFuseLimits : Prop :=
  ∀ s t : State, FuseInv s → step s = .next t → FuseInv t

/-- In every state of the invariant LockInv (the lock is set only where start-up is over, and a device that has not
started is in its first phase), a step keeps the invariant, and if it clears the tenancy lock the command that ran
is COLD_RESET. (R37) -/
def Obligations.TenancyLockHeld : Prop :=
  ∀ s t : State, LockInv s → step s = .next t →
    LockInv t ∧ (s.sys.tenancyLock = true → t.sys.tenancyLock = false → ∃ cs, s.pending = .coldReset :: cs)

/-- State.reset meets the invariants of StepKeepsMemoryForm, StepKeepsFuseLimits (a device as shipped: assumption 12)
and TenancyLockHeld; no byte of the scratchpad or the cellar is listed, no record is in the error ring and no
command waits. (05_scratchpad.md, 15_reliability_and_ageing.md, 16_host_interface_and_boot.md) -/
def Obligations.ResetInvariants : Prop :=
  MemInv State.reset ∧ FuseInv State.reset ∧ LockInv State.reset ∧ State.reset.pad.mem = [] ∧ State.reset.cel.mem = [] ∧
  State.reset.err.ring = [] ∧ State.reset.pending = []

/-- COLD_RESET in any state: the memories, keys, registers, partitions, queues and error ring take their reset values,
the tenancy lock is clear, start-up begins at phase 0x1, and the fuses and audit log are kept. COLD_START samples
the straps and enters the PLL phase; each BOOT_PHASE_DONE moves to the next phase of R584, and an image, entropy or
cellar failure enters FAILED with its code. Nothing else of the memories, queues, partitions and links changes.
(01_architecture.md, 15_reliability_and_ageing.md, 16_host_interface_and_boot.md) -/
def Obligations.ColdResetAndStart : Prop :=
  (∀ s : State, Completes .coldReset s fun t =>
     t.fuse.audit = s.fuse.audit ∧ t.fuse.revoked = s.fuse.revoked ∧ t.fuse.floorPs = s.fuse.floorPs ∧
     t.fuse.fusedOut = s.fuse.fusedOut ∧ t.sys.tenancyLock = false ∧ t.sys.started = false ∧ t.sys.phase = 1 ∧
     t.pad.mem = [] ∧ t.cel.mem = [] ∧ t.cel.keys = [] ∧ t.bus = State.reset.bus ∧ t.parts = State.reset.parts ∧
     t.fe = State.reset.fe ∧ t.err.ring = [] ∧ t.err.first = none ∧ t.pending = s.pending) ∧
  ((∀ (m : BitVec 2) (slot : BitVec 6) (s : State), s.sys.started = false → m ≠ 3 →
     Completes (.coldStart m slot) s fun t =>
       t.sys.started = true ∧ t.sys.phase = 1 ∧ t.sys.bootMode = m ∧ t.sys.slotId = slot ∧
       t.sys.coldResets = (if s.sys.coldResets = 0xFFFFFFFF then 0xFFFFFFFF else s.sys.coldResets + 1) ∧
       t = { s with sys := t.sys, mgmt := t.mgmt }) ∧
   (∀ s : State, s.sys.started = true → s.sys.warm = none → s.sys.phase = 1 →
     Completes (.bootPhaseDone .pll) s fun t => t = { s with sys := { s.sys with phase := 2, time := 0 } }) ∧
   (∀ (a b : ImageRead) (s : State), s.sys.started = true → s.sys.warm = none → s.sys.phase = 3 →
     Completes (.bootPhaseDone (.image a b)) s fun t =>
       t = { s with sys := t.sys } ∧
       (s.imageOk a = true → t.sys.phase = 4 ∧ t.sys.imageB = false ∧ t.sys.imageVersion = a.version) ∧
       (s.imageOk a = false → s.imageOk b = true → t.sys.phase = 4 ∧ t.sys.imageB = true) ∧
       (s.imageOk a = false → s.imageOk b = false → t.sys.phase = 0xF ∧ t.sys.bootErr = 1)) ∧
   (∀ s : State, s.sys.started = true → s.sys.warm = none → s.sys.phase = 4 →
     Completes (.bootPhaseDone (.keys true)) s (fun t =>
       t.sys.phase = 5 ∧ t.sys.tenancyLock = false ∧ t.sys.deviceKey = true ∧ t.pad = s.pad ∧ t.cel.mem = s.cel.mem) ∧
     Completes (.bootPhaseDone (.keys false)) s fun t =>
       t = { s with sys := { s.sys with phase := 0xF, bootErr := 2, warm := none } }) ∧
   (∀ s : State, s.sys.started = true → s.sys.warm = none → s.sys.phase = 5 →
     Completes (.bootPhaseDone (.cellar false)) s fun t =>
       t = { s with sys := { s.sys with phase := 0xF, bootErr := 4, warm := none } }))

/-- With the device READY, not tripped and no warm reset in progress, WARM_RESET_PIN, PERST_ASSERT and an accepted
GLB_WARM_RESET each begin a warm reset: the source is shown in LAST_RESET, the device is in partitioned mode,
partitions, queues, flights and the scratchpad are cleared, every key but the device key is destroyed, the STG, COLL
and CKPT pages hold their reset values, and the fuses with the ageing history, the tenancy lock, the error ring and
the cellar contents are kept. PERST_N also resets every configuration space. (01_architecture.md,
16_host_interface_and_boot.md) -/
def Obligations.WarmResetSources : Prop :=
  ∀ s : State, s.sys.phase = 7 → s.pwr.trip = false → s.sys.warm = none →
    let Cleared (t : State) : Prop :=
      t.fuse = s.fuse ∧ t.err.ring = s.err.ring ∧ t.sys.tenancyLock = s.sys.tenancyLock ∧
      t.cel.mem = s.cel.mem ∧ t.pad.mem = [] ∧ t.parts = State.reset.parts ∧ t.fe = State.reset.fe ∧
      t.stg = Stg.reset ∧ t.sys.stageMode = false ∧ t.keyOf 64 = s.keyOf 64 ∧ (∀ p, p < 64 → t.keyOf p = 0) ∧
      (∀ off, off < 0x1000 → t.pr .stg 0 off = regReset (rk .stg 0 off) ∧ t.pr .coll 0 off = regReset (rk .coll 0 off) ∧
        t.pr .ckpt 0 off = regReset (rk .ckpt 0 off) ∧ t.stagedOf (rk .stg 0 off) = none)
    Completes .warmResetPin s (fun t => Cleared t ∧ t.sys.warm = some ⟨.pin, false⟩ ∧ t.sys.lastReset = 1) ∧
    Completes .perstAssert s (fun t => Cleared t ∧ t.sys.warm = some ⟨.perst, true⟩ ∧ t.sys.lastReset = 2 ∧
      t.host.config = [] ∧ t.host.vfEnable = false ∧ t.sys.pcieUp = false) ∧
    (∀ (f : Fn) (x : Target), s.openAt f ⟨.glb, 0⟩ 0x08 0x80005A00 = .ok x →
      Completes (.glbWarmReset f 0x5A) s fun t => Cleared t ∧ t.sys.warm = some ⟨.glb, false⟩ ∧ t.sys.lastReset = 3)

/-- WARM_RESET while a warm reset is in progress and no fuse operation was cut short: the device is READY with the
cellar copy of Spenor where it verifies, or else with the first flash image that does, WARM_RESETS has counted it,
and memories, partitions and fuses are as the warm reset left them; where nothing verifies the device is FAILED with
code 0x1. A rise of PERST_N lets the PCIe link train. (16_host_interface_and_boot.md) -/
def Obligations.WarmResetEnds : Prop :=
  (∀ (c a b : ImageRead) (blown : Bool) (s : State), s.sys.warm.isSome = true → s.fuse.op = none →
    Completes (.warmReset c a b blown) s fun t =>
      t.pad = s.pad ∧ t.cel = s.cel ∧ t.fuse = s.fuse ∧ t.parts = s.parts ∧ t.sys.warm = none ∧
      (s.imageOk c = true → t.sys.phase = 7 ∧ t.sys.cellarCopy = true ∧ t.sys.imageVersion = c.version) ∧
      (s.imageOk c = false → s.imageOk a = true → t.sys.phase = 7 ∧ t.sys.cellarCopy = false ∧ t.sys.imageB = false) ∧
      (s.imageOk c = false → s.imageOk a = false → s.imageOk b = true → t.sys.phase = 7 ∧ t.sys.imageB = true) ∧
      (s.imageOk c = false → s.imageOk a = false → s.imageOk b = false → t.sys.phase = 0xF ∧ t.sys.bootErr = 1)) ∧
  (∀ s : State, Completes .perstNRise s fun t =>
      t.sys.pcieHeld = false ∧ t.mgmt.pins.getLsbD 2 = true ∧ t = { s with sys := t.sys, mgmt := t.mgmt })

/-- An accepted STAGE_MODE_REQUEST in partitioned mode is granted when every entry check passes: the device is in stage
mode with STATE READY, every ledger entry FREE, no cellar stash entry and counters 192 to 255 of cluster 0 at 0;
otherwise it is refused with the code of the first failing check and the mode and regions are unchanged.
PARTITIONED_MODE_REQUEST in stage state READY returns to partitioned mode. Neither changes the tenancy lock, the
cellar or the scratchpad bytes. An accepted TENANCY_LOCK in partitioned mode sets the lock; where it was clear the
fuse audit log gains an entry of KIND 4 in state DONE while the log has room, where it was set nothing changes; in
stage mode the lock does not change. Nothing of the memories, partitions or queues changes. (09_stage_engine.md,
14_partitions_and_scheduling.md, 15_reliability_and_ageing.md) -/
def Obligations.ModeRequestsAndTenancyLock : Prop :=
  ((∀ (f : Fn) (x : Target) (s : State), s.openAt f ⟨.glb, 0⟩ 0x08 1 = .ok x → s.sys.stageMode = false →
     Completes (.stageModeRequest f) s fun t =>
       t.pad = s.pad ∧ t.cel = s.cel ∧ t.sys.tenancyLock = s.sys.tenancyLock ∧
       (s.entryCheck = 0 → t.sys.stageMode = true ∧ t.stg.st = 1 ∧ t.stg.ledger = [] ∧ t.stg.cstash = [] ∧
         ∀ i, i < 64 → t.countOf 0 (192 + i) = 0) ∧
       (s.entryCheck ≠ 0 → t.sys.stageMode = false ∧ t.stg.entryErr = s.entryCheck ∧ t.region = s.region)) ∧
   (∀ (f : Fn) (x : Target) (s : State), s.openAt f ⟨.glb, 0⟩ 0x08 2 = .ok x → s.sys.stageMode = true → s.stg.st = 1 →
     Completes (.partitionedModeRequest f) s fun t =>
       t.pad = s.pad ∧ t.cel = s.cel ∧ t.sys.tenancyLock = s.sys.tenancyLock ∧ t.sys.stageMode = false ∧
       t.stg.st = 0 ∧ t.stg.ledger = [] ∧ ∀ r, r < 16 → (t.regionOf r).runMhz = (t.regionOf r).mhz)) ∧
  (∀ (f : Fn) (x : Target) (s : State), s.openAt f ⟨.glb, 0⟩ 0xC0 1 = .ok x →
     Completes (.tenancyLock f) s fun t =>
       t.pad = s.pad ∧ t.cel = s.cel ∧ t.parts = s.parts ∧ t.fe = s.fe ∧
       (s.sys.stageMode = true → t.sys.tenancyLock = s.sys.tenancyLock ∧ t.fuse = s.fuse) ∧
       (s.sys.stageMode = false → t.sys.tenancyLock = true ∧
         (s.sys.tenancyLock = true → t = s) ∧
         (s.sys.tenancyLock = false → s.fuse.audit.length < 64 →
           ∃ e : AuditEnt, e.kind = 4 ∧ e.state = 2 ∧ e.arg = 0 ∧ t.fuse.audit = s.fuse.audit ++ [e])))

/-- In READY with the link up, no trip and no warm reset, CONFIGURATION_WRITE to an existing function sets its Bus
Master Enable, MSI-X Enable and Function Mask and, for the physical function alone, its power state; memories,
partitions, queues and every other function keep theirs. (16_host_interface_and_boot.md) -/
def Obligations.ConfigurationWrite : Prop :=
  ∀ (fn : Fin 65) (bm d3 en mask : Bool) (s : State),
    s.sys.pcieUp = true → s.sys.warm = none → s.pwr.trip = false → s.sys.phase = 7 → s.fnExists fn.val = true →
    Completes (.configurationWrite fn bm d3 en mask) s fun t =>
      t.host.config = s.host.config.put FnConfig.init fn.val ⟨bm, d3 && fn == 0, en, mask⟩ ∧
      t = { s with host := t.host }

/-- With the device started and not tripped, TEMP_SAMPLE of 20 readings: a failed sensor is unchanged; a reading from
-40 to 150 C that moved at most 20 C from the last valid one is taken and clears the discards; any other reading is
discarded, and the third discard in a row fails the sensor. The device is tripped exactly when some sensor has three
hits at its threshold. No byte and no fuse changes, and without a trip no partition, queue or link does. With the
device started and not tripped and k at most 24, CAP_EVAL stores the measured averages and sets k: a fast, slow or
thermal check that holds raises it by one, and at 24 sets SAT instead; with none holding, the release test lowers it
by one; otherwise it stays. The limits are those in force after the changes of this evaluation. No tile, memory,
partition, queue or fuse changes. (15_reliability_and_ageing.md, 17_power_clocks_pins.md) -/
def Obligations.TemperatureAndCapping : Prop :=
  (∀ (raw : List (BitVec 16)) (s : State), s.sys.started = true → s.pwr.trip = false → raw.length = 20 →
     Completes (.tempSample raw) s fun t =>
       (∀ (i : Nat) (v : BitVec 16), raw[i]? = some v →
         let x := s.sensorOf i
         let plausible : Prop := -320 ≤ v.toInt ∧ v.toInt ≤ 1200 ∧ (x.valid = true →
           (v.toInt - x.raw.toInt).natAbs ≤ 160)
         (x.failed = true → t.sensorOf i = x) ∧
         (x.failed = false → plausible →
           t.sensorOf i = { x with raw := v, valid := true, discards := 0, hits := if tripAt i ≤ v.toInt then x.hits + 1 else 0 }) ∧
         (x.failed = false → ¬ plausible →
           t.sensorOf i = { x with discards := x.discards + 1, failed := decide (2 ≤ x.discards) })) ∧
       (t.pwr.trip = true ↔ ∃ i, i < 20 ∧ 3 ≤ (t.sensorOf i).hits) ∧
       t.pwr.k = s.pwr.k ∧ t.pad.mem = s.pad.mem ∧ t.cel.mem = s.cel.mem ∧ t.fuse = s.fuse ∧
       (t.pwr.trip = false → t.pad = s.pad ∧ t.cel = s.cel ∧ t.parts = s.parts ∧ t.fe = s.fe ∧ t.lk = s.lk)) ∧
  (∀ (p p10 c : BitVec 16) (rails : List (Fin 9 × Word)) (s : State),
     s.sys.started = true → s.pwr.trip = false → s.pwr.k ≤ 24 →
     Completes (.capEval p p10 c rails) s fun t =>
       let n := s.pwr.evals + 1
       let k := s.pwr.k
       let up : Bool := decide (t.plFast < p.toNat) || decide (n % 10 = 0) && decide (t.plSlow < p.toNat) ||
         decide (n % 100 = 0) && s.temps.any fun x => decide (t.capT ≤ x)
       let release : Bool := decide (n % 100 = 0) && decide (0 < k) &&
         decide ((p.toNat - c.toNat) * (32 - k) + c.toNat * (33 - k) + 20 * (32 - k) ≤ t.plSlow * (32 - k)) &&
         s.temps.all fun x => decide (x < t.capT - 24)
       t.pwr.p100us = p ∧ t.pwr.p10ms = p10 ∧ t.pwr.pClk = c ∧
       t.pwr.k = (if up then min 24 (k + 1) else if release then k - 1 else k) ∧
       (up = true → k = 24 → t.pwr.sat = true) ∧
       t.pad = s.pad ∧ t.cel = s.cel ∧ t.parts = s.parts ∧ t.fe = s.fe ∧ t.gang = s.gang ∧ t.fuse = s.fuse)

/-- RAIL_EXCURSION clears the rail in OK; for VDD_AUX it resets the management transfer and notes the time, for any
other rail it latches FAULT, adds one to UV_EVENTS and drives FAULT_N low. RAIL_RETURN sets OK again.
ARRAY_RAIL_SETTLED records the level, and ends a pending request within 5 mV of it. ARRAY_REQ_TIMEOUT after 1 s ends
a pending request and drops the waiting plans. No memory byte changes, but for the fault records of the partitions
that a rail fault stops. (17_power_clocks_pins.md) -/
def Obligations.RailEvents : Prop :=
  (∀ (r : Fin 9) (s : State), r.val ≠ 8 → Completes (.railExcursion r) s fun t =>
    t.pwr.railOk = s.pwr.railOk &&& ~~~(1#9 <<< r.val) ∧ t.pwr.railFault = s.pwr.railFault ||| (1#9 <<< r.val) ∧
    t.err.device = true ∧ t.pr .pwr 0 0x7C = satAdd32 (s.pr .pwr 0 0x7C) 1 ∧ (NoFaultArea s → KeepsBytes s t)) ∧
  (∀ s : State, Completes (.railExcursion 8) s fun t =>
    t = { s with
      pwr := { s.pwr with railOk := s.pwr.railOk &&& ~~~(1#9 <<< 8), auxAt := some s.sys.time }
      mgmt := { s.mgmt with addr := 0, data := [], ack := false } }) ∧
  (∀ (r : Fin 9) (s : State), s.pwr.railOk.getLsbD r.val = false → Completes (.railReturn r) s fun t =>
    t.pwr.railOk.getLsbD r.val = true ∧ (r.val = 8 → t.mgmt.upAt = s.sys.time + 1000000) ∧
    t = { s with pwr := t.pwr, mgmt := t.mgmt }) ∧
  (∀ (mv : BitVec 10) (s : State), Completes (.arrayRailSettled mv) s fun t =>
    t.pwr.meas = mv ∧ t.pad = s.pad ∧ t.cel = s.cel ∧
    (s.pwr.reqPending = true → ((mv.toNat : Int) - s.pwr.req.toNat).natAbs ≤ 5 → t.pwr.reqPending = false) ∧
    (5 < ((mv.toNat : Int) - s.pwr.req.toNat).natAbs → t = { s with pwr := { s.pwr with meas := mv } })) ∧
  (∀ s : State, s.pwr.reqPending = true → 1000000000 ≤ (s.sys.time - s.pwr.reqAt).toNat →
    Completes .arrayReqTimeout s fun t =>
      t.pwr.reqPending = false ∧ t.pad = s.pad ∧ t.cel = s.cel ∧
      ∀ r, r < 16 → (t.regionOf r).railWait = false ∧ (t.regionOf r).mhz = (s.regionOf r).mhz ∧
        ((s.regionOf r).railWait = true → (t.regionOf r).pending = none))

/-- REFCLK_LOSS marks the clock lost: SYS_REFCLK also drives FAULT_N low; PCIE_REFCLK takes the PCIe link down and
leaves no host read outstanding; LINK_REFCLK leaves every link port DOWN or DISABLED. REFCLK_RETURN clears the mark,
and brings the PCIe link up unless PERST_N holds it. No fuse changes, and no byte but those of fault records. In
follow mode TICK_IN_EDGE within 0.9 to 1.1 ms of the last accepted edge and with an error of at most 500 ns is
accepted: the error is spread over the next 1 ms and the edge time is noted, or an armed time is loaded. Any other
edge adds one to TICK_BAD and leaves the time base alone. LOCKED sets at the fourth small error in a row, and clears
at the fourth ignored edge. The trim of an accepted edge is a free value. Memories and partitions do not change.
(17_power_clocks_pins.md) -/
def Obligations.ReferenceClocksAndTicks : Prop :=
  ((∀ (c : Fin 3) (s : State), s.clk.lost.getLsbD c.val = false → Completes (.refclkLoss c) s fun t =>
     t.clk.lost = s.clk.lost ||| (1#3 <<< c.val) ∧ t.fuse = s.fuse ∧ (NoFaultArea s → KeepsBytes s t) ∧
     (c.val = 0 → t.err.device = true) ∧ (c.val = 1 → t.sys.pcieUp = false ∧ t.host.reads = []) ∧
     (c.val = 2 → ∀ l, l < 16 → (t.link l).st = 0 ∨ (t.link l).st = 6)) ∧
   (∀ (c : Fin 3) (s : State), s.clk.lost.getLsbD c.val = true → Completes (.refclkReturn c) s fun t =>
     t.clk.lost = s.clk.lost &&& ~~~(1#3 <<< c.val) ∧ t.pad = s.pad ∧ t.cel = s.cel ∧ t.parts = s.parts ∧
       t.fuse = s.fuse ∧
     t.sys.pcieUp = (if c.val = 1 then !s.sys.pcieHeld && decide (3 ≤ s.sys.phase.toNat) else s.sys.pcieUp))) ∧
  (∀ s : State, s.tickMode = 1 → s.sys.started = true →
     Completes .tickInEdge s fun t =>
       let m := s.sys.time.toNat % 1000000
       let e : Int := if m < 500000 then m else (m : Int) - 1000000
       let timely : Prop := ∀ a, s.clk.lastEdge = some a → 900000 ≤ (s.sys.time - a).toNat ∧
         (s.sys.time - a).toNat ≤ 1100000
       t.pad = s.pad ∧ t.cel = s.cel ∧ t.parts.part = s.parts.part ∧
       (timely → e.natAbs ≤ 500 →
         t.clk.err = e ∧ t.clk.bad = 0 ∧ t.clk.good = (if e.natAbs ≤ 20 then s.clk.good + 1 else 0) ∧
         t.clk.locked = (s.clk.locked || decide (e.natAbs ≤ 20 ∧ 3 ≤ s.clk.good)) ∧
         (s.clk.armed = none → t.sys.time = s.sys.time ∧ t.clk.slew = -e ∧ t.clk.lastEdge = some s.sys.time) ∧
         (∀ v, s.clk.armed = some v → t.sys.time = v ∧ t.clk.armed = none ∧ t.clk.slew = 0)) ∧
       (¬ (timely ∧ e.natAbs ≤ 500) →
         t.sys = s.sys ∧ t.clk.bad = s.clk.bad + 1 ∧ t.clk.good = 0 ∧ t.clk.lastEdge = s.clk.lastEdge ∧
         t.clk.locked = (s.clk.locked && decide (s.clk.bad < 3)) ∧
         t.pr .clk 0 0x54 = satAdd32 (s.pr .clk 0 0x54) 1))

/-- TICK_EDGE_MISSING in follow mode 1.1 ms after the last edge, or 1 ms after the last missing one, counts as an
ignored edge without TICK_BAD. TICK_SOURCE in source mode at a multiple of 1 ms holds TICK_OUT high for 100 ns. An
accepted 64-bit TIME_SET in partitioned mode with no partition configured arms the value in follow mode and loads it
otherwise; with one configured it is rejected and the time base stays. (17_power_clocks_pins.md) -/
def Obligations.TimeBaseSetAndSource : Prop :=
  (∀ (a : BitVec 64) (s : State), s.clk.lastEdge = some a → s.tickMode = 1 →
    ((s.clk.missFrom.map (· + 1000000)).getD (a + 1100000)).toNat ≤ s.sys.time.toNat →
    Completes .tickEdgeMissing s fun t =>
      t.sys = s.sys ∧ t.clk.bad = s.clk.bad + 1 ∧ t.clk.good = 0 ∧
        t.clk.locked = (s.clk.locked && decide (s.clk.bad < 3)) ∧
      t.clk.missFrom = some ((s.clk.missFrom.map (· + 1000000)).getD (a + 1100000)) ∧ t.pad = s.pad ∧ t.cel = s.cel) ∧
  (∀ s : State, s.tickMode = 2 → s.sys.started = true → s.sys.time.toNat % 1000000 = 0 →
    Completes .tickSource s fun t => t = { s with clk := { s.clk with tickOutTill := some (s.sys.time + 100) } }) ∧
  (∀ (f : Fn) (v : BitVec 64) (x : Target) (s : State), s.openAt f ⟨.clk, 0⟩ 0x48 (v.extractLsb' 32 32) = .ok x →
    Completes (.timeSet f true v) s fun t =>
      t.pad = s.pad ∧ t.cel = s.cel ∧ t.parts.part = s.parts.part ∧
      ((∀ p, p < 64 → s.configured p = false) → s.sys.stageMode = false →
        t.pr64 .clk 0 0x44 = v ∧
        (s.tickMode = 1 → t.clk.armed = some v ∧ t.sys = s.sys) ∧ (s.tickMode ≠ 1 → t.sys.time = v ∧ t.clk = s.clk)) ∧
      ((∃ p, p < 64 ∧ s.configured p = true) → t.sys = s.sys ∧ t.clk = s.clk))

/-- While the management block is up: SMB_SET_ADDRESS with a right PEC sets the command address; SMB_READ returns the
register at the address of a served page as four bytes, lowest first, or all ones, and advances it; SMB_WRITE of 150
to 300 W to BOARD_CAP waits for the next evaluation; SMB_READ_TEMP, SMB_READ_POWER and SMB_READ_SUMMARY return their
words. Each is acknowledged and counted in SMB_CMDS; nothing but the management block and that counter changes, a
refused write apart. (17_power_clocks_pins.md) -/
def Obligations.ManagementBusCommands : Prop :=
  ∀ s : State, s.smbUp = true →
    let Done (t : State) (bytes : List Byte) : Prop :=
      t.mgmt.ack = true ∧ t.mgmt.data = bytes ∧ t.pr .mgmt 0 0x48 = satAdd32 (s.pr .mgmt 0 0x48) 1 ∧
      KeepsRegsBut [rk .mgmt 0 0x48] s t
    (∀ a : Word, Completes (.smbSetAddress a true) s fun t =>
      Done t [] ∧ t.mgmt.addr = a ∧ t = { s with bus := t.bus, mgmt := t.mgmt }) ∧
    (s.mgmt.addr.toNat % 4 = 0 → Completes .smbRead s fun t =>
      let a := s.mgmt.addr.toNat
      let p := smbPage a
      Done t (leBytes 4 (if a < 0x4000000 ∧ (pageAt (a / 0x1000)).isSome = true ∧ p.kind.smbReads = true
        then s.view .smb p (a % 0x1000) else 0xFFFFFFFF).toNat) ∧
      t.mgmt.addr = s.mgmt.addr + 4 ∧ t = { s with bus := t.bus, mgmt := t.mgmt }) ∧
    (∀ v : Word, s.mgmt.addr = 0x1078 → 150 ≤ v.toNat → v.toNat ≤ 300 → Completes (.smbWrite v true) s fun t =>
      Done t [] ∧ t.pwr = { s.pwr with boardCap := some v } ∧
        t = { s with bus := t.bus, mgmt := t.mgmt, pwr := t.pwr }) ∧
    (∀ h : Int, hottest (s.validTemps (List.range 20)) = some h → Completes .smbReadTemp s fun t =>
      Done t (leBytes 2 (BitVec.ofInt 16 h).toNat) ∧ t = { s with bus := t.bus, mgmt := t.mgmt }) ∧
    Completes .smbReadPower s (fun t => Done t (leBytes 2 s.pwr.p10ms.toNat) ∧
      t = { s with bus := t.bus, mgmt := t.mgmt }) ∧
    Completes .smbReadSummary s fun t => Done t (leBytes 2 s.smbSummary.toNat) ∧
      t = { s with bus := t.bus, mgmt := t.mgmt }

/-- SMB_UNKNOWN_COMMAND while the block is up is not acknowledged and adds one to SMB_ERR; SMB_CLOCK_LOW_TIMEOUT ends
the transfer; a filtered change of STALL_N shows in PIN_LEVEL and in the sampled stall lines; a rising edge of TCK
with TRST_N high moves the port by the IEEE 1149.1 diagram and with TRST_N low the port is held in reset with IDCODE
selected. No register page, memory or partition changes through the port. (15_reliability_and_ageing.md,
17_power_clocks_pins.md) -/
def Obligations.PinsAndTestPort : Prop :=
  (∀ (code : BitVec 8) (s : State), s.smbUp = true → code ∉ ([0x10, 0x11, 0x12, 0x20, 0x21, 0x22] : List (BitVec 8)) →
    Completes (.smbUnknownCommand code) s fun t =>
      t.mgmt = { s.mgmt with ack := false, data := [] } ∧ t.pr .mgmt 0 0x44 = satAdd32 (s.pr .mgmt 0 0x44) 1 ∧
      t = { s with bus := t.bus, mgmt := t.mgmt, host := t.host }) ∧
  (∀ s : State,
    Completes .smbClockLowTimeout s fun t => t = { s with mgmt := { s.mgmt with ack := false, data := [] } }) ∧
  (∀ (n : Fin 4) (level : Bool) (s : State), s.sys.started = true →
    Completes (.sidebandPinChange (.stallN n) level false) s fun t =>
      (∀ i, i < 9 → t.mgmt.pins.getLsbD i = if i = 4 + n.val then level else s.mgmt.pins.getLsbD i) ∧
      (∀ i, i < 4 → t.que.stallSampled.getLsbD i = if i = n.val then !level else s.que.stallSampled.getLsbD i) ∧
      t = { s with mgmt := t.mgmt, que := t.que }) ∧
  (∀ (tms tdi : Bool) (code : TapInstr) (s : State), s.mgmt.pins.getLsbD 3 = true →
    Completes (.tckEdge true tms tdi code) s fun t =>
      t.mgmt.tap.st = s.mgmt.tap.st.next tms ∧ t.bus = s.bus ∧ t = { s with mgmt := t.mgmt, sys := t.sys } ∧
      (s.mgmt.tap.st = .drShift → t.mgmt.tap.dr = s.mgmt.tap.dr.drop 1 ++ [tdi] ∧ t.sys = s.sys)) ∧
  (∀ (rising tms tdi : Bool) (code : TapInstr) (s : State), s.mgmt.pins.getLsbD 3 = false →
    Completes (.tckEdge rising tms tdi code) s fun t =>
      t.mgmt.tap.st = .reset ∧ t.mgmt.tap.instr = .idcode ∧ t = { s with mgmt := t.mgmt })

/-- With Sloe enabled in READY, and once INTERVAL has passed, SLOE_ROW_TEST of the walk moves on to the next of the
1,040 rows, counting a pass after the last; with no finding and no poisoned word no byte changes. SLOE_PATROL, with
the patrol on, moves on to the next 64 B unit, poisons a unit of the pool found uncorrectable and retires its page,
and leaves all else alone where the unit is clean. An accepted ERR_POP removes exactly the oldest record of the
ring, and an accepted ERR_FIRST_CLR clears the held first DEVICE record; neither changes anything else.
(15_reliability_and_ageing.md) -/
def Obligations.SloeWalkAndErrorRing : Prop :=
  ((∀ (found : List (Fin 65536 × SloeFind)) (s : State), s.sloeOn = true → s.sys.phase = 7 →
     s.sloe.last.toNat + ((s.pr .sloe 0 0x40).extractLsb' 0 16).toNat * 1000000000 ≤ s.sys.time.toNat →
     Completes (.sloeRowTest none found) s fun t =>
       t.sloe.row = (s.sloe.row + 1) % 1040 ∧ t.sloe.last = s.sys.time ∧ t.pad.mem = s.pad.mem ∧ t.cel = s.cel ∧
       (found = [] → s.pad.poison = [] → t = { s with sloe := t.sloe, bus := t.bus })) ∧
   (∀ (x : PatrolRead) (s : State), s.sloeOn = true → (s.pr .sloe 0 0x40).getLsbD 30 = true → s.sys.phase = 7 →
     Completes (.sloePatrol x) s fun t =>
       let u := s.sloe.patrolUnit
       t.sloe.patrolUnit = (u + 1) % patrolUnits ∧ (NoFaultArea s → KeepsBytes s t) ∧
       (x = .bad → u < 0xBE0000000 / 64 → t.cel.poison.get false u = true ∧ u / 0x8000 ∈ t.err.retired) ∧
       (x = .clean → s.cel.poison.get false u = false → t = { s with sloe := t.sloe }))) ∧
  (∀ (f : Fn) (s : State),
     (∀ x : Target, s.openAt f ⟨.err, 0⟩ 0x08 1 = .ok x → Completes (.errPop f) s fun t =>
       t = { s with err := { s.err with ring := s.err.ring.drop 1 } }) ∧
     (∀ x : Target, s.openAt f ⟨.err, 0⟩ 0x08 2 = .ok x → Completes (.errFirstClr f) s fun t =>
       t = { s with err := { s.err with first := none } }))

/-- A held request of a command that has waited for WDOG, at the first expiry of its unit, leaves the held list and its
command faults with cause 0x0025. REGION_FAULT takes the region out of service. A due REPLAN in READY whose search
fits a point ends with that point pending or in force. REGION_FREQ_APPLY at the safe point puts the pending point in
force. CANARY_MEASURE with slacks below the floor raises an alarm and every region is due. No stored byte changes
but those of fault records. (15_reliability_and_ageing.md) -/
def Obligations.PlannerAndFaults : Prop :=
  (∀ (i : Nat) (h : HeldReq) (r : RecRef) (f : Flight) (s : State), s.pad.held[i]? = some h →
    h.since.toNat + s.wdogNs ≤ s.sys.time.toNat → h.req.ref = some r → s.flight? r = some f → f.st.ended = false →
    s.err.expiries = [] →
    Completes (.transactionWatchdog (.held i)) s fun t =>
      t.pad = { s.pad with held := s.pad.held.eraseIdx i } ∧ t.cel = s.cel ∧ t.parts = s.parts ∧
      ∃ g x, t.flight? r = some g ∧ g.st = .faulted x ∧ x.cause = 0x0025) ∧
  (∀ (r : Fin 16) (s : State), Completes (.regionFault r) s fun t =>
    (t.regionOf r.val).out = true ∧ (t.regionOf r.val).due = true ∧
    (∀ q, q ≠ r.val → t.regionOf q = s.regionOf q) ∧ (NoFaultArea s → KeepsBytes s t)) ∧
  (∀ (r : Fin 16) (kv guard : BitVec 16) (f v : Nat) (s : State), s.sys.phase = 7 → (s.regionOf r.val).due = true →
    s.planPoint { s.regionOf r.val with due := false, planAt := s.sys.time, kv := kv, guardPs := guard }
      kv.toNat guard.toNat = some (f, v) →
    Completes (.replan r kv guard) s fun t =>
      t.pad = s.pad ∧ t.cel = s.cel ∧ (t.regionOf r.val).due = false ∧ (t.regionOf r.val).planAt = s.sys.time ∧
      ((t.regionOf r.val).pending = some (BitVec.ofNat 11 f, BitVec.ofNat 10 v) ∨
        (t.regionOf r.val).pending = none ∧ (t.regionOf r.val).mhz = BitVec.ofNat 11 f ∧
        (t.regionOf r.val).mv = BitVec.ofNat 10 v)) ∧
  (∀ (r : Fin 16) (q : BitVec 11 × BitVec 10) (s : State), (s.regionOf r.val).pending = some q →
    (s.regionOf r.val).railWait = false →
    (s.sys.stageMode = true → s.stg.st = 1) → (s.sys.stageMode = false → s.regionAtSteps r.val = true) →
    Completes (.regionFreqApply r) s fun t =>
      t.pad = s.pad ∧ t.cel = s.cel ∧ (t.regionOf r.val).pending = none ∧ (t.regionOf r.val).mhz = q.1 ∧
      (t.regionOf r.val).mv = q.2 ∧ (s.sys.stageMode = false → (t.regionOf r.val).runMhz = q.1)) ∧
  (∀ (r : Fin 16) (a b c d : BitVec 11) (s : State), s.sys.phase = 7 → (∀ k, (s.regionOf r.val).discards.get 0 k = 0) →
    let low := min (min a.toNat b.toNat) (min c.toNat d.toNat)
    low < s.fuse.floorPs.toNat → s.fuse.floorPs.toNat ≤ 2 * low →
    Completes (.canaryMeasure r [some a, some b, some c, some d] (List.replicate 8 none)) s fun t =>
      (t.regionOf r.val).slack.toNat = low ∧ (∀ q, q < 16 → (t.regionOf q).due = true) ∧
      t.pr .age 0 0x54 = satAdd32 (s.pr .age 0 0x54) 1 ∧ t.pad = s.pad ∧ t.cel = s.cel)

/-- FUSE_BLOW_DONE with a fuse operation in progress ends it; read back as asked, a downgrade keeps its tile mapped out
for good, a floor lowering takes 5 ps off the floor but never below 10 ps, and a revocation revokes its key slot,
each counted once; read back otherwise, no count, floor, slot or tile changes. The PENDING audit entry becomes DONE
or FAILED. No memory or partition changes. (15_reliability_and_ageing.md) -/
def Obligations.FuseOperation : Prop :=
  ∀ (ok : Bool) (kind : BitVec 8) (arg : BitVec 32) (s : State), s.fuse.op = some (kind, arg) →
    Completes (.fuseBlowDone ok) s fun t =>
      let tile := (arg.extractLsb' 8 6).toNat * 16 + (arg.extractLsb' 0 4).toNat
      t.fuse.op = none ∧ t.pad = s.pad ∧ t.cel = s.cel ∧ t.parts = s.parts ∧
      t.fuse.audit = s.fuse.audit.map (fun e => if e.state = 1 then { e with state := if ok then 2 else 3 } else e) ∧
      t.fuse.downgrades = s.fuse.downgrades + (if ok ∧ kind = 1 then 1 else 0) ∧
      t.fuse.lowerings = s.fuse.lowerings + (if ok ∧ kind = 2 then 1 else 0) ∧
      t.fuse.revocations = s.fuse.revocations + (if ok ∧ kind = 3 then 1 else 0) ∧
      t.fuse.floorPs.toNat = (if ok ∧ kind = 2 then max 10 (s.fuse.floorPs.toNat - 5) else s.fuse.floorPs.toNat) ∧
      t.fuse.revoked = (if ok ∧ kind = 3 then s.fuse.revoked ||| (1#5 <<< (arg.extractLsb' 0 3).toNat)
        else s.fuse.revoked) ∧
      ∀ i, t.fuse.fusedOut.get false i = (s.fuse.fusedOut.get false i || (ok && kind == 1 && i == tile))

/-- For a request that the NOC regulator lets start and whose banks (and, for a write, the checkpoint scope) let it in:
NOC_READ returns the n bytes at its address and changes no byte; NOC_WRITE whose tier port is idle lands its bytes
and no other, and sends its increment only then; NOC_WRITE that meets the tier port lands nothing and waits 64 CLK_N
(32 ns) for its first retry. A partition pays 256 B of its NOC tokens; the cellar, counters, queues and partitions
are otherwise unchanged. COLLIDE_RETRY of a write that is due and that the checkpoint scope lets in: at a bank whose
tier port is idle the write lands as it was first sent; at one that writes, it waits 64 ns after its second
collision and 128 ns after its third, and after the fourth (the third retry) its command ends with cause 0x0015.
Nothing but the written bytes, and fault records, changes in memory. (05_scratchpad.md) -/
def Obligations.ScratchpadRequests : Prop :=
  (∀ (q : NocReq) (waited : Nat) (s : State), s.nocOpen q = true →
     let a := q.addr.toNat
     let Paid (t : State) : Prop := t.parts.part = s.parts.part ∧ t.cel = s.cel ∧ t.syn = s.syn ∧ t.fe = s.fe ∧
       ∀ p : Fin 64, q.owner = .part p → t.parts.tokens.get 0 (p.val * 5) = s.parts.tokens.get 0 (p.val * 5) - 256
     (∀ n : Nat, s.padGate q n = .ok → s.poisoned a n = false →
       Completes (.nocRead q n waited) s fun t => Paid t ∧ t.pad = { s.pad with readData := s.padRead a n } ∧
         t.err = s.err ∧ t.ckpt = s.ckpt) ∧
     (∀ (data : List Byte) (inc : Option ArrInc), s.padGate q data.length = .ok → s.nocBarred q data.length = false →
       (∀ i, inc = some i → (s.incTarget q i).isSome = true) →
       Completes (.nocWrite q data inc false waited) s (fun t =>
         Paid t ∧ PadHolds t a data ∧ PadKeepsBut s t a data.length ∧ t.pad.bank = s.pad.bank ∧
         (inc = none → t.pad.incs = s.pad.incs) ∧
         ∀ i, inc = some i → ∃ m, t.pad.incs = s.pad.incs ++ [m] ∧ m.amount = i.amount ∧ m.cluster = padCluster a) ∧
       Completes (.nocWrite q data inc true waited) s fun t =>
         Paid t ∧ t.pad.mem = s.pad.mem ∧ t.pad.incs = s.pad.incs ∧
         ∃ r, t.pad.retries = s.pad.retries ++ [r] ∧ r.req = q ∧ r.data = data ∧ r.inc = inc ∧ r.collided = 1 ∧
           r.due = s.sys.time + 32)) ∧
  (∀ (id : Nat) (r : Retry) (s : State),
     (s.pad.retries.find? fun r => r.id == id && decide (r.due.toNat ≤ s.sys.time.toNat)) = some r →
     s.padGate r.req r.data.length = .ok → s.nocBarred r.req r.data.length = false → (∀ i, r.inc = some i →
       (s.incTarget r.req i).isSome = true) →
     Completes (.collideRetry id false) s (fun t =>
       PadHolds t r.req.addr.toNat r.data ∧ PadKeepsBut s t r.req.addr.toNat r.data.length ∧ t.cel = s.cel ∧
       t.pad.retries = s.pad.retries.filter (fun x => decide (x.id ≠ id))) ∧
     Completes (.collideRetry id true) s fun t =>
       (NoFaultArea s → KeepsBytes s t) ∧
       (r.collided = 1 ∨ r.collided = 2 → ∃ x, x ∈ t.pad.retries ∧ x.req = r.req ∧ x.data = r.data ∧
         x.collided = r.collided + 1 ∧ x.due = s.sys.time + (if r.collided = 1 then 64 else 128)) ∧
       (∀ (c : RecRef) (f : Flight), r.collided = 3 → r.req.ref = some c → s.flight? c = some f → f.st.ended = false →
         ∃ g x, t.flight? c = some g ∧ g.st = .faulted x ∧ x.cause = 0x0015))

/-- ARRIVAL_INCREMENT of a landed write moves its increment into the input queue of its cluster while there is room.
SYNC_ADD_APPLY of a block that no freeze holds takes one word of up to four messages: each counter takes the last
set of the word, then every add to it, modulo 2^32; other counters keep their values, and no memory byte changes.
(08_synchronisation.md, 05_scratchpad.md) -/
def Obligations.CounterInput : Prop :=
  (∀ (id : Nat) (m : IncMsg) (s : State), (s.pad.incs.find? fun m => m.id == id) = some m →
    s.inputRoom m.cluster = true →
    Completes (.arrivalIncrement id) s fun t =>
      t.inputOf m.cluster = s.inputOf m.cluster ++ [.add m.part m.counter m.amount none] ∧
      (∀ c, c ≠ m.cluster → t.inputOf c = s.inputOf c) ∧ t.syn.count = s.syn.count ∧
      t = { s with syn := t.syn, pad := { s.pad with incs := s.pad.incs.filter fun x => decide (x.id ≠ id) } }) ∧
  (∀ (c : Fin 64) (s : State), (∀ p : Fin 64, s.clusterOwner c.val = some p → s.frozen p.val = false) →
    (∀ m, m ∈ (s.inputOf c.val).take 4 → m.counter < 256) →
    Completes (.syncAddApply c) s fun t =>
      let word := (s.inputOf c.val).take 4
      let sets (n : Nat) : List (BitVec 32) := word.filterMap fun m => match m with
        | .set _ k v _ => if k = n then some v else none
        | _ => none
      let added (n : Nat) : BitVec 32 := (word.map fun m => match m with
        | .add _ k a _ => if k = n then a.zeroExtend 32 else 0
        | _ => 0).foldl (· + ·) 0
      t.inputOf c.val = (s.inputOf c.val).drop 4 ∧
      (∀ n, n < 256 → t.countOf c.val n = ((sets n).getLast?).getD (s.countOf c.val n) + added n) ∧
      (∀ d n, d < 64 → n < 256 → d ≠ c.val → t.countOf d n = s.countOf d n) ∧ KeepsBytes s t)

/-- A 32-bit BOT_ENTRY_WRITE whose low half alone acts on a settled bank that its expected owner holds gives the bank
its new owner, pending while a command of the old owner touches it and wiping otherwise; where the expected owner is
not the owner the bank stays, and LAST_VIOL names it. A 64-bit write acts as its two words in order. BANK_RELEASE
hands each settled bank of the range that the partition owns to the device and leaves banks of others alone. No byte
changes at this point. (05_scratchpad.md) -/
def Obligations.BankTable : Prop :=
  (∀ (f : Fn) (c : Fin 64) (w : Fin 512) (v : BitVec 64) (x : Target) (s : State),
    s.openAt f ⟨.bot, c.val⟩ (0x800 + 4 * w.val) (v.extractLsb' 0 32) = .ok x → v.getLsbD 15 = true →
      v.getLsbD 31 = false →
    let b := c.val * 1024 + 2 * w.val
    let expect : Option (Fin 64) := if v.getLsbD 14 then none else some (Fin.ofNat 64 (v.extractLsb' 8 6).toNat)
    let new : Option (Fin 64) := if v.getLsbD 7 then none else some (Fin.ofNat 64 (v.extractLsb' 0 6).toNat)
    let e := s.bankOf b
    s.bankHole b = false → e.st = .settled →
    (e.owner = expect → (e.owner.isSome ∨ new.isSome) → (∀ p, new = some p → s.refusesBank b p = false) →
      Completes (.botEntryWrite f c w false v) s fun t =>
        let busy : Bool := (e.owner.map fun p => s.bankInUse p.val b).getD false
        t.bankOf b = { e with
          owner := new, former := if busy then e.owner else none, st := if busy then .pending else .wiping } ∧
        (∀ d, d ≠ b → t.bankOf d = s.bankOf d) ∧ t.pad.mem = s.pad.mem ∧ t = { s with pad := t.pad }) ∧
    (e.owner ≠ expect → Completes (.botEntryWrite f c w false v) s fun t =>
      t.pad = s.pad ∧ t.cel = s.cel ∧ t.pr .bot c.val 0x48 = satAdd32 (s.pr .bot c.val 0x48) 1 ∧
      (t.pr .bot c.val 0x58).extractLsb' 0 10 = BitVec.ofNat 10 b)) ∧
  (∀ (f : Fn) (c : Fin 64) (w u : Fin 512) (v : BitVec 64) (x y : Target) (s : State), w.val % 2 = 0 →
    u.val = w.val + 1 →
    s.openAt f ⟨.bot, c.val⟩ (0x800 + 4 * w.val) (v.extractLsb' 0 32) = .ok x →
    s.openAt f ⟨.bot, c.val⟩ (0x800 + 4 * u.val) (v.extractLsb' 32 32) = .ok y →
    Completes (.botEntryWrite f c w true v) s fun t =>
      ∃ m, exec (.botEntryWrite f c w false v) s = .next m ∧
        exec (.botEntryWrite f c u false ((v.extractLsb' 32 32).zeroExtend 64)) m = .next t) ∧
  (∀ (f : Fn) (p : Fin 64) (v : Word) (x : Target) (s : State), s.openAt f ⟨.part, p.val⟩ 0x400 v = .ok x →
    let h := s.handleOf p.val (v.toNat % 4096)
    h.v = true → h.kind = 0 → h.dev.toNat % 0x20000 = 0 → h.size.toNat % 0x20000 = 0 →
      (s.partOf p.val).releaseBusy = false →
    Completes (.bankRelease f p v) s fun t =>
      let inside (b : Nat) : Prop := padBank h.dev.toNat ≤ b ∧ b < padBank h.dev.toNat + h.size.toNat / 0x20000
      t.pad.mem = s.pad.mem ∧ t.cel = s.cel ∧
      ∀ b, (¬ inside b ∨ (s.bankOf b).owner ≠ some p → t.bankOf b = s.bankOf b) ∧
        (inside b → (s.bankOf b).owner = some p → (s.bankOf b).st = .settled → s.bankHole b = false →
          (t.bankOf b).owner = none ∧ ((t.bankOf b).st = .pending ∨ (t.bankOf b).st = .wiping)))

/-- HANDOVER_UNPEND of a pending bank that no command of its former owner touches starts its wipe. WIPE_START with the
wipe engine of the tier free and the tier awake takes the lowest bank that waits. WIPE_DONE with no request held
settles the bank: every byte of it reads 0, every other byte is unchanged, DONE counts it, and the engine is free.
(05_scratchpad.md) -/
def Obligations.HandoverAndWipe : Prop :=
  (∀ (b : Fin 65536) (s : State), (s.bankOf b.val).st = .pending →
    (∀ p, (s.bankOf b.val).former = some p → s.bankInUse p.val b.val = false) →
    Completes (.handoverUnpend b) s fun t =>
      t.bankOf b.val = { s.bankOf b.val with st := .wiping, former := none } ∧
      (∀ d, d ≠ b.val → t.bankOf d = s.bankOf d) ∧ t.pad.mem = s.pad.mem ∧ t = { s with pad := t.pad }) ∧
  (∀ (c : Fin 64) (t : Fin 16) (tier : Fin 4) (i : Nat) (s : State), i < 16 →
    let k := wipeKey c.val t.val tier.val
    s.pad.wipe.get none k = none → (s.bankOf (k * 16 + i)).st = .wiping →
    (∀ j, j < i → (s.bankOf (k * 16 + j)).st ≠ .wiping) → s.tierOf (regionOfCluster c.val) tier.val = .awake →
    Completes (.wipeStart c t tier) s fun u =>
      u = { s with pad := { s.pad with wipe := s.pad.wipe.put none k (some (k * 16 + i)) } }) ∧
  (∀ (c : Fin 64) (t : Fin 16) (tier : Fin 4) (b : Nat) (s : State), s.pad.held = [] →
    s.pad.wipe.get none (wipeKey c.val t.val tier.val) = some b →
    Completes (.wipeDone c t tier) s fun u =>
      (u.bankOf b).st = .settled ∧ (u.bankOf b).owner = (s.bankOf b).owner ∧
      (∀ d, d ≠ b → u.bankOf d = s.bankOf d) ∧ u.pad.wipe.get none (wipeKey c.val t.val tier.val) = none ∧
      (∀ a, u.padByte a = if padBank a = b then 0 else s.padByte a) ∧ u.cel = s.cel)

/-- RETENTION_ENTER of an awake tier with no bank of a runnable partition and none in handover begins a 1 us entry;
RETENTION_ENTRY_DONE ends it; RETENTION_WAKE holds the request and begins the 6 us wake; RETENTION_WAKE_DONE with no
request held leaves the tier awake. ROW_MAPOUT of a decided row in a settled awake bank with a free spare uses that
spare: a copied row keeps every byte, and a lost row of a device-owned bank reads zeros while every other byte is
unchanged. (05_scratchpad.md, 01_architecture.md) -/
def Obligations.RetentionAndMapout : Prop :=
  (∀ (r : Fin 16) (tier : Fin 4) (s : State), s.tierOf r.val tier.val = .awake →
    (∀ e, e ∈ s.pad.bank → regionOfCluster (bankCluster e.1) = r.val → bankTier e.1 = tier.val →
      e.2.st ≠ .pending ∧ e.2.st ≠ .wiping ∧ ∀ p, e.2.owner = some p → s.partRunnable p.val = false) →
    Completes (.retentionEnter r tier) s fun t => t = s.setTier r.val tier.val (.entering (s.sys.time + 1000))) ∧
  (∀ (r : Fin 16) (tier : Fin 4) (till : BitVec 64) (s : State), s.tierOf r.val tier.val = .entering till →
    till.toNat ≤ s.sys.time.toNat →
      Completes (.retentionEntryDone r tier) s fun t => t = s.setTier r.val tier.val .retained) ∧
  (∀ (q : NocReq) (op : NocOp) (s : State),
    s.padGate q (match op with | .read n => n | .write d _ => d.length) = .heldTier →
    Completes (.retentionWake q op) s fun t =>
      t.pad.held = s.pad.held ++ [⟨q, op, s.sys.time⟩] ∧ t.pad.mem = s.pad.mem ∧
      (∃ till, t.tierOf (regionOfCluster (padCluster q.addr.toNat)) (padTier q.addr.toNat) = .waking till) ∧
      t = { s with pad := t.pad, bus := t.bus }) ∧
  (∀ (r : Fin 16) (tier : Fin 4) (till : BitVec 64) (s : State), s.tierOf r.val tier.val = .waking till →
    till.toNat ≤ s.sys.time.toNat → s.pad.held = [] →
    Completes (.retentionWakeDone r tier) s fun t => t = s.setTier r.val tier.val .awake) ∧
  (∀ (b : Fin 65536) (row : Fin 1024) (zero : Bool) (i : Nat) (s : State),
    s.err.decided.get none (b.val * 1024 + row.val) = some zero → s.bankHole b.val = false →
    (s.bankOf b.val).st = .settled → s.tierOf (regionOfCluster (bankCluster b.val)) (bankTier b.val) = .awake →
    i < 16 → (s.rowEnt b.val i).used = false → (s.rowEnt b.val i).bad = false →
    (∀ j, j < i → (s.rowEnt b.val j).used = true ∨ (s.rowEnt b.val j).bad = true) →
    Completes (.rowMapout b row) s fun t =>
      t.rowEnt b.val i = ⟨true, true, false, BitVec.ofNat 10 row.val⟩ ∧ t.bankOf b.val = s.bankOf b.val ∧
      t.err.decided.get none (b.val * 1024 + row.val) = none ∧
      (zero = false → t.pad.mem = s.pad.mem) ∧
      (zero = true → (s.bankOf b.val).owner = none →
        PadHolds t (b.val * 0x20000 + row.val * 128) (List.replicate 128 0) ∧
        PadKeepsBut s t (b.val * 0x20000 + row.val * 128) 128))

/-- For a tagged access that the checks and, for a write, the checkpoint scope admit, with no request held: TAG_WRITE to
an EMPTY slot and TAG_FILL write the row and leave it FULL; TAG_READ of a FULL slot returns the row and leaves it
EMPTY; TAG_PEEK returns row and tag and changes neither; TAG_WRITE to a FULL slot and TAG_READ of an EMPTY one are
held. No other tag and no byte outside the row changes. (05_scratchpad.md) -/
def Obligations.TaggedSlots : Prop :=
  ∀ (q : NocReq) (c slot : Nat) (s : State), s.nocOpen q = true → s.slotAt q.addr = some (c, slot) →
    s.pad.tagHeld = [] →
    (s.bankOf (s.slotBank c)).owner = s.clusterOwner c → s.padGate q 128 = .ok →
    (∀ p : Fin 64, q.owner = .part p → s.frozen p.val = false) →
    let a := q.addr.toNat
    let Tags (t : State) (full : Bool) : Prop := t.tagFull c slot = full ∧ t.cel = s.cel ∧ t.pad.bank = s.pad.bank ∧
      ∀ d i, d * 512 + i ≠ c * 512 + slot → t.tagFull d i = s.tagFull d i
    let Held (t : State) (op : TagOp) : Prop := Tags t (s.tagFull c slot) ∧ t.pad.mem = s.pad.mem ∧
      t.pad.tagHeld = [⟨s.pad.nextId, c, slot, q, op, s.sys.time⟩]
    (∀ d : List Byte, d.length = 128 → s.nocBarred q 128 = false →
      (s.tagFull c slot = false → Completes (.tagWrite q d) s fun t => Tags t true ∧ PadHolds t a d ∧
        PadKeepsBut s t a 128) ∧
      (s.tagFull c slot = true → Completes (.tagWrite q d) s fun t => Held t (.write d)) ∧
      Completes (.tagFill q d) s fun t => Tags t true ∧ PadHolds t a d ∧ PadKeepsBut s t a 128) ∧
    (s.tagFull c slot = true → s.poisoned a 128 = false → Completes (.tagRead q) s fun t =>
      Tags t false ∧ t.pad.readData = s.padRead a 128 ∧ t.pad.mem = s.pad.mem) ∧
    (s.tagFull c slot = false → Completes (.tagRead q) s fun t => Held t .read) ∧
    (s.poisoned a 128 = false → Completes (.tagPeek q) s fun t =>
      Tags t (s.tagFull c slot) ∧ t.pad.readData = s.padRead a 128 ∧ t.pad.readTag = s.tagFull c slot ∧
        t.pad.mem = s.pad.mem)

/-- TAG_TIMEOUT of a held request that its tag still keeps out faults its command with cause 0x0016 and releases the
request. TAG_BUSY_RETRY after 32 ns within the timeout brings the request to the slot again, where it is held once
fewer than 64 are; past the timeout it faults with cause 0x0016. An accepted TAG_CLR with bit 0 set leaves every tag
of the cluster EMPTY and holds no request there. No stored byte changes. (05_scratchpad.md) -/
def Obligations.TagWaitsEnd : Prop :=
  (∀ (id : Nat) (x : TagReq) (r : RecRef) (f : Flight) (s : State),
    (s.pad.tagHeld.find? fun t => t.id == id && decide (t.since.toNat + s.slotTimeoutNs t.cluster ≤ s.sys.time.toNat)) = some x →
    tagAdmits (s.tagFull x.cluster x.slot) x.op = false → x.req.ref = some r → s.flight? r = some f →
      f.st.ended = false →
    Completes (.tagTimeout id) s fun t =>
      t.pad = { s.pad with tagHeld := s.pad.tagHeld.filter fun y => decide (y.id ≠ id) } ∧ t.cel = s.cel ∧
      ∃ g i, t.flight? r = some g ∧ g.st = .faulted i ∧ i.cause = 0x0016) ∧
  (∀ (id : Nat) (x : TagReq) (s : State),
    (s.pad.tagBusy.find? fun t => t.id == id && decide (t.since.toNat + 32 ≤ s.sys.time.toNat)) = some x →
    tagAdmits (s.tagFull x.cluster x.slot) x.op = false →
    (s.sys.time.toNat < x.since.toNat + s.slotTimeoutNs x.cluster → s.slotAt x.req.addr = some (x.cluster, x.slot) →
      (s.bankOf (s.slotBank x.cluster)).owner = s.clusterOwner x.cluster → s.padGate x.req 128 = .ok →
      (∀ p : Fin 64, x.req.owner = .part p → s.frozen p.val = false) →
      (s.pad.tagHeld.filter fun y => y.cluster == x.cluster).length < 64 →
      Completes (.tagBusyRetry id) s fun t =>
        t.pad.tagHeld = s.pad.tagHeld ++ [{ x with id := id }] ∧ t.pad.mem = s.pad.mem ∧
        t.pad.tagBusy = s.pad.tagBusy.filter fun y => decide (y.id ≠ id)) ∧
    (∀ (r : RecRef) (f : Flight), x.since.toNat + s.slotTimeoutNs x.cluster ≤ s.sys.time.toNat → x.req.ref = some r →
      s.flight? r = some f → f.st.ended = false →
      Completes (.tagBusyRetry id) s fun t => t.pad.mem = s.pad.mem ∧ t.pad.tagHeld = s.pad.tagHeld ∧
        ∃ g i, t.flight? r = some g ∧ g.st = .faulted i ∧ i.cause = 0x0016)) ∧
  (∀ (f : Fn) (c : Fin 64) (v : Word) (x : Target) (s : State), s.openAt f ⟨.clu, c.val⟩ 0x544 v = .ok x →
    v.getLsbD 0 = true →
    Completes (.tagClr f c v) s fun t =>
      (∀ i, i < 512 → t.tagFull c.val i = false) ∧ (∀ y, y ∈ t.pad.tagHeld → y.cluster ≠ c.val) ∧
      (∀ d i, i < 512 → d ≠ c.val → t.tagFull d i = s.tagFull d i) ∧ t.pad.mem = s.pad.mem ∧ t.cel = s.cel)

/-- A PTE_WRITE whose high half is accepted after its low half maps a free pool page into an empty entry of a configured
partition within its quota, with SCRUB set. PAGE_SCRUB_DONE leaves every byte of the page zero under the partition
key and clears SCRUB; every other byte of the cellar is unchanged. PTE_UNMAP_DONE of an unmapping entry that no
scrub and no held access keeps puts the new entry in place. A CEL_MISS_READ returns the oldest miss record and
removes it, except over the management bus. (06_cellar_and_movers.md) -/
def Obligations.PageTables : Prop :=
  (∀ (f : Fn) (v lo : Word) (x : Target) (s : State), s.openAt f ⟨.cel, 0⟩ 0x4C v = .ok x →
    s.wbufOf f x.page = some ⟨0x48, lo⟩ →
    let sel := s.pr .cel 0 0x44
    let p := (sel.extractLsb' 16 6).toNat
    let vpn := (sel.extractLsb' 0 15).toNat
    let new : BitVec 64 := (v &&& 0xF000000F) ++ lo
    let ppn := (new.extractLsb' 21 15).toNat
    s.configured p = true → s.cel.unmapping.get none (p * 32768 + vpn) = none → new.getLsbD 63 = true →
    (s.pteOf p vpn).getLsbD 63 = false → ppn < s.poolPages → s.err.retired.contains ppn = false →
    s.ppnMapped (p * 32768 + vpn) ppn = false → s.pagesMapped p + 1 ≤ (s.pr .part p 0x54).toNat % 32768 →
    Completes (.pteWrite f v) s fun t =>
      t.pteOf p vpn = new ||| (1#64 <<< 59) ∧
      (∀ q n, q * 32768 + n ≠ p * 32768 + vpn → t.pteOf q n = s.pteOf q n) ∧
      t.cel.mem = s.cel.mem ∧ t = { s with cel := t.cel, bus := t.bus }) ∧
  (∀ (p : Fin 64) (vpn : Fin 32768) (s : State), (s.pteOf p.val vpn.val).getLsbD 63 = true →
    (s.pteOf p.val vpn.val).getLsbD 59 = true → Completes (.pageScrubDone p vpn) s fun t =>
      let ppn := ((s.pteOf p.val vpn.val).extractLsb' 21 15).toNat
      t.pteOf p.val vpn.val = s.pteOf p.val vpn.val &&& ~~~(1#64 <<< 59) ∧
      (∀ o, t.celCell o = if o / 0x200000 = ppn then ⟨s.keyOf p.val, 0⟩ else s.celCell o) ∧
      t.pad = s.pad ∧ t = { s with cel := t.cel }) ∧
  (∀ (p : Fin 64) (vpn : Fin 32768) (new : BitVec 64) (s : State),
    s.cel.unmapping.get none (p.val * 32768 + vpn.val) = some new → (s.pteOf p.val vpn.val).getLsbD 59 = false →
    s.pageHolds (p.val * 32768 + vpn.val) = false →
    Completes (.pteUnmapDone p vpn) s fun t =>
      t.pteOf p.val vpn.val = new ∧ t.cel.unmapping.get none (p.val * 32768 + vpn.val) = none ∧
      t.cel.mem = s.cel.mem ∧ t = { s with cel := t.cel }) ∧
  (∀ (f : Fn) (m : Miss) (rest : List Miss) (s : State), s.served f 0x8054 = true → f.isVf = false →
    s.cel.misses = m :: rest →
    Completes (.celMissRead f) s fun t =>
      t.bus.readData = m.word.zeroExtend 64 ∧ t.cel = { s.cel with misses := if f = .smb then m :: rest else rest } ∧
      t = { s with bus := { s.bus with readData := t.bus.readData }, cel := t.cel })

/-- CEL_RESUME_RETRY of a channel with a miss, and PAGE_RESPONSE with success, let the channel go on; CEL_RESUME_FAIL
and, 10 ms after the miss, CELLAR_MISS_TIMEOUT end its command with cause 0x0019, and an unsuccessful PAGE_RESPONSE
or a PAGE_REQUEST_TIMEOUT after 10 ms with cause 0x001B, and free the channel. The miss record of the channel is
gone, and the other channels are unchanged; every byte is unchanged, but for the destination of a command that has
faulted. HOST_READ_COMPLETION with as many bytes as were asked for hands them to the channel that waits for them and
ends the wait; a poisoned one, an unsuccessful one and HOST_COMPLETION_TIMEOUT end its command with causes 0x001D,
0x001B and 0x0025 and log the error. ATS_INVALIDATION removes the pages of the function from the translation cache.
The read is no longer outstanding, and no stored byte changes but those of the destination of a command that has
faulted. (06_cellar_and_movers.md, 16_host_interface_and_boot.md) -/
def Obligations.TranslationAnswers : Prop :=
  (∀ (n : Fin 512) (c : ChanCmd) (s : State), s.chanOf n.val = some c →
     let Keeps (t : State) : Prop := t.pad = s.pad ∧ t.cel.mem = s.cel.mem ∧ ∀ m, m ≠ n.val → t.chanOf m = s.chanOf m
     let GoesOn (t : State) : Prop := Keeps t ∧ t.chanOf n.val = some { c with wait := 0 } ∧ t.fe = s.fe
     let Faults (t : State) (cause : BitVec 16) : Prop := t.chanOf n.val = none ∧ (∀ m, m ≠ n.val →
       t.chanOf m = s.chanOf m) ∧
       ∀ f, s.flight? c.ref = some f → f.st.ended = false → KeepsOutside (c.dstAll f.lrec) s t ∧
         ∃ g x, t.flight? c.ref = some g ∧ g.st = .faulted x ∧ x.cause = cause
     let NoMiss (t : State) : Prop := ∀ m, m ∈ t.cel.misses → m.chan ≠ n
     (c.wait = waitMiss →
       (∀ (f : Fn) (x : Target), s.openAt f ⟨.cel, 0⟩ 0x58 (BitVec.ofNat 32 n.val) = .ok x →
         Completes (.celResumeRetry f n) s fun t => GoesOn t ∧ NoMiss t) ∧
       (∀ (f : Fn) (x : Target), s.openAt f ⟨.cel, 0⟩ 0x58 (0x80000000 ||| BitVec.ofNat 32 n.val) = .ok x →
         Completes (.celResumeFail f n) s fun t => Faults t 0x0019 ∧ NoMiss t) ∧
       (c.since.toNat + 10000000 ≤ s.sys.time.toNat →
         Completes (.cellarMissTimeout n) s fun t => Faults t 0x0019 ∧ NoMiss t)) ∧
     (c.wait = waitPage →
       Completes (.pageResponse n .success) s GoesOn ∧
       Completes (.pageResponse n .invalid) s (fun t => Faults t 0x001B) ∧
       Completes (.pageResponse n .failure) s (fun t => Faults t 0x001B) ∧
       (c.since.toNat + 10000000 ≤ s.sys.time.toNat → Completes (.pageRequestTimeout n) s fun t => Faults t 0x001B))) ∧
  ((∀ (id n : Nat) (r : HostRead) (c : ChanCmd) (data : List Byte) (s : State),
     (s.host.reads.find? fun r => r.id == id) = some r → r.purpose = .mover n → s.chanOf n = some c →
       r.ref = some c.ref →
     c.wait = waitData →
     let Ends (t : State) (cause : BitVec 16) : Prop :=
       (∀ x, x ∈ t.host.reads → x.id ≠ id) ∧ t.chanOf n = none ∧
       (r.fn, cause) ∈ t.host.aer ∧ ∀ f, s.flight? c.ref = some f → f.st.ended = false →
         KeepsOutside (c.dstAll f.lrec) s t ∧
         ∃ g x, t.flight? c.ref = some g ∧ g.st = .faulted x ∧ x.cause = cause
     (data.length = (r.segs.map (·.2)).foldl (· + ·) 0 → Completes (.hostReadCompletion id .ok data) s fun t =>
       (∀ x, x ∈ t.host.reads → x.id ≠ id) ∧ t.chanOf n = some { c with hostData := some data, wait := 0 } ∧
       (∀ m, m ≠ n → t.chanOf m = s.chanOf m) ∧ t.cel.mem = s.cel.mem ∧ t = { s with host := t.host, cel := t.cel }) ∧
     Completes (.hostReadCompletion id .poisoned data) s (fun t => Ends t 0x001D) ∧
     Completes (.hostReadCompletion id .unsupported data) s (fun t => Ends t 0x001B) ∧
     Completes (.hostReadCompletion id .aborted data) s (fun t => Ends t 0x001B) ∧
     Completes (.hostCompletionTimeout id) s fun t => Ends t 0x0025) ∧
   (∀ (f : Fin 65) (tag : BitVec 5) (page n : Nat) (s : State), Completes (.atsInvalidation f tag page n) s fun t =>
     t.cel.atc = s.cel.atc.filter (fun e => !(e.1 == f && decide (page ≤ e.2 ∧ e.2 < page + n))) ∧
     t.cel.mem = s.cel.mem ∧ t = { s with cel := t.cel, host := t.host } ∧
     (s.host.reads = [] → .invalidateDone tag ∈ t.host.outbox)))

/-- COPY, FILL, SKEW, PACK, UNPACK and STAGE_FEED of the oldest unstarted mover record of an idle channel, queued and
with no pre-wait, make its flight RUNNING and put its descriptor on that channel, with nothing done yet: the
operation, the source address and, but for STAGE_FEED, the destination and the row length of the record;
STAGE_FEED’s row is one item. No other channel and no stored byte changes. MOVER_CHUNK_DONE on a channel of the
physical function whose FILL of one row of at most 4 KiB, without fence, signal or collision, goes to banks that let
it in: the row holds the repeated 8 B pattern, every other byte is as before, the channel is free and the record has
completed. A chunk sent to another device counts once its last CMPL has come: DONE rises by one, and past the last
chunk the command ends; no local byte changes. (06_cellar_and_movers.md, 09_stage_engine.md,
13_command_front_end.md) -/
def Obligations.MoverOperations : Prop :=
  (∀ (r : RecRef) (f : Flight) (s : State), s.flight? r = some f → f.st = .queued → f.lrec.pwEn = false →
     s.chanOf (s.moverChan f.lrec) = none → (s.nextMover (s.moverChan f.lrec)).map (·.lrec.ref) = some r →
     let Starts (t : State) (op : Nat) : Prop :=
       (∃ c, t.chanOf (s.moverChan f.lrec) = some c ∧ c.ref = f.lrec.ref ∧ c.op = op ∧ c.done = 0 ∧ c.wait = 0 ∧
         (op ≠ 5 → c.dst = BitVec.ofNat 64 (f.lrec.addr 1) ∧ c.c0.toNat = f.lrec.immF 32 32) ∧
         (op = 5 → c.c0 = BitVec.ofNat 32 s.itemBytes ∧ c.c1 = 1 ∧ c.c2 = 1) ∧
         (op ≠ 1 → c.src = BitVec.ofNat 64 (f.lrec.addr 0)) ∧ (op = 1 → c.src = f.lrec.param 2)) ∧
       (∀ n, n ≠ s.moverChan f.lrec → t.chanOf n = s.chanOf n) ∧ t.pad = s.pad ∧ t.cel.mem = s.cel.mem ∧
       t.fe = (s.setFlight r .running).fe ∧ t = { s with fe := t.fe, cel := t.cel }
     (f.lrec.opcode = 0x40 → Completes (.copyOp r) s fun t => Starts t 0) ∧
     (f.lrec.opcode = 0x41 → Completes (.fillOp r) s fun t => Starts t 1) ∧
     (f.lrec.opcode = 0x42 → Completes (.skew r) s fun t => Starts t 2) ∧
     (f.lrec.opcode = 0x43 → Completes (.packOp r) s fun t => Starts t 3) ∧
     (f.lrec.opcode = 0x44 → Completes (.unpackOp r) s fun t => Starts t 4) ∧
     (f.lrec.opcode = 0x60 → Completes (.stageFeed r) s fun t => Starts t 5)) ∧
  ((∀ (n : Fin 512) (c : ChanCmd) (f : Flight) (s : State), s.chanOf n.val = some c → s.flight? c.ref = some f →
     f.st = .running → f.lrec.ref = c.ref → s.pwr.trip = false → c.ref.part.val = 64 → c.op = 1 → c.c1 = 1 → c.c2 = 1 →
     0 < c.c0.toNat → c.c0.toNat ≤ 4096 → c.done = 0 → c.wait = 0 → c.sent = false → c.fence = false → c.ctrKind = 0 →
     c.dst.toNat + c.c0.toNat ≤ 0x200000000 → s.moverPad c c.dst.toNat c.c0.toNat = none →
     Completes (.moverChunkDone n false false) s fun t =>
       PadHolds t c.dst.toNat ((List.range c.c0.toNat).map fun i => c.src.extractLsb' (8 * (i % 8)) 8) ∧
       PadKeepsBut s t c.dst.toNat c.c0.toNat ∧ t.cel.mem = s.cel.mem ∧ t.chanOf n.val = none ∧
       ∃ g, t.flight? c.ref = some g ∧ g.st = .completed) ∧
   (∀ (n : Fin 512) (c : ChanCmd) (f : Flight) (s : State), s.chanOf n.val = some c → s.flight? c.ref = some f →
     f.st = .running → f.lrec.ref = c.ref → s.pwr.trip = false → c.wait = 0 → c.sent = true → c.awaits = [] →
       c.ctrKind = 0 →
     Completes (.moverChunkDone n false false) s fun t =>
       t.pad.mem = s.pad.mem ∧ t.cel.mem = s.cel.mem ∧
       (4096 * (c.done.toNat + 1) < c.total → ∃ d, t.chanOf n.val = some d ∧ d.done = c.done + 1 ∧ d.sent = false) ∧
       (c.total ≤ 4096 * (c.done.toNat + 1) → t.chanOf n.val = none ∧
         ∃ g, t.flight? c.ref = some g ∧ g.st = .completed)))

/-- QUEUE_WRITE to an instance that drops nothing, with a credit and within the maximum item, appends the word, with
POISON where it ends an item that holds a poisoned word, and takes the credit; without a credit the queue is
unchanged and FAULT_N goes low. QUEUE_READ of an available item returns its oldest word and the credit; with none
available it returns the all-zero idle item with IDLE and EOI, and moves no pointer. Other instances and every byte
of memory are unchanged. An accepted QUEUE_FLUSH of an instance between items drops every word and returns its
credits. QUEUE_PTR_MISMATCH of an instance that keeps its pointers twice leaves it empty with both pointers 0; for a
command slot its undispatched records are gone. STALL_N_HOLD_EXPIRY releases a pin that no watermark wants low and
that has been low for 160 ns, and keeps one that is wanted. Memory does not change. (07_queue_primitive.md) -/
def Obligations.QueueWords : Prop :=
  (∀ (q : QInst) (s : State),
     let x := s.que1 q
     let Frame (t : State) : Prop := (∀ d : QInst, d.num ≠ q.num → t.que1 d = s.que1 d) ∧ t.pad = s.pad ∧ t.cel = s.cel
     (∀ (data : List Byte) (eoi : Bool), x.dropping = false →
       (x.used < s.depth q → x.inWrite + 1 ≤ s.maxItem q → Completes (.queueWrite q data eoi) s fun t => Frame t ∧
         (t.que1 q).words = x.words ++ [⟨data, eoi, false, eoi && x.taint, false⟩] ∧ (t.que1 q).used = x.used + 1 ∧
         (t.que1 q).rp = x.rp ∧ (t.que1 q).w = (x.w + 1) % (2 * s.depth q) ∧
         (t.que1 q).inWrite = if eoi then 0 else x.inWrite + 1) ∧
       (s.depth q ≤ x.used → Completes (.queueWrite q data eoi) s fun t =>
         Frame t ∧ t.que1 q = x ∧ t.err.device = true)) ∧
     (x.owed = false →
       (∀ (w : QWord) (ws : List QWord), x.words = w :: ws →
         (x.inRead = true ∨ itemAvailable ((s.queCfg q).toNat % 65536) x.words = true) →
         Completes (.queueRead q) s fun t => Frame t ∧ t.que.readWord = some w ∧ (t.que1 q).words = ws ∧
           (t.que1 q).used = x.used - 1 ∧ (t.que1 q).rp = (x.rp + 1) % (2 * s.depth q) ∧ (t.que1 q).inRead = !w.eoi) ∧
       (x.inRead = false → (x.words = [] ∨ itemAvailable ((s.queCfg q).toNat % 65536) x.words = false) →
         Completes (.queueRead q) s fun t => Frame t ∧ t.que1 q = x ∧
           t.que.readWord = some ⟨List.replicate (wordBytes q) 0, true, true, false, false⟩))) ∧
  ((∀ (f : Fn) (q : QInst) (v : Word) (p : PageId) (b : Nat) (x : Target) (s : State), queueRegs q = some (p, b) →
     s.openAt f p (b + 0x0C) v = .ok x → v.getLsbD 0 = true → (s.que1 q).inRead = false → (s.que1 q).inWrite = 0 →
     Completes (.queueFlush f q v) s fun t =>
       (t.que1 q).words = [] ∧ (t.que1 q).used = (s.que1 q).used - (s.que1 q).words.length ∧
       (t.que1 q).w = (s.que1 q).w ∧ (t.que1 q).dropping = (s.que1 q).dropping ∧
       (∀ d : QInst, d.num ≠ q.num → t.que1 d = s.que1 d) ∧ t.pad = s.pad ∧ t.cel = s.cel) ∧
   (∀ (q : QInst) (s : State), q.duplicated = true → Completes (.queuePtrMismatch q) s fun t =>
     (t.que1 q).words = [] ∧ (t.que1 q).used = 0 ∧ (t.que1 q).w = 0 ∧ (t.que1 q).rp = 0 ∧
     t.pad.mem = s.pad.mem ∧ t.cel.mem = s.cel.mem ∧
     ∀ n : Fin 128, q = .slot n → ∀ (hot half : Bool) (l : LRec), l ∈ (t.halfOf (slotOf (n.val / 2) hot) half).recs →
       s.isHot l.part l.queue ≠ (n.val % 2 == 0)) ∧
   (∀ (n : Fin 4) (s : State), Completes (.stallNHoldExpiry n) s fun t =>
     let want (i : Nat) : Bool := (s.pr .mgmt 0 (0x100 + 4 * i)) &&& s.wmGroups ≠ 0
     (∀ i, i < 4 → want i = true → t.que.stallDriven.getLsbD i = true) ∧
     (∀ i, i < 4 → want i = false → 160 ≤ (s.sys.time - s.que.stallSince.get 0 i).toNat →
       t.que.stallDriven.getLsbD i = false) ∧
     t.que.inst = s.que.inst ∧ t.pad = s.pad ∧ t.cel = s.cel))

/-- For a queued record with no pre-wait whose counter ID translates: SIGNAL and SET put their message into the input
queue of the cluster while it has room; WAIT with no freeze completes at once where its target is reached, is held
where fewer than 64 are, and is retried otherwise; ARRIVE to a reachable device, with LNK tokens, completes and its
packet is sent, to this device by way of its own receive queue. No counter and no byte changes yet.
(08_synchronisation.md, 10_links_and_topology.md) -/
def Obligations.CounterCommands : Prop :=
  ∀ (r : RecRef) (f : Flight) (c n : Nat) (s : State), s.flight? r = some f → f.st = .queued → f.lrec.pwEn = false →
    let l := f.lrec
    let Frame (t : State) : Prop := t.syn.count = s.syn.count ∧ t.pad = s.pad ∧ t.cel = s.cel
    let Standing (t : State) (st : FlightSt) : Prop := ∃ g, t.flight? r = some g ∧ g.st = st
    (s.vid l.part (l.immF 32 12) = some (c, n) →
      (l.opcode = 0x50 → s.inputRoom c = true → Completes (.signalOp r) s fun t => Frame t ∧ Standing t .running ∧
        t.inputOf c = s.inputOf c ++ [.add l.part n (BitVec.ofNat 16 (l.immF 0 32)) (some r)]) ∧
      (l.opcode = 0x53 → s.inputRoom c = true → Completes (.setOp r) s fun t => Frame t ∧ Standing t .running ∧
        t.inputOf c = s.inputOf c ++ [.set l.part n (BitVec.ofNat 32 (l.immF 0 32)) r]) ∧
      (l.opcode = 0x51 → s.frozen l.part = false →
        let target := BitVec.ofNat 32 (l.immF 0 32)
        let held := (s.syn.waits.filter fun w => w.cluster == c).length
        (serialReached (s.countOf c n) target = true → Completes (.waitOp r) s fun t =>
          Frame t ∧ Standing t .completed ∧ t.syn = s.syn) ∧
        (serialReached (s.countOf c n) target = false → Completes (.waitOp r) s fun t =>
          Frame t ∧ Standing t .waiting ∧ ∃ w, w.ref = l.ref ∧ w.cluster = c ∧ w.counter = n ∧ w.target = target ∧
            (held < 64 → t.syn.waits = s.syn.waits ++ [w]) ∧ (64 ≤ held → t.syn.retrying = s.syn.retrying ++ [w])))) ∧
    (l.opcode = 0x52 → s.hasTokens l.part 2 = true → s.routeTo (BitVec.ofNat 14 (l.immF 50 14)) none ≠ .unreachable →
      Completes (.arrive r) s fun t => Standing t .completed ∧ t.syn = s.syn ∧ t.pad = s.pad ∧ t.cel = s.cel ∧
        (s.routeTo (BitVec.ofNat 14 (l.immF 50 14)) none = .here → ∃ fs : List RxFlit,
          (t.port loopPort).rx.get [] 0 = (s.port loopPort).rx.get [] 0 ++ fs ∧
          fs.map (·.body) = [leBytes 16 (mkPkt (BitVec.ofNat 48 (l.immF 0 16)) (BitVec.ofNat 12 (l.immF 32 12)) 0 1
            ((s.peerPart l.part).toNat % 64) 3 s.selfLogical (BitVec.ofNat 14 (l.immF 50 14))).toNat]))

/-- WAIT_BUSY_RETRY of a refused wait within its deadline and without a freeze releases its command where the target is
reached and otherwise holds it while fewer than 64 are held; past its deadline and unreached the command faults with
cause 0x0017. WAIT_TIMEOUT of a held wait that is due and unreached faults its command with cause 0x0017, drops the
wait and counts it in TIMEOUTS. Counters and memory keep their values. (08_synchronisation.md) -/
def Obligations.WaitsEnd : Prop :=
  (∀ (r : RecRef) (w : Wait) (s : State), (s.syn.retrying.find? fun w => w.ref == r) = some w →
    let reached := serialReached (s.countOf w.cluster w.counter) w.target
    let Frame (t : State) : Prop := t.syn.count = s.syn.count ∧ t.pad = s.pad ∧ t.cel = s.cel ∧
      t.syn.retrying = s.syn.retrying.filter fun w => decide (w.ref ≠ r)
    (s.frozen w.part = false → reached = true → w.prewait = false → ∀ f, s.flight? w.ref = some f → f.st.ended = false →
      Completes (.waitBusyRetry r) s fun t => Frame t ∧ t.syn.waits = s.syn.waits ∧
        ∃ g, t.flight? w.ref = some g ∧ g.st = .completed) ∧
    (s.frozen w.part = false → reached = true → w.prewait = true → ∀ f, s.flight? w.ref = some f → f.st = .waiting →
      Completes (.waitBusyRetry r) s fun t => Frame t ∧ t.syn.waits = s.syn.waits ∧
        ∃ g, t.flight? w.ref = some g ∧ g.st = .queued ∧ g.pwDone = true) ∧
    (s.frozen w.part = false → reached = false → s.waitDue w = false →
      (s.syn.waits.filter fun x => x.cluster == w.cluster).length < 64 →
      Completes (.waitBusyRetry r) s fun t => Frame t ∧ t.syn.waits = s.syn.waits ++ [w] ∧ t.fe = s.fe) ∧
    (reached = false → s.waitDue w = true → ∀ f, s.flight? w.ref = some f → f.st.ended = false →
      Completes (.waitBusyRetry r) s fun t => Frame t ∧ ∃ g x, t.flight? w.ref = some g ∧ g.st = .faulted x ∧
        x.cause = 0x0017)) ∧
  (∀ (r : RecRef) (w : Wait) (f : Flight) (s : State), (s.syn.waits.find? fun w => w.ref == r && s.waitDue w) = some w →
    serialReached (s.countOf w.cluster w.counter) w.target = false → s.flight? r = some f → f.st.ended = false →
    Completes (.waitTimeout r) s fun t =>
      t.syn.waits = s.syn.waits.filter (fun w => decide (w.ref ≠ r)) ∧ t.syn.count = s.syn.count ∧ t.pad = s.pad ∧
      t.cel = s.cel ∧ t.pr .sync w.cluster 0x48 = satAdd32 (s.pr .sync w.cluster 0x48) 1 ∧
      ∃ g x, t.flight? r = some g ∧ g.st = .faulted x ∧ x.cause = 0x0017)

/-- An accepted SYNC_SIGNAL whose entry is valid and allows the host puts one add into the input queue of the counter
behind it; any other entry is refused and counted. An accepted VMAP_WRITE that maps a counter of a cluster the
partition owns, mapped nowhere else, into an entry that was invalid makes the ID name that counter and sets the
counter to 0; no other counter, entry or memory byte changes. (08_synchronisation.md) -/
def Obligations.CounterRegisters : Prop :=
  (∀ (f : Fn) (p : Fin 64) (v : Word) (x : Target) (s : State), s.openAt f ⟨.part, p.val⟩ 0x484 v = .ok x →
    let e := s.vmapOf p.val (v.extractLsb' 0 12).toNat
    (vmapV e = true → vmapHost e = true → Completes (.syncSignal f p v) s fun t =>
      t.inputOf (vmapCluster e) = s.inputOf (vmapCluster e) ++ [.add p.val (vmapCounter e) (v.extractLsb' 12 16) none] ∧
      t.syn.count = s.syn.count ∧ t = { s with syn := t.syn }) ∧
    (vmapV e = false ∨ vmapHost e = false → Completes (.syncSignal f p v) s fun t =>
      t.syn = s.syn ∧ t.pr .part p.val 0x4B0 = satAdd32 (s.pr .part p.val 0x4B0) 1 ∧ t.pad = s.pad ∧ t.cel = s.cel)) ∧
  (∀ (f : Fn) (p : Fin 64) (v : Word) (x : Target) (s : State), s.openAt f ⟨.part, p.val⟩ 0x494 v = .ok x →
    let vid := (s.pr .part p.val 0x490).toNat % 4096
    let c := vmapCluster v
    let n := vmapCounter v
    vmapV v = true → s.clusterOwner c = some p → s.mappedElsewhere (p.val * 4096 + vid) c n = false →
    vmapV (s.vmapOf p.val vid) = false →
    Completes (.vmapWrite f p v) s fun t =>
      t.vmapOf p.val vid = v ∧ t.countOf c n = 0 ∧
      (∀ q i, q * 4096 + i ≠ p.val * 4096 + vid → t.vmapOf q i = s.vmapOf q i) ∧
      (∀ d k, d * 256 + k ≠ c * 256 + n → t.countOf d k = s.countOf d k) ∧ t = { s with syn := t.syn })

/-- BRAMBLE_WINDOW of an enabled partition that is neither frozen nor counted, quiet for its window with something
blocked, freezes it where nothing outside can end its waits and otherwise counts the case. BRAMBLE_SNAPSHOT_DONE of
a freeze that held nothing ends every blocked wait of the partition, whose commands fault with cause 0x0018; of one
that held something it withdraws. Either way the freeze is over. (08_synchronisation.md) -/
def Obligations.DeadlockDetection : Prop :=
  (∀ (p : Fin 64) (s : State), (s.pr .part p.val 0x480).getLsbD 31 = true → s.frozen p.val = false →
    (s.brambleOf p.val).counted = false → s.windowNs p.val ≤ (s.brambleOf p.val).quiet →
    (s.blockedWaits p.val ≠ [] ∨ s.blockedTags p.val ≠ []) →
    let outside : Prop := ∃ w, w ∈ s.blockedWaits p.val ∧
      (vmapHost (s.vmapOf p.val w.vid.toNat) = true ∨ vmapRemote (s.vmapOf p.val w.vid.toNat) = true ∨
        s.sys.stageMode = true ∧ p.val = 0 ∧ 4088 ≤ w.vid.toNat)
    (¬ outside → Completes (.brambleWindow p) s fun t =>
      t = s.setBramble p.val { s.brambleOf p.val with frozen := true, frozenAt := s.sys.time, heldAny := false }) ∧
    (outside → Completes (.brambleWindow p) s fun t =>
      t.frozen p.val = false ∧ (t.brambleOf p.val).ext = true ∧
      t.pr .part p.val 0x4AC = satAdd32 (s.pr .part p.val 0x4AC) 1 ∧ t.pad = s.pad ∧ t.cel = s.cel ∧ t.fe = s.fe)) ∧
  (∀ (p : Fin 64) (s : State), s.frozen p.val = true →
    let held := (s.brambleOf p.val).heldAny || (s.clustersOf p.val).any fun c => !(s.inputOf c).isEmpty
    Completes (.brambleSnapshotDone p) s fun t =>
      (held = false → t.frozen p.val = false ∧ t.blockedWaits p.val = [] ∧
        (NoFaultArea s → KeepsBytes s t) ∧
        ∀ w f, w ∈ s.blockedWaits p.val → s.flight? w.ref = some f → f.st.ended = false →
          ∃ g x, t.flight? w.ref = some g ∧ g.st = .faulted x ∧ x.cause = 0x0018) ∧
      (held = true → t.frozen p.val = false))

/-- During a warm reset and during a cold start, a read of the physical or a virtual function’s BAR0 of any width
returns all ones and a write of any width changes nothing, so nothing is logged. During a failed start the pages of
R581 (GLB, FUSE, ERR) answer reads of the physical function, and writes to its other pages and any access of a
virtual function change nothing; a page that does not answer gives no register’s value. (R635) -/
def Obligations.UnservedAccesses : Prop :=
  ∀ (f : Fn) (o : BitVec 26) (w : Width) (v : BitVec 64) (s : State), f = .pf ∨ (∃ p, f = .vf p) →
    (s.sys.phase ≠ 0xF → (s.sys.warm.isSome = true ∨ 1 ≤ s.sys.phase.toNat ∧ s.sys.phase.toNat ≤ 6) →
      Completes (.registerWrite f o w v) s (fun t => t = s) ∧
      Completes (.registerPairRead f o w) s fun t => t = s.answer (allOnesOf w)) ∧
    (s.sys.phase = 0xF → s.pwr.trip = false →
      (f ≠ .pf ∨ ¬ (o.toNat / 0x1000 ∈ [0, 4, 6]) →
        Completes (.registerWrite f o w v) s (fun t => t = s) ∧
        Completes (.registerPairRead f o w) s fun t => t = s.answer (if f = .pf then 0 else allOnesOf w)) ∧
      (∀ x : Target, f = .pf → o.toNat / 0x1000 ∈ [0, 4, 6] → o.toNat % 4 = 0 → s.resolve f o.toNat = some x →
        pairLow x.page.kind (x.off - 4) = false →
        Completes (.registerPairRead f o .w32) s fun t => t.bus.readData = (s.view f x.page x.off).zeroExtend 64))

/-- While WAITING is 1 on a page: an accepted 32-bit write that reaches an RWS register of a waiting group (and, through
a virtual function, changes no field that only the physical function writes) is rejected and logged with REASON 5
and does nothing else; a further COMMIT has no effect. DISCARD drops every staged value of the page, ends the wait
and shows LAST = discarded; the values in force stay. (R639) -/
def Obligations.WaitingCommits : Prop :=
  (∀ (f : Fn) (o : BitVec 26) (v : BitVec 64) (x : Target) (r : RegSpec) (s : State),
    s.openWrite f o.toNat 4 (v.extractLsb' 0 32) = .ok (x, r) → r.acc = .rws →
    (f.isVf = true → s.wmChange x (v.extractLsb' 0 32 &&& r.wmask) = false) →
    (s.commitOf x.page).waiting = true → groupOf x.page.kind x.off ∈ (s.commitOf x.page).groups →
    Completes (.registerWrite f o .w32 v) s fun t => t = s.reject f x.page x.off 5) ∧
  (∀ (f : Fn) (page : BitVec 14) (x : Target) (r : RegSpec) (s : State),
    s.openWrite f (page.toNat * 0x1000 + 0x20) 4 1 = .ok (x, r) → (s.commitOf x.page).waiting = true →
    Completes (.stageCommit f page) s fun t => t = s) ∧
  (∀ (f : Fn) (page : BitVec 14) (x : Target) (r : RegSpec) (s : State),
    s.openWrite f (page.toNat * 0x1000 + 0x20) 4 2 = .ok (x, r) → (s.commitOf x.page).waiting = true →
    Completes (.stageDiscard f page) s fun t =>
      t.stagedKeys x.page = [] ∧ (∀ k, x.page.base ≤ k → k < x.page.base + 0x1000 → t.stagedOf k = none) ∧
      (x.page.kind = .route → t.lk.mapStaged = []) ∧ (t.commitOf x.page).waiting = false ∧
        (t.commitOf x.page).last = 3 ∧
      t.bus.regs = s.bus.regs)

/-- A 32-bit REGISTER_WRITE to a plain RW register of the PWR, AGE, SLOE and ROUTE pages stores its writable bits; to an
RWS register whose group takes a value it stages them and changes no value in force; to INT_STATUS it clears the
bits written as 1; a write that fails a check is logged with its REASON and changes nothing but the log, the
counters of the logs and the interrupt of the ERR page. INT_FORCE sets bits of INT_STATUS. Memories, queues and
partitions are unchanged. (18_register_map.md) -/
def Obligations.RegisterWrites : Prop :=
  (∀ (f : Fn) (o : BitVec 26) (v : BitVec 64) (x : Target) (r : RegSpec) (s : State),
    let w : Word := v.extractLsb' 0 32 &&& r.wmask
    s.openWrite f o.toNat 4 (v.extractLsb' 0 32) = .ok (x, r) → heldLow x r = false →
    (r.acc = .rw → x.page.kind ∈ [PageKind.pwr, .age, .sloe, .route] → 0x40 ≤ x.off →
      Completes (.registerWrite f o .w32 v) s fun t => t = s.setReg x.key w) ∧
    (r.acc = .rws → stagedHigh x r = false → s.stageOpen x = true → ¬ (x.page.kind = .route ∧ x.off = 0x50) →
      (f.isVf = true → s.wmChange x w = false) →
      Completes (.registerWrite f o .w32 v) s fun t =>
        t.stagedOf x.key = some w ∧ t.bus.regs = s.bus.regs ∧
          t = { s with bus := { s.bus with staged := t.bus.staged } }) ∧
    (x.off = 0x10 → x.page.kind ≠ .msixTable → Completes (.registerWrite f o .w32 v) s fun t =>
      t = s.setReg x.key (s.reg x.key &&& ~~~w))) ∧
  (∀ (f : Fn) (o : BitVec 26) (v : BitVec 64) (x : Target) (reason : BitVec 3) (s : State),
    s.served f o.toNat = true → s.resolve f o.toNat = some x → o.toNat % 4 = 0 →
    writeCheck f x (v.extractLsb' 0 32) = .error reason → ¬ (x.page.kind = .part ∧ x.off = 0x484) →
    ¬ (x.page.kind = .cel ∧ x.off = 0x4C) →
    Completes (.registerWrite f o .w32 v) s fun t => t = s.reject f x.page x.off reason ∧
      t = { s with bus := t.bus, host := t.host, err := t.err, ckpt := t.ckpt }) ∧
  (∀ (f : Fn) (page : BitVec 14) (bits : Word) (x : Target) (r : RegSpec) (s : State),
    s.openWrite f (page.toNat * 0x1000 + 0x18) 4 bits = .ok (x, r) → x.page.kind ≠ .msixTable →
    Completes (.intForce f page bits) s fun t =>
      t.pr x.page.kind x.page.inst 0x10 = s.pr x.page.kind x.page.inst 0x10 ||| (bits &&& r.wmask) ∧
      KeepsRegsBut [rk x.page.kind x.page.inst 0x10] s t ∧ t = { s with bus := t.bus, host := t.host })

/-- A served aligned 64-bit read of a register pair returns both halves of one moment and changes nothing else. A 32-bit
read of a low half returns it and latches the high half for the reader, and the following read of the high half
returns the latched value. ERR_LOG_READ returns the page’s ERR_LOG and clears it. Memories, queues and partitions
are unchanged. (18_register_map.md) -/
def Obligations.RegisterReads : Prop :=
  (∀ (f : Fn) (o : BitVec 26) (x : Target) (s : State), s.served f o.toNat = true → s.resolve f o.toNat = some x →
    (o.toNat % 8 = 0 → pairLow x.page.kind x.off = true → Completes (.registerPairRead f o .w64) s fun t =>
      t = s.answer (s.view f x.page (x.off + 4) ++ s.view f x.page x.off)) ∧
    (o.toNat % 4 = 0 → pairLow x.page.kind x.off = true → f ≠ .smb → Completes (.registerPairRead f o .w32) s fun t =>
      t.bus.readData = (s.view f x.page x.off).zeroExtend 64 ∧
      t.latchOf f x.page = some ⟨x.off, s.view f x.page (x.off + 4)⟩ ∧ t.pad = s.pad ∧ t.fe = s.fe ∧
        t.parts = s.parts) ∧
    (∀ v : Word, o.toNat % 4 = 0 → 4 ≤ x.off → pairLow x.page.kind x.off = false →
      pairLow x.page.kind (x.off - 4) = true → f ≠ .smb → s.latchOf f x.page = some ⟨x.off - 4, v⟩ →
      Completes (.registerPairRead f o .w32) s fun t => t = s.answer (v.zeroExtend 64))) ∧
  (∀ (f : Fn) (page : BitVec 14) (x : Target) (s : State), f ≠ .smb →
    s.served f (page.toNat * 0x1000 + 0x1C) = true → s.resolve f (page.toNat * 0x1000 + 0x1C) = some x →
    x.page.kind ≠ .msixTable → x.page.kind ≠ .msixPba → Completes (.errLogRead f page) s fun t =>
      t.bus.readData = (s.view f x.page 0x1C).zeroExtend 64 ∧ t.reg x.key = 0 ∧ KeepsRegsBut [x.key] s t ∧
      t = { s with bus := t.bus })

/-- An accepted STAGE_COMMIT of a page with one staged group, and no commit waiting: on the CLU, AGE, FE, MGMT, ERR and
SLOE pages a group that may act takes every staged value into force and shows LAST = applied; on the PWR, PORT and
BUDGET pages it waits with nothing changed in force; a group of the CLU, FE, HTAB, CEL and STG pages that fails its
check keeps its staged values and shows LAST = rejected. With nothing staged it has no effect. COMMIT_APPLY puts the
waiting gang-split group of a PART page in force while the partition runs no gang operation. (18_register_map.md) -/
def Obligations.PageCommits : Prop :=
  (∀ (f : Fn) (page : BitVec 14) (x : Target) (r : RegSpec) (g : Nat) (s : State),
    s.openWrite f (page.toNat * 0x1000 + 0x20) 4 1 = .ok (x, r) → (s.commitOf x.page).waiting = false →
    (s.commitGroups x.page = [] → Completes (.stageCommit f page) s fun t => t = s) ∧
    (s.commitGroups x.page = [g] →
      (x.page.kind ∈ [PageKind.clu, .age, .fe, .mgmt, .err, .sloe] → s.groupFate f.isVf x.page g = .apply →
        Completes (.stageCommit f page) s fun t =>
          (∀ k v, k ∈ s.stagedIn x.page g → s.stagedOf k = some v → t.reg k = v ∧ t.stagedOf k = none) ∧
          (∀ k, k ∉ s.stagedIn x.page g → t.reg k = s.reg k ∧ t.stagedOf k = s.stagedOf k) ∧
          (t.commitOf x.page).waiting = false ∧ (t.commitOf x.page).last = 1 ∧
          (t.commitOf x.page).applied = (s.commitOf x.page).applied + 1 ∧ t = { s with bus := t.bus }) ∧
      (x.page.kind ∈ [PageKind.pwr, .port, .budget] → s.groupFate f.isVf x.page g = .wait →
        Completes (.stageCommit f page) s fun t =>
          (t.commitOf x.page).waiting = true ∧ (t.commitOf x.page).groups = [g] ∧ t.bus.regs = s.bus.regs ∧
          t.bus.staged = s.bus.staged ∧ t = { s with bus := t.bus }) ∧
      (x.page.kind ∈ [PageKind.clu, .fe, .htab, .cel, .stg] → s.groupFate f.isVf x.page g = .refuse →
        Completes (.stageCommit f page) s fun t =>
          t.bus.staged = s.bus.staged ∧ (t.commitOf x.page).waiting = false ∧ (t.commitOf x.page).last = 2 ∧
          t.fe = s.fe ∧ t.pad = s.pad ∧ t.cel = s.cel ∧ t.stg = s.stg))) ∧
  (∀ (page : BitVec 14) (i : Nat) (s : State), pageAt page.toNat = some ⟨.part, i⟩ →
    (s.commitOf ⟨.part, i⟩).waiting = true → 1 ∈ (s.commitOf ⟨.part, i⟩).groups →
    (s.gangOf i = none → Completes (.commitApply page 1) s fun t =>
      (∀ k v, k ∈ s.stagedIn ⟨.part, i⟩ 1 → s.stagedOf k = some v → t.reg k = v ∧ t.stagedOf k = none) ∧
      (∀ k, k ∉ s.stagedIn ⟨.part, i⟩ 1 → t.reg k = s.reg k ∧ t.stagedOf k = s.stagedOf k) ∧
        t = { s with bus := t.bus }) ∧
    (s.gangOf i ≠ none → Completes (.commitApply page 1) s fun t => t = s))

/-- For a queued record with no pre-wait: NOP completes and changes nothing else. TIMESTAMP outside a barred checkpoint
scope completes and writes exactly the time of its dispatch: to settled scratchpad banks of the partition, to
writable pages of its cellar view, or to the host. SELF_SUBMIT to a READY self-fed queue of another kind than the
stage engine’s, with room in a ring that takes the write, completes, writes one 64 B entry, advances that queue’s
TAIL by one and counts it; where the ring is full it stays queued. (13_command_front_end.md) -/
def Obligations.FrontEndCommands : Prop :=
  ∀ (r : RecRef) (f : Flight) (s : State), s.flight? r = some f → f.st = .queued → f.lrec.pwEn = false →
    let l := f.lrec
    let Standing (t : State) (st : FlightSt) : Prop := ∃ g, t.flight? r = some g ∧ g.st = st
    (l.opcode = 0x00 → Completes (.nop r) s fun t => Standing t .completed ∧
      t = { s with fe := { s.fe with flights := t.fe.flights } }) ∧
    (∀ o : ROpnd, l.opcode = 0x02 → l.opnd 0 = some o → o.kind = 0 → s.padOwned l.part o.addr.toNat 8 = true →
      s.scopeHit l.part o.addr.toNat 8 = false → Completes (.timestamp r) s fun t => Standing t .completed ∧
        PadHolds t o.addr.toNat (leBytes 8 f.time.toNat) ∧ PadKeepsBut s t o.addr.toNat 8 ∧ t.cel = s.cel ∧
        t.fe.queues = s.fe.queues ∧ t.syn = s.syn) ∧
    (∀ o : ROpnd, l.opcode = 0x02 → l.opnd 0 = some o → o.kind = 1 ∨ o.kind = 2 →
      s.viewWritable l.part (o.addr.toNat % 0x1000000000) 8 = none → s.scopeHit l.part o.addr.toNat 8 = false →
      Completes (.timestamp r) s fun t => Standing t .completed ∧ t.pad = s.pad ∧ t.fe.queues = s.fe.queues ∧
        (o.kind = 1 → t.cel = (s.viewWrite l.part (o.addr.toNat % 0x1000000000) (leBytes 8 f.time.toNat)).cel) ∧
        (o.kind = 2 → t.cel = s.cel ∧ (s.mayRequest (fnOf l.part) = true → t.host.outbox = s.host.outbox ++
          [.write (Fin.ofNat 65 (fnOf l.part)) (BitVec.ofNat 64 (o.addr.toNat % 2 ^ 63)) (leBytes 8 f.time.toNat)]))) ∧
    (l.opcode = 0x01 →
      let p := l.part
      let q := l.subF 0 4
      let x := s.queueOf p q
      let n := s.ringLog2 p q
      let off := (s.qReg p q 0x0C ++ s.qReg p q 0x08).toNat + 64 * (x.tail.toNat % 2 ^ n)
      s.stageFed p q = false → (s.qReg p q 0).getLsbD 31 = true → (x.st = .ready ∨ x.st = .faulted) →
      (ptrDist n x.head x.tail < 2 ^ n → ∀ u : State,
        (s.setFlight r .running).handleWrite p ((s.qReg p q 0x04).toNat % 4096) off (selfSubmitEntry l) = some u →
        Completes (.selfSubmit r) s fun t => Standing t .completed ∧ t.pad = u.pad ∧ t.cel = u.cel ∧
          t.queueOf p q = { x with tail := ptrInc n x.tail } ∧
          (∀ a b, a * 16 + b ≠ p * 16 + q → t.queueOf a b = s.queueOf a b) ∧
          t.pr .fe p 0x60 = satAdd32 (s.pr .fe p 0x60) 1) ∧
      (2 ^ n ≤ ptrDist n x.head x.tail → Completes (.selfSubmit r) s fun t => Standing t .queued ∧
        t = { s with fe := { s.fe with flights := t.fe.flights } }))

/-- RING_ENTRY_FETCH into an empty half with FETCH tokens and no trip: the chosen queue’s started entry, if well formed
and readable, gives up to 1,024 records from its next index on, in order, beginning with that record; with none
left, the next ring entry is started. DISPATCH_RECORD takes the head record that may dispatch out of its half and
makes it a flight: queued, or with the fault found at fetch. HALF_RELEASE empties the half that has waited longer
when both heads have been blocked for FE.SWITCH and another queue waits. Memories are unchanged.
(13_command_front_end.md) -/
def Obligations.FetchAndDispatch : Prop :=
  (∀ (p : Fin 65) (hot half : Bool) (ent : BitVec 512) (recs : List (BitVec 512)) (q : Nat) (s : State),
    let slot := slotOf p.val hot
    let host := recs.flatMap fun r => leBytes 64 r.toNat
    let x := s.queueOf p.val q
    let next := x.entries.find? fun e => !e.faulted && (s.nextIndex slot q e).isSome
    (s.halfOf slot half).recs = [] → s.hasTokens p.val 4 = true → s.pwr.trip = false →
    s.chooseQueue slot p.val hot (s.halfOf slot (!half)) = some q →
    (∀ (e : EntrySt) (i : Nat) (buf : List Byte), next = some e → s.nextIndex slot q e = some i →
      s.entryOk p.val q e.raw = true →
      s.feRead p.val (s.handleOf p.val (entHandle e.raw)) (entOffset e.raw) (64 * (entRecords e.raw + entPrecords e.raw)) host =
        some (.ok buf) →
      Completes (.ringEntryFetch p hot half ent recs) s fun t =>
        (∃ l ls, (t.halfOf slot half).recs = l :: ls ∧ ls.length < 1024 ∧ l.ref.part = p ∧ l.ref.queue.val = q ∧
          l.ref.entry = e.num ∧ l.ref.index = BitVec.ofNat 16 i ∧ l.raw = (rawRec e.raw buf i).raw) ∧
        t.fe.flights = s.fe.flights ∧ t.fe.queues = s.fe.queues ∧ t.pad = s.pad ∧ t.cel = s.cel) ∧
    (∀ bs buf : List Byte, next = none →
      let n := s.ringLog2 p.val q
      let raw : BitVec 512 := BitVec.ofNat 512 (leVal bs)
      s.feRead p.val (s.handleOf p.val ((s.qReg p.val q 0x04).toNat % 4096))
        ((s.qReg p.val q 0x0C ++ s.qReg p.val q 0x08).toNat + 64 * (x.started.toNat % 2 ^ n)) 64 (leBytes 64 ent.toNat) =
        some (.ok bs) →
      s.feRead p.val (s.handleOf p.val (entHandle raw)) (entOffset raw) (64 * (entRecords raw + entPrecords raw)) host =
        some (.ok buf) →
      Completes (.ringEntryFetch p hot half ent recs) s fun t =>
        (t.queueOf p.val q).started = ptrInc n x.started ∧
        (t.queueOf p.val q).entries = x.entries ++ [⟨x.started, raw, 0, [], false⟩] ∧
        t.fe.flights = s.fe.flights ∧ t.pad = s.pad ∧ t.cel = s.cel)) ∧
  (∀ (p : Fin 65) (hot half : Bool) (l : LRec) (ls : List LRec) (s : State),
    (s.halfOf (slotOf p.val hot) half).recs = l :: ls → s.mayDispatch l = true → s.pwr.trip = false →
    s.yieldsHead (slotOf p.val hot) hot half = false →
    let Taken (t : State) (st : FlightSt) : Prop :=
      (t.halfOf (slotOf p.val hot) half).recs = ls ∧ t.fe.flights = s.fe.flights ++ [⟨l, st, false, s.sys.time⟩] ∧
      (t.queueOf l.part l.queue).entries = (s.queueOf l.part l.queue).entries.map (fun e =>
        if e.num == l.ref.entry then { e with dispatched := e.dispatched + 1 } else e) ∧ t.pad = s.pad ∧ t.cel = s.cel
    (∀ i, l.fault = some i → Completes (.dispatchRecord p hot half) s fun t => Taken t (.faulted i)) ∧
    (l.fault = none → s.stg.skipping = false → (l.isGang = true → s.banksReady l = true) → s.engineCredit l hot = true →
      Completes (.dispatchRecord p hot half) s fun t => Taken t .queued)) ∧
  (∀ (p : Fin 65) (hot : Bool) (a b : LRec) (as bs : List LRec) (t0 t1 : BitVec 64) (s : State),
    let slot := slotOf p.val hot
    (s.halfOf slot false).recs = a :: as → (s.halfOf slot true).recs = b :: bs →
    (s.halfOf slot false).since = some t0 → (s.halfOf slot true).since = some t1 →
    (s.pr .fe p.val 0x50).toNat % 256 * 1000 ≤ (s.sys.time - t0).toNat →
    (s.pr .fe p.val 0x50).toNat % 256 * 1000 ≤ (s.sys.time - t1).toNat → s.canDispatch a hot = false →
    s.canDispatch b hot = false →
    (∃ q, q < 16 ∧ q ≠ a.queue ∧ q ≠ b.queue ∧ s.bound p.val q = true ∧ s.isHot p.val q = hot ∧
      (s.queueOf p.val q).started ≠ (s.queueOf p.val q).tail) →
    Completes (.halfRelease p hot) s fun t =>
      (t.halfOf slot (decide (t1.toNat < t0.toNat))).recs = [] ∧
      t.halfOf slot (!decide (t1.toNat < t0.toNat)) = s.halfOf slot (!decide (t1.toNat < t0.toNat)) ∧
      t.fe.flights = s.fe.flights ∧ t.fe.queues = s.fe.queues ∧ t.pad = s.pad ∧ t.cel = s.cel)

/-- RECORD_COMPLETE of a completed record with no signal to send removes its flight and adds its index to its entry;
while the queue’s oldest entry is not finished nothing is written. When it finishes the only started entry of a
READY queue whose completion ring lies in host memory, HEAD advances and one 16 B completion record goes to the
host. COMMAND_FAULT of a faulted record removes its flight, leaves its queue FAULTED and every other queue and
flight alone. (13_command_front_end.md) -/
def Obligations.RecordEnds : Prop :=
  (∀ (r : RecRef) (f : Flight) (e : EntrySt) (es : List EntrySt) (s : State), s.flight? r = some f → f.st = .completed →
    (f.lrec.sigEn = false ∨ f.lrec.isMover = true) →
    let l := f.lrec
    let x := s.queueOf l.part l.queue
    let add (e : EntrySt) : EntrySt := if e.num == l.ref.entry then { e with done := e.done ++ [l.ref.index.toNat] } else e
    x.entries = e :: es → e.faulted = false →
    ((add e).done.length ≠ entRecords e.raw → x.st ≠ .zombie → Completes (.recordComplete r) s fun t =>
      t.fe.flights = s.fe.flights.filter (fun g => decide (g.lrec.ref ≠ r)) ∧
      t.queueOf l.part l.queue = { x with entries := (e :: es).map add } ∧ t.pad = s.pad ∧ t.cel = s.cel) ∧
    (es = [] → e.num = l.ref.entry → e.done.length + 1 = entRecords e.raw → x.st = .ready →
      s.hasTokens l.part 4 = true →
      entDeadlineV e.raw = false → entIrq e.raw = false →
      let m := s.cplLog2 l.part l.queue
      let h := s.handleOf l.part ((s.qReg l.part l.queue 0x10).toNat % 4096)
      let off := (s.qReg l.part l.queue 0x18 ++ s.qReg l.part l.queue 0x14).toNat + 16 * (x.cplTail.toNat % 2 ^ m)
      h.v = true → h.wr = true → h.covers off 16 = true → h.kind = 2 → s.mayRequest (fnOf l.part) = true →
      s.scopeHit l.part (h.dev.toNat + off) 16 = false →
      Completes (.recordComplete r) s fun t =>
        t.fe.flights = s.fe.flights.filter (fun g => decide (g.lrec.ref ≠ r)) ∧
        t.queueOf l.part l.queue =
          { x with entries := [], head := ptrInc (s.ringLog2 l.part l.queue) x.head, cplTail := ptrInc m x.cplTail } ∧
        t.host.outbox = s.host.outbox ++ [.write (Fin.ofNat 65 (fnOf l.part)) (BitVec.ofNat 64 ((h.dev.toNat + off) % 2 ^ 63))
          (leBytes 4 (entTag e.raw).toNat ++ [0, if x.cplTail.toNat / 2 ^ m % 2 = 0 then 1
            else 0] ++ leBytes 2 l.queue ++
            leBytes 8 s.sys.time.toNat)] ∧ t.pad = s.pad ∧ t.cel = s.cel)) ∧
  (∀ (r : RecRef) (f : Flight) (i : FaultInfo) (s : State), s.flight? r = some f → f.st = .faulted i →
    (s.queueOf r.part.val r.queue.val).st ≠ .zombie → Completes (.commandFault r) s fun t =>
      t.fe.flights = s.fe.flights.filter (fun g => decide (g.lrec.ref ≠ r)) ∧
      (t.queueOf r.part.val r.queue.val).st = .faulted ∧
      (∀ p q, p * 16 + q ≠ r.part.val * 16 + r.queue.val → t.queueOf p q = s.queueOf p q) ∧
      ∀ hot half l, l ∈ (t.halfOf (slotOf r.part.val hot) half).recs → l.queue ≠ r.queue.val)

/-- QUEUE_CREATE of a FREE queue whose staged configuration passes every check makes it READY with the lowest free ID
and all pointers 0, puts the configuration in force and counts the uses of its two handles; of a queue that is not
FREE it is refused with ERR 0x4. DOORBELL within the ring moves TAIL. QUEUE_RESUME makes a FAULTED queue whose fault
completion has been written READY. QUEUE_DESTROY leaves no undispatched record of the queue and no live flight of it
but a gang operation that stops at its step ends. Other queues keep their state. (13_command_front_end.md) -/
def Obligations.QueueLifecycle : Prop :=
  ∀ (f : Fn) (p : Fin 65) (q : Fin 16) (x : Target) (s : State),
    let y := s.queueOf p.val q.val
    let Others (t : State) : Prop := ∀ a b, a * 16 + b ≠ p.val * 16 + q.val → t.queueOf a b = s.queueOf a b
    (s.openCtrl f p q 1 = .ok x →
      let nv (o : Nat) : Word := s.nextVal (rk .fe p.val (0x100 + 64 * q.val + o))
      let n := ((nv 0x04).extractLsb' 16 5).toNat
      let m := ((nv 0x10).extractLsb' 16 5).toNat
      let hr := (nv 0x04).toNat % 4096
      let hc := (nv 0x10).toNat % 4096
      (∀ g, y.st = .free → 4 ≤ n → n ≤ 16 → 4 ≤ m → m ≤ 16 → s.queueOwned p.val q.val = true →
        ringOk (s.handleOf p.val hr) (nv 0x0C ++ nv 0x08).toNat (64 * 2 ^ n) true false = true →
        ((nv 0).getLsbD 31 = true → (s.handleOf p.val hr).wr = true) →
        ringOk (s.handleOf p.val hc) (nv 0x18 ++ nv 0x14).toNat (16 * 2 ^ m) false true = true → s.freeGid = some g →
        Completes (.queueCreate f p q) s fun t =>
          t.queueOf p.val q.val = { SwQueue.init with st := .ready, gid := BitVec.ofNat 10 g } ∧ Others t ∧
          (∀ o, o ∈ [0x00, 0x04, 0x08, 0x0C, 0x10, 0x14, 0x18] → t.qReg p.val q.val o = nv o) ∧
          (hr ≠ hc → t.useOf p.val hr = s.useOf p.val hr + 1 ∧ t.useOf p.val hc = s.useOf p.val hc + 1) ∧
          t.pad = s.pad ∧ t.cel = s.cel ∧ t.fe.flights = s.fe.flights) ∧
      (y.st ≠ .free → Completes (.queueCreate f p q) s fun t =>
        t.queueOf p.val q.val = { y with err := 4 } ∧ Others t ∧ t.pad = s.pad ∧ t.cel = s.cel)) ∧
    (∀ v : Word, s.openAt f ⟨.fe, p.val⟩ (0x100 + 64 * q.val + 0x1C) v = .ok x →
      let n := s.ringLog2 p.val q.val
      let new := v.extractLsb' 0 17
      (y.st = .ready ∨ y.st = .faulted) → (s.qReg p.val q.val 0).getLsbD 31 = false → s.stageFed p.val q.val = false →
      new.toNat < 2 ^ (n + 1) → ptrDist n y.tail new ≤ 2 ^ n → ptrDist n y.head new ≤ 2 ^ n →
      Completes (.doorbell f p q v) s fun t => t = s.setQueue p.val q.val { y with tail := new }) ∧
    (s.openCtrl f p q 3 = .ok x →
      (y.st = .faulted → y.faultCpl = true → Completes (.queueResume f p q) s fun t =>
        t = s.setQueue p.val q.val { y with st := .ready, faultCpl := false }) ∧
      (y.st ≠ .faulted ∨ y.faultCpl = false → Completes (.queueResume f p q) s fun t =>
        t.queueOf p.val q.val = { y with err := 4 } ∧ Others t ∧ t.pad = s.pad ∧ t.cel = s.cel)) ∧
    (s.openCtrl f p q 2 = .ok x → (y.st = .ready ∨ y.st = .faulted) → Completes (.queueDestroy f p q) s fun t =>
      ((t.queueOf p.val q.val).st = .zombie ∨ (t.queueOf p.val q.val).st = .free) ∧
        (t.queueOf p.val q.val).entries = [] ∧
      Others t ∧ (∀ hot half l, l ∈ (t.halfOf (slotOf p.val hot) half).recs → l.queue ≠ q.val) ∧
      ∀ g, g ∈ t.fe.flights → g.lrec.part = p.val → g.lrec.queue = q.val → g.st.ended = true ∨
        ∃ o, t.gangOf p.val = some o ∧ o.lrec.ref = g.lrec.ref)

/-- MATMUL, CONV, ATT_QK, ATT_PV, the six vector operations and CMP_COUNT of a queued record with no pre-wait: while the
partition’s gang engine is free, and for an array operation with no shard on a tile mapped out, the flight runs and
the operation begins with nothing issued; while another is in progress the record stays queued and that operation is
untouched; an array operation with a shard on a lost tile ends with cause 0x0012. No memory byte and no other
partition’s operation changes. (03_array_fabric.md, 04_operations_and_steps.md) -/
def Obligations.GangOperationsIssue : Prop :=
  ∀ (r : RecRef) (f : Flight) (s : State), s.flight? r = some f → f.st = .queued → f.lrec.pwEn = false →
    let l := f.lrec
    let Issues (c : Instr) : Prop :=
      let Standing (t : State) (st : FlightSt) : Prop := ∃ g, t.flight? r = some g ∧ g.st = st
      (s.gangFree l = true → (l.isArray = true → s.overHole l = false) → Completes c s fun t =>
        Standing t .running ∧ (∃ g, t.gangOf l.part = some g ∧ g.lrec = l ∧ g.hot = s.isHot l.part l.queue ∧
          g.since = s.sys.time ∧ g.tiles = [] ∧ g.vecs = [] ∧ g.cmps = [] ∧ g.results = [] ∧ g.arrived = [] ∧
            g.stop = none) ∧
        (∀ p, p ≠ l.part → t.gangOf p = s.gangOf p) ∧ t = { s with gang := t.gang, fe := t.fe }) ∧
      (s.gangFree l = false → Completes c s fun t =>
        Standing t .queued ∧ t = { s with fe := { s.fe with flights := t.fe.flights } }) ∧
      (s.gangFree l = true → l.isArray = true → s.overHole l = true → Completes c s fun t =>
        (∃ x, Standing t (.faulted x) ∧ x.cause = 0x0012) ∧ t = { s with fe := { s.fe with flights := t.fe.flights } })
    (l.opcode = 0x10 → Issues (.matmul r)) ∧ (l.opcode = 0x11 → Issues (.convOp r)) ∧
    (l.opcode = 0x12 → Issues (.attQk r)) ∧ (l.opcode = 0x13 → Issues (.attPv r)) ∧
    (l.opcode = 0x20 → Issues (.vecMap r)) ∧ (l.opcode = 0x21 → Issues (.vecReduce r)) ∧
    (l.opcode = 0x22 → Issues (.vecNorm r)) ∧ (l.opcode = 0x23 → Issues (.vecSoftmax r)) ∧
    (l.opcode = 0x24 → Issues (.vecConvert r)) ∧ (l.opcode = 0x25 → Issues (.vecRandom r)) ∧
    (l.opcode = 0x30 → Issues (.cmpCount r))

/-- PASS_ISSUE on a live tile at activity 8 with no ended step waiting, inside rows held and free of poison, issues the
next place; the last of a group ends a step whose accumulators are the pass’s result. STEP_COMMIT takes the oldest
ended step of a tile: inside a group its raw accumulators stand in the partial slot of the step’s parity, and no
byte outside the rows it writes changes. STEP_RESTART with nothing ended goes back to the last commit, or faults
with cause 0x0011 after the allowed reissues and leaves every byte outside the operation’s outputs and partial area.
ACTIVITY_STEP moves the activity by one and PULP_HOLD_EXPIRY ends the hold; with PULP_EN the cycles that end so
count as PULP. (03_array_fabric.md, 04_operations_and_steps.md) -/
def Obligations.TileSteps : Prop :=
  (∀ (c : Fin 64) (t : Fin 16) (p : Nat) (g : GangOp) (sh : Shard) (s : State), s.clusterGang c.val = some (p, g) →
    s.tileShard g.lrec c.val t.val = some sh →
    let l := g.lrec
    let r := g.tile c.val t.val
    (∀ (w : PassWaits) (pl : Place), l.isArray = true → (s.actOf c.val t.val).level = 8 →
      s.tileLive c.val t.val = true →
      s.clkStopped c.val = false → g.stop = none → l.place sh r.issued = some pl → r.ends = [] → l.convOut pl = false →
      (∀ a, a ∈ s.passReads l (s.ringOf l) pl → s.poisoned a.1 a.2 = false) →
      Completes (.passIssue c t w) s fun u => ∃ r', u.gangOf p = some (g.setTile c.val t.val r') ∧
        r'.issued = r.issued + 1 ∧
        r'.committed = r.committed ∧ r'.steps = r.steps ∧
        (pl.last = true → l.acc = false → pl.load = false → ∃ e, r'.ends = [e] ∧ e.pass = r.issued + 1 ∧
          e.inside = false ∧
          e.acc = (s.runPass l (s.ringOf l) pl (if pl.first then [] else r.acc)).1) ∧
        KeepsRegsBut [rk .clu c.val 0x338, rk .clu c.val 0x33C] s u ∧ u = { s with gang := u.gang, bus := u.bus }) ∧
    (∀ (e : StepEnd) (rest : List StepEnd) (pl : Place), s.clkStopped c.val = false → r.ends = e :: rest →
      l.place sh (e.pass - 1) = some pl → s.gangBarred l (s.commitWrites p g c.val t.val pl e.inside) = none →
      Completes (.stepCommit c (.tile t)) s fun u =>
        (∃ g', u.gangOf p = some g' ∧ g'.tile c.val t.val =
          { r with committed := e.pass, steps := r.steps + 1, reissues := 0, ends := rest, inside := e.inside }) ∧
        (∀ a, (∀ w, w ∈ s.commitWrites p g c.val t.val pl e.inside → ¬ (w.1 ≤ a ∧ a < w.1 + w.2)) →
          u.padByte a = s.padByte a) ∧
        (e.inside = true → ∀ i j, i < pl.grp.mc → j < pl.grp.nc →
          u.padRead (l.slotAddr (s.gangIndex p c.val t.val) (r.steps % 2) + (i * l.tileCols + j) * l.accBytes) l.accBytes =
            leBytes l.accBytes (e.acc.get 0 (i * l.tileCols + j)).toNat) ∧ u.cel = s.cel ∧
              u.fe.flights = s.fe.flights) ∧
    (r.stepOpen = true → r.ends = [] →
      let max := ((s.pr .part p 0x3C0).extractLsb' 4 3).toNat
      (r.reissues < max → Completes (.stepRestart c (.tile t) false) s fun u => ∃ r',
        u.gangOf p = some (g.setTile c.val t.val r') ∧ r'.issued = r.committed ∧ r'.committed = r.committed ∧
        r'.reissues = r.reissues + 1 ∧ r'.acc = s.restartAcc p g c.val t.val sh ∧ u.pad = s.pad ∧ u.cel = s.cel) ∧
      (max ≤ r.reissues → ∀ f, s.flight? l.ref = some f → f.st.ended = false →
        Completes (.stepRestart c (.tile t) false) s fun u => u.gangOf p = none ∧ KeepsOutside (s.gangOpens l) s u ∧
          ∃ h x, u.flight? l.ref = some h ∧ h.st = .faulted x ∧ x.cause = 0x0011))) ∧
  (∀ (c : Fin 64) (t : Fin 16) (s : State),
    let a := s.actOf c.val t.val
    let cfg := s.pr .clu c.val 0x304
    let low := if a.expired || holdTime cfg == 0 then 0 else bandLo cfg
    (s.passPending c.val t.val = true → Completes (.activityStep c t) s fun u =>
      u = s.setAct c.val t.val ⟨min 8 (a.level + 1), false⟩) ∧
    (s.passPending c.val t.val = false → Completes (.activityStep c t) s fun u =>
      u = if low < a.level then (s.setAct c.val t.val { a with level := a.level - 1 }).pulp c.val (rampStep cfg) else s) ∧
    (s.passPending c.val t.val = false → a.level = bandLo cfg → a.level ≠ 0 → a.expired = false →
      Completes (.pulpHoldExpiry c t) s fun u => u = (s.setAct c.val t.val { a with expired := true }).pulp c.val (holdTime cfg)))

/-- BARRIER_ARRIVE of a cluster whose share is done adds it once. BARRIER_CLOSE with every cluster arrived and done,
outside a barred scope, ends the operation and completes its record; an array operation that has delivered each
group as it committed and a vector operation that wrote at its commits write nothing more, and CMP_COUNT over one
range writes its count. An operation asked to stop is parked or aborted at the close. PARK of a warm operation that
has run its minimum asks it to stop; PARKED_RESUME brings it back. GANG_TIMEOUT ends every record of the partition.
(03_array_fabric.md, 04_operations_and_steps.md) -/
def Obligations.GangBarrier : Prop :=
  ∀ (p : Fin 64) (g : GangOp) (s : State),
    (s.gangOf p.val = some g →
      let l := g.lrec
      let Ends (t : State) (st : FlightSt) : Prop := ∀ f, s.flight? l.ref = some f → f.st.ended = false →
        ∃ h, t.flight? l.ref = some h ∧ h.st = st
      (∀ c : Fin 64, s.clusterOwner c.val = some p → c.val ∉ g.arrived → s.clusterDone g c.val = true →
        Completes (.barrierArrive c) s fun t => t = s.setGang p.val (some { g with
          arrived := g.arrived ++ [c.val], firstArrival := some (g.firstArrival.getD s.sys.time) })) ∧
      (∀ cycles : Nat, s.allArrived p.val g = true →
        ((∀ c, c ∈ s.clustersOf p.val → s.clusterDone g c = true) → s.gangBarred l l.atClose = none →
          Completes (.barrierClose p cycles) s fun t => t.gangOf p.val = none ∧ Ends t .completed ∧ t.cel = s.cel ∧
            (l.isArray = true ∧ l.kS = 1 ∧ l.elementwise = true ∨
              (0x20 ≤ l.opcode.toNat ∧ l.opcode.toNat < 0x30 ∧ l.vAtClose = false) → t.pad = s.pad) ∧
            (l.opcode = 0x30 → l.cPerRow = false →
              PadHolds t (l.addr 2) (leBytes 8 ((g.cmps.map fun e => e.2.counts.get 0 0).foldl (· + ·) 0)) ∧
              PadKeepsBut s t (l.addr 2) 8)) ∧
        (∀ c, c ∈ s.clustersOf p.val → s.clusterDone g c = false →
          (g.stop = some .park → Completes (.barrierClose p cycles) s fun t => t.gangOf p.val = none ∧
            t.parkedOf p.val = some { g with arrived := [], firstArrival := none, stop := none } ∧ t.pad = s.pad ∧
            t.fe = s.fe) ∧
          (g.stop = some .abort → Completes (.barrierClose p cycles) s fun t => t.gangOf p.val = none ∧
            Ends t .aborted ∧ t.pad = s.pad))) ∧
      (∀ t0 : BitVec 64, g.firstArrival = some t0 → t0.toNat + s.wdogNs ≤ s.sys.time.toNat →
        Completes (.gangTimeout p) s fun t => (∀ f, f ∈ t.fe.flights → f.lrec.part = p.val → f.st.ended = true) ∧
          (t.partOf p.val).unitFault = true ∧ (NoFaultArea s → KeepsBytes s t)) ∧
      ((s.pr .part p.val 0x3C0).getLsbD 0 = true → g.hot = false → g.stop = none → s.hotReady p.val = true →
        ((s.pr .part p.val 0x3C0).extractLsb' 16 8).toNat * 1000 ≤ (s.sys.time - g.since).toNat →
        Completes (.park p) s fun t => t = s.setGang p.val (some { g with stop := some .park, parkAt := s.sys.time }))) ∧
    (s.parkedOf p.val = some g → s.gangOf p.val = none → s.hotReady p.val = false →
      ∀ cycles : Nat, Completes (.parkedResume p cycles) s fun t => t.parkedOf p.val = none ∧
        (∃ g', t.gangOf p.val = some g' ∧ g'.lrec = g.lrec ∧ g'.since = s.sys.time ∧ g'.results = g.results ∧
          g'.vecs = g.vecs ∧ g'.cmps = g.cmps ∧ g'.hot = g.hot) ∧ t = { s with gang := t.gang, bus := t.bus })

/-- STEP_GO adds to STEPS_LEFT and saturates. STEP_BEGIN in READY with steps left and HALT 0 starts a step with nothing
admitted and the credits at the queues’ depths. UPDATE_INVOKE, with every backward done and the ledger empty, enters
UPDATING and puts the update program’s entry on queue 0. CRIT_ENTER with the earlier commands done enters CRITICAL,
or skips, and CRIT_EXIT leaves it. STEP_BOUNDARY counts the step. JOB_FAULT ends all stage activity: FAULTED, an
empty ledger, stage counters 0; FAULT_CLR makes FAULTED READY. (09_stage_engine.md) -/
def Obligations.StepLifecycle : Prop :=
  (∀ (f : Fn) (v : Word) (x : Target) (s : State),
    (s.openAt f ⟨.stg, 0⟩ 0x6C v = .ok x → Completes (.stepGo f v) s fun t =>
      t = { s with stg := { s.stg with
        stepsLeft := BitVec.ofNat 16 (min (s.stg.stepsLeft.toNat + v.toNat % 65536) 65535) } }) ∧
    (s.openAt f ⟨.stg, 0⟩ 0x08 v = .ok x →
      (v.getLsbD 0 = true → s.stg.st = 5 → Completes (.stgFaultClr f v) s fun t =>
        t.stg = { s.stg with st := 1 } ∧ t.ckpt = { s.ckpt with afterRestore := true, uncommitted := false } ∧
        t.stgReg 0x08 = v &&& 2 ∧ KeepsRegsBut [rk .stg 0 0x08] s t ∧
        t = { s with stg := t.stg, ckpt := t.ckpt, bus := t.bus }) ∧
      (v.getLsbD 0 = true → s.stg.st ≠ 5 → Completes (.stgFaultClr f v) s fun t => t = s.rejectState f x) ∧
      (v.getLsbD 0 = false → Completes (.stgFaultClr f v) s fun t =>
        t.stgReg 0x08 = v &&& 2 ∧ KeepsRegsBut [rk .stg 0 0x08] s t ∧ t = { s with bus := t.bus }))) ∧
  (∀ s : State,
    (s.stg.st = 1 → s.stg.stepsLeft ≠ 0 → (s.stgReg 0x08).getLsbD 1 = false → Completes .stepBegin s fun t =>
      t.stg.st = 2 ∧ t.stg.admitted = 0 ∧ t.stg.fwd = 0 ∧ t.stg.bwd = 0 ∧ t.stg.bwdDone = 0 ∧
        t.stg.ledger = s.stg.ledger ∧
      t.stg.credits.get 0 0 = s.depth (.stg 0) ∧ t.stg.credits.get 0 1 = s.depth (.stg 1) ∧
        t = { s with stg := t.stg }) ∧
    (s.stg.st ≠ 1 ∨ s.stg.stepsLeft = 0 ∨ (s.stgReg 0x08).getLsbD 1 = true → Completes .stepBegin s fun t => t = s) ∧
    (∀ u : State, s.stg.st = 2 → s.stg.pendingFault = none → s.stg.inv = none → s.stg.bwdDone = s.seqLen →
      s.ledgerUsed = 0 → s.stg.send = [] → (s.queueOf 0 0).st = .ready →
      s.handleWrite 0 ((s.qReg 0 0 0x04).toNat % 4096) s.invokeAt
        (s.invokeEntry 3 (s.stgField 0x5C 0 12) 0 (s.ledger 0)) = some u →
      Completes .updateInvoke s fun t => t.stg.st = 3 ∧ t.stg.inv = some ⟨3, 0, (s.queueOf 0 0).tail⟩ ∧
        t.coll = { s.coll with lastSkip := false } ∧ t.pad = u.pad ∧ t.cel = u.cel ∧
        t.queueOf 0 0 = { s.queueOf 0 0 with tail := ptrInc (s.ringLog2 0 0) (s.queueOf 0 0).tail }) ∧
    (∀ i : StgInv, s.stg.inv = some i → i.prog = 3 → s.invEnded = true → (s.stg.st = 3 ∨ s.stg.st = 4) →
      s.stg.pendingFault = none → (s.commitOf ⟨.stg, 0⟩).waiting = false →
      Completes .stepBoundary s fun t => t.stepNo = s.stepNo + 1 ∧ t.stg.inv = none ∧
        t.stg.stepsLeft = s.stg.stepsLeft - 1 ∧
        t.stg.st = (if s.stg.stepsLeft - 1 ≠ 0 ∧ (s.stgReg 0x08).getLsbD 1 = false then 2 else 1) ∧
        t.pad = s.pad ∧ t.cel.mem = s.cel.mem) ∧
    (∀ j : JobFault, s.stg.pendingFault = some j → s.stg.st ≠ 0 → Completes .jobFault s fun t =>
      t.stg.st = 5 ∧ t.stg.fault = j ∧ t.stg.pendingFault = none ∧ t.stg.ledger = [] ∧ t.stg.cstash = [] ∧
      t.stg.capture = none ∧ t.stg.send = [] ∧ t.stg.spill = none ∧ t.stg.prefetch = [] ∧ t.stg.inv = none ∧
      ∀ i, i < 64 → t.countOf 0 (192 + i) = 0)) ∧
  (∀ (r : RecRef) (f : Flight) (s : State), s.flight? r = some f → f.st = .queued → f.lrec.pwEn = false →
    let Standing (t : State) (st : FlightSt) : Prop := ∃ g, t.flight? r = some g ∧ g.st = st
    (f.lrec.opcode = 0x61 →
      let go := s.stg.st = 3 ∧ s.earlierDone f.lrec = true ∧ s.ckpt.st ≠ 1 ∧ s.ckpt.uncommitted = false
      (go → s.coll.lastSkip = false → Completes (.critEnter r) s fun t =>
        Standing t .completed ∧ t = { s with fe := t.fe, stg := { s.stg with st := 4 } }) ∧
      (go → s.coll.lastSkip = true → Completes (.critEnter r) s fun t =>
        Standing t .completed ∧ t = { s with fe := t.fe, stg := { s.stg with skipping := true } }) ∧
      (¬ go → Completes (.critEnter r) s fun t => Standing t .queued ∧ t = { s with fe := t.fe })) ∧
    (f.lrec.opcode = 0x62 →
      (s.earlierDone f.lrec = true → s.writesLanded = true → Completes (.critExit r) s fun t => Standing t .completed ∧
        t = { s with fe := t.fe, stg := { s.stg with st := if s.stg.st = 4 then 3 else s.stg.st } }) ∧
      (s.earlierDone f.lrec = false ∨ s.writesLanded = false → Completes (.critExit r) s fun t =>
        Standing t .queued ∧ t = { s with fe := t.fe })))

/-- ADMISSION gives the next item the next ledger entry and the lowest free slot, or throttles. CAPTURE_ITEM of FWD_IN
stores the words taken in the slot, word by word. STAGE_DISPATCH puts the next forward’s or backward’s entry on
queue 0. INVOCATION_DONE moves a forward’s entry to READY_B, STASHED or SENDING and frees that of a backward with
nothing to send. SEND_GRANULE sends the covered words within the credits, and the memories stay. SPILL_START and
SPILL_DONE move the earliest stash to the cellar and free its entry; PREFETCH_START and PREFETCH_DONE bring a stash
of the window back. (09_stage_engine.md) -/
def Obligations.StashFlow : Prop :=
  ∀ s : State, s.stg.st = 2 → s.stg.pendingFault = none →
    let Ring (bs : List Byte) (u : State) : Prop := (s.queueOf 0 0).st = .ready ∧
      s.handleWrite 0 ((s.qReg 0 0 0x04).toNat % 4096) s.invokeAt bs = some u
    let Invoked (prog : BitVec 2) (e : Nat) (u t : State) : Prop := t.stg.inv = some ⟨prog, e, (s.queueOf 0 0).tail⟩ ∧
      t.queueOf 0 0 = { s.queueOf 0 0 with tail := ptrInc (s.ringLog2 0 0) (s.queueOf 0 0).tail } ∧
      t.pad = u.pad ∧ t.cel = u.cel
    let Others (e : Nat) (t : State) : Prop := ∀ x, x ≠ e → t.ledger x = s.ledger x
    (∀ (j : Nat) (js : List Nat), s.itemWaits = true → s.freeSlots = j :: js → s.canAlloc = true →
      s.stg.admitted + 1 - s.stg.bwd ≤ s.stgW →
      (s.stashesHeld + 2 ≤ s.sramSlots + s.cellarSlots → Completes .admission s fun t =>
        t.ledger s.stg.alloc = { LedgerEnt.init with
          tag := (s.stgTags 0).headD 0, st := 1, slot := BitVec.ofNat 8 j, step := s.stepNo } ∧ Others s.stg.alloc t ∧
        t.stg.admitted = s.stg.admitted + 1 ∧ t.stg.capture = some (s.stg.alloc, 0) ∧ t.countOf 0 (192 + j) = 0 ∧
        t = { s with stg := t.stg, syn := t.syn }) ∧
      (s.sramSlots + s.cellarSlots < s.stashesHeld + 2 → Completes .admission s fun t =>
        t.stg = { s.stg with throttled := true })) ∧
    (∀ e w : Nat, s.stg.capture = some (e, w) →
      let ws := (s.takeWords (.stg 0) 32768).2
      let at_ (i : Nat) : Nat := s.slotWord (s.ledger e).slot.toNat (w + i)
      (∀ x, x ∈ ws → x.data.length = 4096) → w + ws.length ≤ 65536 →
      (∀ i, i < ws.length → s.padOwned 0 (at_ i) 4096 = true ∧ s.scopeHit 0 (at_ i) 4096 = false) →
      Completes (.captureItem 0) s fun t =>
        (∀ i x, ws[i]? = some x → PadHolds t (at_ i) x.data) ∧
        (∀ a, (∀ i, i < ws.length → ¬ (at_ i ≤ a ∧ a < at_ i + 4096)) → t.padByte a = s.padByte a) ∧
        (t.ledger e).inWords = BitVec.ofNat 32 (w + ws.length) ∧ Others e t ∧ t.cel = s.cel ∧
        t.stg.capture = (if (ws.getLast?.map (·.eoi)).getD false = true then none else some (e, w + ws.length))) ∧
    (∀ (e : Nat) (u : State), s.stg.inv = none → (s.stgSched = 2 ∧ s.stg.fwd < s.seqLen ∧ s.forwardReady = some e ∨
        ¬ (s.stgSched = 2 ∧ s.stg.fwd < s.seqLen) ∧ s.backwardReady = none ∧ s.noteLate.forwardReady = some e) →
      Ring (s.invokeEntry 0 (s.stgField 0x58 16 12) e (s.ledger e)) u →
      Completes .stageDispatch s fun t => (t.ledger e).st = 2 ∧ (t.ledger e).tFwd = s.sys.time ∧
        t.stg.fwd = s.stg.fwd + 1 ∧ t.stg.bwd = s.stg.bwd ∧ Invoked 0 e u t) ∧
    (∀ (e : Nat) (u : State), s.stg.inv = none → (s.stgSched ≠ 2 ∨ s.seqLen ≤ s.stg.fwd) → s.backwardReady = some e →
      let gb := if s.lastLogical (s.bwdSeq s.stg.bwd).2 = true then none else s.gbufFor s.stg.bwd
      let le := { s.ledger e with gbuf := (gb.map (BitVec.ofNat 8 ·)).getD 0xFF }
      let rec_ := (s.stgReg 0x5C).getLsbD 28
      Ring (s.invokeEntry (if rec_ then 1 else 2) (if rec_ then s.stgField 0x5C 16 12
        else s.stgField 0x58 0 12) e le) u →
      Completes .stageDispatch s fun t => (t.ledger e).st = (if rec_ then 8 else 9) ∧ (t.ledger e).gbuf = le.gbuf ∧
        t.stg.bwd = s.stg.bwd + 1 ∧ t.stg.fwd = s.stg.fwd ∧ Invoked (if rec_ then 1 else 2) e u t) ∧
    (∀ i : StgInv, s.stg.inv = some i → s.invEnded = true →
      let x := s.ledger i.entry
      let mb := tagMb x.tag
      let k := tagChunk x.tag
      (i.prog = 0 → s.lastLogical k = true → Completes .invocationDone s fun t => t.stg.inv = none ∧
        t.ledger i.entry = { x with st := if s.inWindow mb k = true then 7 else 4 } ∧ Others i.entry t ∧
        t.pr .stg 0 0x80 = satAdd32 (s.pr .stg 0 0x80) 1 ∧ t = { s with stg := t.stg, bus := t.bus }) ∧
      (∀ y : StgSend, i.prog = 0 → s.lastLogical k = false → s.stg.send.get none 0 = some y → y.sent < s.itemWords →
        Completes .invocationDone s fun t => t.stg.inv = none ∧ t.ledger i.entry = { x with st := 3 } ∧
          Others i.entry t ∧
          t.stg.send.get none 0 = some { y with complete := true } ∧ t = { s with stg := t.stg, bus := t.bus }) ∧
      (i.prog = 2 → s.firstLogical k = true → Completes .invocationDone s fun t => t.stg.inv = none ∧
        t.ledger i.entry = LedgerEnt.init ∧ Others i.entry t ∧ t.stg.bwdDone = s.stg.bwdDone + 1 ∧
        t.pr .stg 0 0x84 = satAdd32 (s.pr .stg 0 0x84) 1 ∧ t = { s with stg := t.stg, bus := t.bus })) ∧
    (∀ (d : Fin 2) (x : StgSend), s.stg.send.get none d.val = some x →
      let dst : BitVec 14 := if d.val = 0 then (s.stgReg 0x60).extractLsb' 0 14 else (s.stgReg 0x60).extractLsb' 16 14
      let n := min ((if x.complete then s.itemWords
        else min s.itemWords ((s.countOf 0 (254 + d.val)).toNat * s.granule)) - x.sent) (s.stg.credits.get 0 d.val)
      (s.stgReg 0x60).getLsbD (if d.val = 0 then 15 else 31) = true → s.reachable dst = true →
      (x.complete = false ∨ x.sent + n < s.itemWords) → Completes (.sendGranule d) s fun t =>
        t.stg.credits.get 0 d.val = s.stg.credits.get 0 d.val - n ∧
        t.stg.send.get none d.val = some { x with offered := x.sent + n, sent := x.sent + n } ∧
        (t.ledger x.entry).sentWords = BitVec.ofNat 32 (x.sent + n) ∧ Others x.entry t ∧ t.pad = s.pad ∧
          t.cel = s.cel) ∧
    (∀ e j : Nat, s.victim = some e → (List.range s.cellarSlots).find? (fun j => !(s.cstash j).getLsbD 31) = some j →
      s.freeSlots.length < s.stgSpare → s.stg.spill = none → Completes .spillStart s fun t =>
        t.ledger e = { s.ledger e with st := 5, cslot := BitVec.ofNat 16 j, moveWords := 0 } ∧ Others e t ∧
        t.stg.spill = some ⟨e, j, 0⟩ ∧ t = { s with stg := t.stg }) ∧
    (∀ m : StgMove, s.stg.spill = some m → s.viewWritable 0 (s.cslotAddr m.cslot) s.itemBytes = none →
      s.scopeHit 0 (0x4000000000 + s.cslotAddr m.cslot) s.itemBytes = false →
      let x := s.ledger m.entry
      Completes .spillDone s fun t => t.ledger m.entry = LedgerEnt.init ∧ Others m.entry t ∧ t.stg.spill = none ∧
        (t.cstash m.cslot).getLsbD 31 = true ∧ ((t.cstash m.cslot).extractLsb' 28 2).toNat = tagChunk x.tag ∧
        (t.cstash m.cslot).toNat % 4096 = tagMb x.tag ∧ t.pad = s.pad ∧
        t.cel = (s.viewWrite 0 (s.cslotAddr m.cslot)
          ((List.range s.itemWords).flatMap fun w => s.padRead (s.slotWord x.slot.toNat w) 4096)).cel) ∧
    (∀ (n c j : Nat) (js : List Nat), s.nextPrefetch = some (n, c) → s.freeSlots = j :: js → s.canAlloc = true →
      Completes .prefetchStart s fun t =>
        (t.ledger s.stg.alloc).tag = stageTag (s.bwdSeq n).1 (s.bwdSeq n).2 false ∧ (t.ledger s.stg.alloc).st = 6 ∧
        (t.ledger s.stg.alloc).slot = BitVec.ofNat 8 j ∧ (t.ledger s.stg.alloc).cslot = BitVec.ofNat 16 c ∧
        Others s.stg.alloc t ∧ t.stg.prefetch = s.stg.prefetch ++ [⟨s.stg.alloc, c, 0⟩] ∧ t.countOf 0 (192 + j) = 0 ∧
        t = { s with stg := t.stg, syn := t.syn }) ∧
    (∀ (m : StgMove) (ms : List StgMove), s.stg.prefetch = m :: ms → s.itemWords ≤ m.words →
      Completes .prefetchDone s fun t =>
        t.ledger m.entry = { s.ledger m.entry with
          st := if (s.ledger m.entry).st = 6 then 7 else (s.ledger m.entry).st, cslot := 0xFFFF } ∧ Others m.entry t ∧
        t.cstash m.cslot = 0 ∧ t.stg.prefetch = ms ∧ t.pr .stg 0 0x8C = satAdd32 (s.pr .stg 0 0x8C) 1 ∧
        t = { s with stg := t.stg, bus := t.bus })

/-- A link that is enabled and due begins PHY_TRAIN with no peer known; PHY_TRAIN_DONE, FEC_LOCK and a TRAIN of the
epoch in force take it to FEC, FLIT_SYNC (its TRAIN names direction and place) and QUINCE. IDENT keeps the peer’s
identity, and IDENT_SEND_TIMER sends this link’s. QUINCE_JUDGE makes a match ACTIVE at an epoch change, else
STANDBY; a missing, own or unexpected identity quarantines. LINK_LOCK_LOSS downs the link, and a port with members
left resynchronises; RESYNC_REPLY resumes it and RESYNC_TIMEOUT ends it, with no packet cut short and no collective
packet lost. (10_links_and_topology.md) -/
def Obligations.LinkTraining : Prop :=
  let Whole (s : State) (p : Nat) : Prop :=
    ∀ vc f, vc < 8 → ((s.port p).rx.get [] vc).getLast? = some f → f.eop = true
  let NoColl (s : State) (p : Nat) : Prop :=
    (∀ f, f ∈ s.unackedFlits p → pktKind f.pkt ≠ 7) ∧ ∀ o, o ∈ (s.port p).txq → pktKind o.hdr ≠ 7
  (∀ (l : Fin 16) (s : State),
    let x := s.link l.val
    let Others (t : State) : Prop := ∀ m, m ≠ l.val → t.link m = s.link m
    let Trains (c : Instr) : Prop := Completes c s fun t => (t.link l.val).st = 1 ∧ (t.link l.val).since = s.sys.time ∧
      (t.link l.val).ident = none ∧ Others t ∧ t = { s with lk := t.lk }
    let Says (t : State) (msg : List Byte) : Prop :=
      ∃ f, t.lk.out = s.lk.out ++ [(l, f)] ∧ f.body.take msg.length = msg
    (s.linkEnabled l.val = true → x.st = 0 ∨ (x.st = 7 ∧ x.epochTrain = true) ∨ s.autoDue l.val = true →
      Trains (.linkTrainStart l)) ∧
    (s.linkEnabled l.val = true → s.autoDue l.val = true → Trains (.downRetrain l)) ∧
    (s.linkEnabled l.val = false ∨ s.autoDue l.val = false → Completes (.downRetrain l) s fun t => t = s) ∧
    (∀ (f : Fn) (v : Word) (y : Target), s.openAt f ⟨.lnk, l.val⟩ 0x94 v = .ok y → v.getLsbD 0 = true →
      ((x.st = 6 ∨ x.st = 7) ∧ s.linkEnabled l.val = true → Trains (.lnkRetrain f l v)) ∧
      (¬ ((x.st = 6 ∨ x.st = 7) ∧ s.linkEnabled l.val = true) → Completes (.lnkRetrain f l v) s fun t =>
        t = s.rejectState f y)) ∧
    (x.st = 1 → Completes (.phyTrainDone l) s fun t => t.link l.val = { x with st := 2, since := s.sys.time } ∧
      Others t ∧ t = { s with lk := t.lk }) ∧
    (∀ p, x.st = 2 → s.lportOf l.val = some p → Completes (.fecLock l) s fun t => (t.link l.val).st = 3 ∧ Others t ∧
      Says t [2, BitVec.ofNat 8 (s.dirOf p), BitVec.ofNat 8 (s.membersOf p).length,
        BitVec.ofNat 8 ((s.membersOf p).takeWhile (· ≠ l.val)).length] ∧ t = { s with lk := t.lk }) ∧
    (∀ e : BitVec 8, (x.st = 3 → e = s.epoch → Completes (.train l e) s fun t => t.link l.val = { x with
        st := 4, since := s.sys.time, quinceAt := s.sys.time, ident := none, identSent := none } ∧ Others t ∧
        t = { s with lk := t.lk }) ∧
      (x.st ≠ 3 ∨ e ≠ s.epoch → Completes (.train l e) s fun t => t = s)) ∧
    (x.st = 4 → x.identSent = none → x.ident = none → Completes (.identSendTimer l) s fun t =>
      (t.link l.val).identSent = some s.sys.time ∧ Others t ∧ Says t (s.identBytes l.val) ∧ t = { s with lk := t.lk }) ∧
    (∀ (serial : BitVec 64) (phys : BitVec 14) (port : BitVec 4) (logical : BitVec 14) (dir : BitVec 3),
      x.st = 4 ∨ x.st = 5 ∨ x.st = 7 ∨ x.st = 8 → Completes (.ident l serial phys port logical dir) s fun t =>
        (t.link l.val).ident = some ⟨serial, phys, port, logical, dir, s.epoch, s.sys.time⟩ ∧
        (∀ m, (t.link m).st = (s.link m).st) ∧ t = { s with lk := t.lk }) ∧
    (∀ v, v = s.verdictOf l.val →
      (s.identNow l.val = none → v.1 = 1) ∧
      (∀ i, s.identNow l.val = some i → (i.serial = s.fuse.serial → v.1 = 2) ∧ (i.serial ≠ s.fuse.serial →
        ((s.pr .lnk l.val 0x58).getLsbD 31 = false → v.1 = 3) ∧ (s.expects l.val i = true → v.1 = 0))) ∧
      (x.st = 4 → 1000000 ≤ (s.sys.time - x.quinceAt).toNat ∨ s.identsHeld = true →
        (v.1 ≠ 0 → Completes (.quinceJudge l) s fun t => (t.link l.val).st = 7 ∧ (t.link l.val).result = v.1 ∧
          (t.link l.val).other = v.2 ∧ (t.pr .lnk l.val 0x10).getLsbD 1 = true ∧ Others t) ∧
        (v.1 = 0 → x.epochTrain = false → Completes (.quinceJudge l) s fun t => (t.link l.val).st = 8 ∧ Others t ∧
          t = { s with lk := t.lk }) ∧
        (v.1 = 0 → x.epochTrain = true → Completes (.quinceJudge l) s fun t => (t.link l.val).st = 5 ∧
          (t.pr .lnk l.val 0x10).getLsbD 0 = true))) ∧
    (x.st = 3 ∨ x.st = 4 ∨ x.st = 8 → Completes (.linkLockLoss l) s fun t => (t.link l.val).st = 6 ∧
      (t.link l.val).ident = none ∧ Others t ∧ t.pr .lnk l.val 0x90 = satAdd32 (s.pr .lnk l.val 0x90) 1 ∧
      t.lk.port = s.lk.port) ∧
    (∀ p, s.lportOf l.val = some p → x.st = 5 → (s.port p).st = 1 → (∃ m, m ∈ s.liveMembers p ∧ m ≠ l.val) →
      Completes (.linkLockLoss l) s fun t => (t.link l.val).st = 6 ∧ (t.port p).st = 2 ∧
        (t.port p).resyncAt = s.sys.time ∧
        ∀ m, m ∈ s.liveMembers p → m ≠ l.val → ∃ f, (Fin.ofNat 16 m, f) ∈ t.lk.out ∧ f.body.take 2 = [4, 0]) ∧
    (∀ p, s.lportOf l.val = some p → x.st = 5 → Whole s p → Completes (.resyncRequest l) s fun t =>
      (t.port p).delivered = none ∧ ∃ f, t.lk.out = s.lk.out ++ [(l, f)] ∧
        f.body.take 5 = [4, 1] ++ leBytes 2 ((s.port p).delivered.getD 0).toNat ++
          [if (s.port p).delivered.isSome then 0 else 1]) ∧
    (∀ (p : Nat) (last : Option (BitVec 12)), s.lportOf l.val = some p →
      ((s.port p).st = 2 → NoColl s p → Completes (.resyncReply l last) s fun t => (t.port p).st = 1) ∧
      ((s.port p).st ≠ 2 → Completes (.resyncReply l last) s fun t => t = s))) ∧
  (∀ (p : Fin 6) (s : State), (s.port p.val).st = 2 → 10000 ≤ (s.sys.time - (s.port p.val).resyncAt).toNat →
    Whole s p.val → NoColl s p.val → Completes (.resyncTimeout p) s fun t => (t.port p.val).st = 0)

/-- FLIT_RECEIVE of the next DATA flit of the epoch in force on an ACTIVE member stores it at the end of its virtual
channel’s sub-queue; a bad flit is counted and answered with one NAK that names the last good SEQ; a link out of
FLIT_SYNC takes nothing. NAK_RECEIVE resends the unacknowledged flits after its SEQ, and REPLAY_TIMEOUT all of them,
bodies unchanged and in order. A flood is remembered and passed on; a repeat does nothing; a job-fault flood of the
same step raises cause 6, and a reset flood starts a warm reset where RESET_EN allows it. (10_links_and_topology.md) -/
def Obligations.FlitsAndFloods : Prop :=
  (∀ (l : Fin 16) (s : State),
    let x := s.link l.val
    let Resends (c : Instr) (fs : List TxFlit) : Prop := Completes c s fun t =>
      (t.lk.out.drop s.lk.out.length).map (fun o => (o.1, o.2.body)) = fs.map (fun f => (l, f.flit.body)) ∧
      (t.link l.val).buf = x.buf ∧ (∃ r, (t.link l.val).replay = some r ∧ fs.head?.map (·.seq) = some r.first ∧
        fs.getLast?.map (·.seq) = some r.last) ∧ t.pr .lnk l.val 0x80 = satAdd32 (s.pr .lnk l.val 0x80) 1
    (∀ (f : Flit) (corr : Nat) (bad : Bool),
      (x.st = 0 ∨ x.st = 1 ∨ x.st = 2 ∨ x.st = 6 → Completes (.flitReceive l f corr bad) s fun t => t = s) ∧
      (x.st = 5 → x.discard = false → bad = true ∨ f.crc ≠ flitCrc f.header f.body ∨ flitLegal f = false →
        Completes (.flitReceive l f corr bad) s fun t => (t.link l.val).discard = true ∧
          t.pr .lnk l.val 0x7C = satAdd32 (s.pr .lnk l.val 0x7C) 1 ∧
          ∃ g, t.lk.out = s.lk.out ++ [(l, g)] ∧ g.body.take 4 = [1, 0] ++ leBytes 2 x.lastGood.toNat) ∧
      (∀ p, x.st = 5 → bad = false → f.crc = flitCrc f.header f.body → flitLegal f = true → s.lportOf l.val = some p →
        hdrKind f.header = 1 → hdrEpoch f.header = s.epoch → (x.discard = false ∨ hdrRpl f.header = true) →
        (∀ m, m ∈ s.membersOf p → (s.link m).held = []) → hdrSeq f.header = (s.port p).delivered.getD 0xFFF + 1 →
        Completes (.flitReceive l f corr bad) s fun t => (t.port p).delivered = some (hdrSeq f.header) ∧
          (t.port p).rx.get [] (hdrVc f.header).toNat = (s.port p).rx.get [] (hdrVc f.header).toNat ++
            [⟨hdrSeq f.header, hdrVc f.header, hdrSop f.header, hdrEop f.header, f.body, l, true, false⟩] ∧
          (∀ vc, vc ≠ (hdrVc f.header).toNat → (t.port p).rx.get [] vc = (s.port p).rx.get [] vc) ∧
          t.pad = s.pad ∧ t.cel = s.cel)) ∧
    (∀ seq : BitVec 12,
      let fs := x.buf.filter fun f => seqAfter f.seq seq
      x.st = 5 → x.replay = none → fs ≠ [] → (∀ f, f ∈ fs → f.flit.body.length = 244) →
        Resends (.nakReceive l seq) fs) ∧
    (∀ seq : BitVec 12, x.st ≠ 5 → Completes (.nakReceive l seq) s fun t => t = s) ∧
    (x.st = 5 → x.replay = none → x.buf ≠ [] → (∀ f, f ∈ x.buf → f.flit.body.length = 244) →
      s.replayTo l.val ≤ (s.sys.time - x.ackAt).toNat → Resends (.replayTimeout l) x.buf) ∧
    ((s.sys.time - x.ackAt).toNat < s.replayTo l.val → Completes (.replayTimeout l) s fun t => t = s)) ∧
  (∀ (l : Fin 16) (origin : BitVec 14) (id : BitVec 16) (step : BitVec 64) (s : State),
    let reset := (s.pr .route 0 0x5C).getLsbD 31
    (s.floodSeen origin id = true → Completes (.floodReset l origin id step) s (fun t => t = s) ∧
      Completes (.floodJobFault l origin id step) s fun t => t = s) ∧
    (s.floodSeen origin id = false →
      (reset = false ∨ s.warmable = false → Completes (.floodReset l origin id step) s fun t =>
        t.floodSeen origin id = true ∧ t = { s with lk := t.lk }) ∧
      (reset = true → s.warmable = true → s.sys.warm = none → Completes (.floodReset l origin id step) s fun t =>
        t.sys.warm = some ⟨.flood, false⟩) ∧
      (s.sys.stageMode = true → step = s.stepNo → s.stg.st ≠ 0 → s.stg.pendingFault = none →
        Completes (.floodJobFault l origin id step) s fun t => t.floodSeen origin id = true ∧
          t.stg = { s.stg with pendingFault := some ⟨6, 0xFFF, s.stg.st == 4, true⟩ } ∧
          t = { s with lk := t.lk, stg := t.stg }) ∧
      (s.sys.stageMode = false ∨ step ≠ s.stepNo → Completes (.floodJobFault l origin id step) s fun t =>
        t.floodSeen origin id = true ∧ t = { s with lk := t.lk })))

/-- For the packet at the head of a receive sub-queue: WRITE_PACKET and WRITE_INC_PACKET to settled, awake banks of a
partition that takes remote writes land exactly its data, the add first counted, and answer CMPL status 0; a
partition that takes none answers status 1 and stores nothing. ARRIVE_PACKET queues its add, or it is rejected.
CMPL_PACKET strikes its tag off, or faults the command with 0x001F. STAGE_PACKET opens an item that its arbiter
takes, CREDIT_PACKET adds stage credits, and TRANSIT_FORWARD queues the packet on its next port.
(09_stage_engine.md, 10_links_and_topology.md) -/
def Obligations.PacketsLand : Prop :=
  ∀ (p : Fin 7) (vc : BitVec 3) (k : Packet) (s : State),
    let h := k.hdr
    let q := (pktPart h).toNat
    let a := (pktAddr h).toNat
    let n := k.data.length
    let pop := s.popPacket p.val vc k
    let open_ := (s.peerPart q).getLsbD 30
    let Room : Prop := 0 < n ∧ a + n ≤ 0x200000000 ∧ s.scopeHit q a n = false ∧
      ∀ i, i ≤ padBank (a + n - 1) - padBank a →
        s.bankGate ⟨.part (Fin.ofNat 64 q), none, 7, BitVec.ofNat 64 a⟩ (padBank a + i) = .ok
    let Lands (t w : State) : Prop := PadHolds w a k.data ∧ PadKeepsBut s w a n ∧ w.cel = s.cel ∧ w.lk = s.lk ∧
      t = (w.popPacket p.val vc k).sendCmpl h 0
    (s.openPacket p.val vc [1] = (s, some k) → ∀ refused : Fin 5,
      (open_ = false → Completes (.writePacket p vc refused) s fun t => t = pop.sendCmpl h 1) ∧
      (open_ = true → Room → refused.val < 4 → Completes (.writePacket p vc refused) s fun t =>
        ∃ w, Lands t w ∧ w.syn.count = s.syn.count)) ∧
    (s.openPacket p.val vc [2] = (s, some k) → ∀ refused : Fin 5,
      (open_ = false → Completes (.writeIncPacket p vc refused) s fun t => t = pop.sendCmpl h 1) ∧
      (∀ ctr, open_ = true → Room → refused.val < 4 → s.vid q (pktVid h).toNat = some (padCluster a, ctr) →
        s.bankLent (padBank a) = false → vmapRemote (s.vmapOf q (pktVid h).toNat) = true → s.frozen q = false →
        Completes (.writeIncPacket p vc refused) s fun t => ∃ w, Lands t w ∧
          w.countOf (padCluster a) ctr = s.countOf (padCluster a) ctr + (pktAmount h).zeroExtend 32)) ∧
    (s.openPacket p.val vc [3] = (s, some k) →
      (open_ = false → Completes (.arrivePacket p vc) s fun t => t = pop) ∧
      (∀ c ctr, open_ = true → s.vid q (pktVid h).toNat = some (c, ctr) →
        (vmapRemote (s.vmapOf q (pktVid h).toNat) = true → s.inputRoom c = true →
          Completes (.arrivePacket p vc) s fun t =>
          t = pop.sendSync c (.add q ctr ((pktAddr h).extractLsb' 0 16) none)) ∧
        (vmapRemote (s.vmapOf q (pktVid h).toNat) = false → s.sys.stageMode = false →
          Completes (.arrivePacket p vc) s fun t =>
          t = pop.rejectAdd q))) ∧
    (s.openPacket p.val vc [4] = (s, some k) →
      let tag := (pktAddr h).extractLsb' 0 40
      (pop.awaiting (pktSrc h) tag = none → Completes (.cmplPacket p vc) s fun t => t = pop) ∧
      (∀ m c f, pop.awaiting (pktSrc h) tag = some (m, c) → s.flight? c.ref = some f → f.st.ended = false →
        ((pktAddr h).extractLsb' 40 8 = 0 → c.awaits.erase tag ≠ [] → Completes (.cmplPacket p vc) s fun t =>
          t = pop.setChan m (some { c with awaits := c.awaits.erase tag })) ∧
        ((pktAddr h).extractLsb' 40 8 ≠ 0 → Completes (.cmplPacket p vc) s fun t =>
          ∃ g x, t.flight? c.ref = some g ∧ g.st = .faulted x ∧ x.cause = 0x001F))) ∧
    (s.openPacket p.val vc [5] = (s, some k) → s.stg.st = 2 → s.stg.pendingFault = none →
      let tag : BitVec 16 := (pktAddr h).extractLsb' 0 16
      let d := if tagGrad tag then 1 else 0
      s.stg.asm.get none d = none → (pktAddr h).extractLsb' 16 32 = 0 → 0 < s.credits (.stg (Fin.ofNat 5 d)) →
        n < 4096 →
      n < s.itemBytes → (d = 1 ∨ s.arbitrate tag = .take) → Completes (.stagePacket p vc) s fun t =>
        t.stg.asm.get none d = some ⟨tag, n, k.data, false⟩ ∧ t.stgTags d = s.stgTags d ++ [tag] ∧ t.que = s.que ∧
        t.lk = pop.lk) ∧
    (s.openPacket p.val vc [6] = (s, some k) → s.stg.st = 2 → s.stg.pendingFault = none →
      let d := if (pktAddr h).getLsbD 16 then 1 else 0
      Completes (.creditPacket p vc) s fun t => t.stg.credits.get 0 d =
          s.stg.credits.get 0 d + ((pktAddr h).extractLsb' 0 16).toNat ∧
        (∀ e, e ≠ d → t.stg.credits.get 0 e = s.stg.credits.get 0 e) ∧ t = { pop with stg := t.stg }) ∧
    (∀ (o : Nat) (dl : Bool), s.openPacket p.val vc [] = (s, none) → s.headPacket p.val vc = some k →
      s.routeTo (pktDst h) (some (s.dirOf p.val / 2, vc.getLsbD 0)) = .out o dl →
      Completes (.transitForward p vc) s fun t =>
        t = pop.queuePacket o (BitVec.ofNat 3 (vcClass vc * 2 + dl.toNat)) h (k.flits.map (·.body)))

/-- A collective command on a busy context stays queued. On a free context of attempt 0 with no carry and no VERDICT, at
the tree root with every child done and the ranks in order: ALL_REDUCE writes its partial, converted to WIRE_FMT,
then to OUT_FMT; REDUCE_SCATTER its own shard; ALL_GATHER the gathered bytes; BROADCAST its input; SNAPSHOT, with
every marker in, its record; BARRIER nothing. The record completes and the context’s SEQ and count rise. Where
children are missing the command stands on its context and no memory changes. (02_number_formats.md,
11_collectives_and_training.md) -/
def Obligations.CollectiveResults : Prop :=
  ∀ (r : RecRef) (f : Flight) (s : State), s.flight? r = some f → f.st = .queued → f.lrec.pwEn = false →
    let l := f.lrec
    let n := l.cCtx
    let x := s.cctx n
    let t0 := s.ctxTree n
    let Standing (t : State) (st : FlightSt) : Prop := ∃ g, t.flight? r = some g ∧ g.st = st
    let Waits (c : Instr) : Prop := x.run.isSome = true → Completes c s fun t =>
      Standing t .queued ∧ t = { s with fe := { s.fe with flights := t.fe.flights } }
    let Held (c : Instr) : Prop := Completes c s fun t => Standing t .running ∧ t.pad = s.pad ∧ t.cel = s.cel ∧
      ∃ z, (t.cctx n).run = some z ∧ z.ref = r ∧ z.start = s.sys.time ∧ z.sentUp = false ∧ z.landed = false
    let Free : Prop := x.run = none ∧ x.attempt = false ∧ (l.opcode ≠ 0x70 ∨ l.cDeadline = 0 ∨ l.cDrop = true ∨
      l.has 2 = false) ∧
      (l.cVerdict = false ∨ l.cReduces = false) ∧ (s.commitOf ⟨.coll, 0⟩).waiting = false ∧
        (s.treeReg 1).getLsbD 31 = false
    let Done (c : Instr) (out : List Byte) : Prop := ∀ (o : ROpnd) (u : State), l.opnd 1 = some o →
      s.partWrite l.part o.kind o.addr.toNat out = some u → Completes c s fun t => Standing t .completed ∧
        t.pad = u.pad ∧ t.cel = u.cel ∧ (t.cctx n).seq = x.seq + 1 ∧ (t.cctx n).commits = x.commits + 1 ∧
        (t.cctx n).run = none ∧ t.fe.queues = s.fe.queues
    let kids := s.kidsDone n l.cDeadline false
    let ranks := s.ranksOk n (s.subtree n (some ⟨1, BitVec.ofNat 16 (s.ctxRank n), 1, false, 0, 0⟩))
    let wire (xs : List (BitVec 32)) : List Byte := narrow l.cWire l.cCvt xs
    (l.opcode = 0x70 → Waits (.allReduce r) ∧
      (Free → kids = false → Held (.allReduce r)) ∧
      (∀ xs, Free → kids = true → ranks = true → s.treeRoot t0 = true → s.collPartial n l = some xs →
        Done (.allReduce r) (narrow l.cOut 0 (widen l.cWire (wire xs)))) ∧
      (∀ xs, Free → kids = true → ranks = true → s.treeRoot t0 = false → x.refuse = false →
        s.collPartial n l = some xs →
        Completes (.allReduce r) s fun t => t.pad = s.pad ∧ t.cel = s.cel ∧
          ∃ z, (t.cctx n).run = some z ∧ z.ref = r ∧ z.sentUp = true)) ∧
    (l.opcode = 0x71 → Waits (.reduceScatter r) ∧
      (Free → kids = false → Held (.reduceScatter r)) ∧
      (∀ xs, Free → kids = true → ranks = true → s.treeRoot t0 = true → s.collPartial n l = some xs →
        let g := s.shardRange n l (s.ctxRank n) 1
        Done (.reduceScatter r) (narrow l.cOut 0 (widen l.cWire (((wire xs).drop g.1).take g.2))))) ∧
    (l.opcode = 0x72 → Waits (.allGather r) ∧
      (Free → kids = false → Held (.allGather r)) ∧
      (∀ bs, let len := l.cLen / s.ctxSize n
        Free → kids = true → ranks = true → s.treeRoot t0 = true → s.collRead l 0 0 len = some bs →
        Done (.allGather r) (s.collUnion n [(s.ctxRank n * len, bs)]).2)) ∧
    (l.opcode = 0x73 → Waits (.broadcast r) ∧
      (∀ bs, Free → s.treeRoot t0 = true → s.collRead l 0 0 l.cLen = some bs → Done (.broadcast r) bs) ∧
      (Free → s.treeRoot t0 = false → x.downEnd = none → Held (.broadcast r))) ∧
    (l.opcode = 0x74 → Waits (.barrier r) ∧
      (Free → x.barSent = false → (s.treeDown t0).all (fun p => x.barUps.contains p) = true → s.treeRoot t0 = true →
        Completes (.barrier r) s fun t => Standing t .completed ∧ t.pad = s.pad ∧ t.cel = s.cel ∧
          (t.cctx n).seq = x.seq + 1 ∧ (t.cctx n).commits = x.commits + 1 ∧ (t.cctx n).run = none) ∧
      (Free → (s.treeDown t0).all (fun p => x.barUps.contains p) = false → Held (.barrier r))) ∧
    (l.opcode = 0x75 → Waits (.snapshot r) ∧
      (∀ z, Free → x.snap = some z → (s.livePorts.all fun p => z.last.any fun e => e.1 == p) = true →
        Done (.snapshot r) z.bytes) ∧
      (Free → s.treeRoot t0 = false → x.snap = none → Held (.snapshot r)))

/-- For the packet that opens a phase: UP_DATA and UP_END join their child’s, DOWN_DATA and LATE_DATA the result,
DOWN_END, REFUSE, BARRIER_UP and VERDICT_UP are noted in the context. MARKER starts a snapshot with every port’s
next SEQ. BARRIER_DOWN completes the command. CLOSE_TIME refuses each child that has not arrived. LATE_LOST,
COLLECTIVE_TIMEOUT and TORN without a retry end the command with causes 0x0021, 0x0023 and 0x0022. LATE_REQ waits
for the commit. VERDICT_DOWN with the detector off applies the loss-scale rules. (11_collectives_and_training.md) -/
def Obligations.CollectivePackets : Prop :=
  (∀ (p : Fin 7) (vc : BitVec 3) (u : State) (n q : Nat) (k : Packet) (s : State),
    let x := u.cctx n
    let Opens (ph : BitVec 4) : Prop := s.openColl p.val vc ph seqNow = (u, some (n, q, k))
    let idle := u.ctxMember n = true ∧ x.run = none
    let Faults (c : Instr) (cause : BitVec 16) : Prop := ∀ z f, x.run = some z → u.flight? z.ref = some f →
      f.st.ended = false → u.stageFed z.ref.part.val z.ref.queue.val = false →
      Completes c s fun t => ∃ g i, t.flight? z.ref = some g ∧ g.st = .faulted i ∧ i.cause = cause
    (Opens 1 → ((u.kid n q).refused = true → Completes (.upData p vc) s fun t => t = u) ∧
      (idle → (u.kid n q).refused = false → Completes (.upData p vc) s fun t =>
        t = u.setKid n q { u.kid n q with pieces := (u.kid n q).pieces ++ [(collOff k, k.data)] })) ∧
    (Opens 2 → ((u.kid n q).refused = true → Completes (.upEnd p vc) s fun t => t = u) ∧
      (idle → (u.kid n q).refused = false → Completes (.upEnd p vc) s fun t =>
        t = u.setKid n q { u.kid n q with fin := some (upEndOf k.data) })) ∧
    (Opens 3 → Completes (.downData p vc) s fun t => t = u.setCctx n { x with down := x.down ++ [(collOff k, k.data)] }) ∧
    (Opens 4 → idle → Completes (.downEnd p vc) s fun t =>
      t = u.setCctx n { x with downEnd := some (BitVec.ofNat 32 (leAt k.data 0 4)) }) ∧
    (Opens 5 → idle → Completes (.refuse p vc) s fun t => t = u.setCctx n { x with refuse := true }) ∧
    (s.openColl p.val vc 6 seqLate = (u, some (n, q, k)) → u.ctxMember n = true →
      x.seq = (pktAddr k.hdr).extractLsb' 27 12 → (∀ w, x.last = some w → w.seq ≠ x.seq) →
        Completes (.lateReq p vc) s fun t =>
        t = u.setCctx n { x with lateReqs := x.lateReqs ++ [q] }) ∧
    (Opens 7 → idle → Completes (.lateData p vc) s fun t =>
      t = u.setCctx n { x with down := x.down ++ [(collOff k, k.data)] }) ∧
    (Opens 8 → u.ctxMember n = true → Faults (.lateLost p vc) 0x0021) ∧
    (Opens 9 → u.ctxOn n = true → x.attempt = true ∨ u.treeLive n = false → Faults (.torn p vc) 0x0022) ∧
    (Opens 0xA → (u.treeReg 1).getLsbD 31 = false ∨ x.vSent = true → Completes (.verdictUp p vc) s fun t =>
      let up : VerdictUp :=
        ⟨leAt k.data 0 1 % 2 == 1, BitVec.ofNat 32 (leAt k.data 4 4), BitVec.ofNat 64 (leAt k.data 8 8)⟩
      t = u.setCctx n { x with vUps := x.vUps.put none q (some up) }) ∧
    (Opens 0xC → idle → Completes (.barrierUp p vc) s fun t =>
      t = u.setCctx n { x with barUps := if x.barUps.contains q then x.barUps else x.barUps ++ [q] }) ∧
    (Opens 0xD → ∀ z f, x.run = some z → u.flight? z.ref = some f → f.st.ended = false →
      (u.commitOf ⟨.coll, 0⟩).waiting = false → Completes (.barrierDown p vc) s fun t =>
        (∃ g, t.flight? z.ref = some g ∧ g.st = .completed) ∧ (t.cctx n).seq = x.seq + 1 ∧ (t.cctx n).run = none ∧
        t.pad = u.pad ∧ t.cel = u.cel) ∧
    (Opens 0xE → idle → x.snap = none → Completes (.marker p vc) s fun t => ∃ z, (t.cctx n).snap = some z ∧
      z.time = u.sys.time ∧ z.next = u.livePorts.map (fun p => (p, (u.port p).next)) ∧
      z.last = [(p.val, (k.flits.head?.map (·.seq)).getD 0 - 1)] ∧ t.pad = u.pad ∧ t.cel = u.cel) ∧
    (Opens 0xB → x.run = none → (u.trainCfg).getLsbD 31 = false →
      let pip := leAt k.data 0 1 % 2 == 1
      let g := satAdd32 (u.pr .coll 0 0x64) 1
      let growth := u.trainCfg.toNat % 65536
      Completes (.verdictDown p vc) s fun t => t.coll.lastSkip = pip ∧ (∃ v, (t.cctx n).vDown = some v) ∧
        (pip = true → t.pr .coll 0 0x64 = 0 ∧ t.pr .coll 0 0xA0 = satAdd32 (u.pr .coll 0 0xA0) 1 ∧
          t.pr .coll 0 0x44 = if (u.trainCfg).getLsbD 29 then
            max32 (mul32 (u.pr .coll 0 0x44) (BitVec.ofNat 32 ((127 - ((u.trainCfg).extractLsb' 21 4).toNat) * 2 ^ 23)))
              (u.pr .coll 0 0x48) else u.pr .coll 0 0x44) ∧
        (pip = false → growth ≠ 0 ∧ growth ≤ g.toNat → t.pr .coll 0 0x64 = 0 ∧
          t.pr .coll 0 0x44 = min32 (mul32 (u.pr .coll 0 0x44) 0x40000000) (u.pr .coll 0 0x4C)) ∧
        (pip = false → growth = 0 ∨ g.toNat < growth → t.pr .coll 0 0x64 = g ∧
          t.pr .coll 0 0x44 = u.pr .coll 0 0x44))) ∧
  (∀ (n : Fin 16) (z : CollRun) (f : Flight) (s : State), (s.cctx n.val).run = some z → s.flight? z.ref = some f →
    (f.lrec.opcode = 0x70 → f.lrec.cDeadline ≠ 0 → z.fixed = false → z.sentUp = false → z.landed = false →
      z.ready.toNat + f.lrec.cDeadline * 1000 ≤ s.sys.time.toNat →
      (∃ p, p ∈ s.treeDown (s.ctxTree n.val) ∧ (s.kid n.val p).arrived = true ∧ (s.kid n.val p).refused = false ∧
        (s.kid n.val p).fin = none) → Completes (.closeTime n) s fun t =>
        (t.cctx n.val).run = some { z with fixed := true } ∧
        (∀ p, p ∈ s.treeDown (s.ctxTree n.val) →
          t.kid n.val p = if (s.kid n.val p).arrived then s.kid n.val p else { CollChild.init with refused := true }) ∧
        t.pad = s.pad ∧ t.cel = s.cel ∧ t.fe = s.fe) ∧
    (f.lrec.cTimeout ≠ 31 → z.start.toNat + 1000 * 2 ^ f.lrec.cTimeout ≤ s.sys.time.toNat → f.st.ended = false →
      s.stageFed z.ref.part.val z.ref.queue.val = false → Completes (.collectiveTimeout n) s fun t =>
        (∃ g i, t.flight? z.ref = some g ∧ g.st = .faulted i ∧ i.cause = 0x0023) ∧ t.pad = s.pad ∧ t.cel = s.cel))

/-- CHECKPOINT_SHARD_SEND sends the next shard of the capture set, its bytes and then their SHA-256, to its buddy.
CKPT_ACK marks it; the last one completes the checkpoint and empties the capture set. A first NAK or 10 ms without
an answer marks the shard to be sent again; a second timeout, or a NAK for a full journal, fails the checkpoint, and
in stage mode the kept capture set is captured again at once. CKPT_TAKE and CKPT_FULL note their request;
CKPT_RESTORE starts a restore where the engine may, else it is rejected. (12_checkpoint_and_restore.md) -/
def Obligations.CheckpointTransfer : Prop :=
  (∀ s : State, s.ckpt.st = 1 →
    (∀ (i ab k : Nat) (x : CkptShard) (bs : List Byte) (d : BitVec 14),
      s.ckpt.capture.find? (fun i => !(s.txOf i).sent) = some i → s.scopeShards.find? (fun x => x.index == i) = some x →
      s.buddyOf i = some (ab, k) → s.shardRead x = some bs → abField s.ckptBuddy ab = some d →
      Completes .checkpointShardSend s fun t => t.txOf i = { s.txOf i with sent := true, endAt := s.sys.time } ∧
        (∀ j, j ≠ i → t.txOf j = s.txOf j) ∧ t.lk = (s.sendShard d 1 2 s.ckpt.cseq k bs (sha256 bs)).lk ∧
        t.pad = s.pad ∧ t.cel = s.cel ∧ t.ckpt.capture = s.ckpt.capture) ∧
    (∀ i : Fin 131072, (s.txOf i.val).sent = true → (s.txOf i.val).acked = false →
      10000000 ≤ (s.sys.time - (s.txOf i.val).endAt).toNat →
      ((s.txOf i.val).resent = false → Completes (.shardAckTimeout i) s fun t =>
        t = s.setTx i.val { s.txOf i.val with sent := false, resent := true }) ∧
      ((s.txOf i.val).resent = true → s.sys.stageMode = true → s.stg.st ≠ 5 → Completes (.shardAckTimeout i) s fun t =>
        t.ckpt.st = 1 ∧ t.ckpt.err = 3 ∧ t.ckpt.capture = s.ckpt.capture ∧ t.ckpt.cseq = s.ckpt.cseq + 1 ∧
        t.ckpt.tx = [] ∧ (t.pr .ckpt 0 0x10).getLsbD 2 = true ∧ t.pad = s.pad ∧ t.cel = s.cel) ∧
      ((s.txOf i.val).resent = true → s.sys.stageMode = false ∨ s.stg.st = 5 → Completes (.shardAckTimeout i) s fun t =>
        t.ckpt.st = 4 ∧ t.ckpt.err = 3 ∧ t.ckpt.capture = s.ckpt.capture ∧ t.pad = s.pad ∧ t.cel = s.cel)) ∧
    (∀ (p : Fin 7) (vc : BitVec 3) (k : Packet) (ab : Nat),
      let u := s.popPacket p.val vc k
      let i := s.shardOfHalf ab (ckptShard (pktAddr k.hdr))
      whichAb s.ckptBuddy (pktSrc k.hdr) = some ab → ckptCseq (pktAddr k.hdr) = s.ckpt.cseq → (s.txOf i).sent = true →
      (s.openCkpt p.val vc 3 = (s, some k) →
        ((∃ j, j ∈ s.ckpt.capture ∧ j ≠ i ∧ (s.txOf j).acked = false) → Completes (.ckptAck p vc) s fun t =>
          t = u.setTx i { s.txOf i with acked := true }) ∧
        ((∀ j, j ∈ s.ckpt.capture → j ≠ i → (s.txOf j).acked = true) → Completes (.ckptAck p vc) s fun t =>
          t.ckpt.st = 2 ∧ t.ckpt.capture = [] ∧ (t.pr .ckpt 0 0x10).getLsbD 0 = true ∧ t.pad = s.pad ∧ t.cel = s.cel)) ∧
      (s.openCkpt p.val vc 4 = (s, some k) → (s.txOf i).acked = false →
        (ckptOff (pktAddr k.hdr) ≠ 1 → (s.txOf i).resent = false → Completes (.ckptNak p vc) s fun t =>
          t = u.setTx i { s.txOf i with sent := false, resent := true }) ∧
        (ckptOff (pktAddr k.hdr) = 1 → Completes (.ckptNak p vc) s fun t => t.ckpt.err = 1 ∧
          t.ckpt.capture = s.ckpt.capture ∧ (t.pr .ckpt 0 0x10).getLsbD 2 = true)))) ∧
  (∀ (f : Fn) (v : Word) (x : Target) (s : State),
    (s.openAt f ⟨.ckpt, 0⟩ 0x08 (v ||| 1) = .ok x → v.getLsbD 2 = false → Completes (.ckptTake f v) s fun t =>
      t.ckpt.take = true ∧ t.ckpt.st = s.ckpt.st ∧ t = { s with ckpt := t.ckpt }) ∧
    (s.openAt f ⟨.ckpt, 0⟩ 0x08 (v ||| 2) = .ok x → v.getLsbD 2 = false → Completes (.ckptFull f v) s fun t =>
      t.ckpt.full = true ∧ t.ckpt.st = s.ckpt.st ∧ t = { s with ckpt := t.ckpt }) ∧
    (s.openAt f ⟨.ckpt, 0⟩ 0x08 (v ||| 4) = .ok x →
      let ready := s.sys.stageMode = true ∧ (s.stg.st = 1 ∨ s.stg.st = 5) ∧ s.ckpt.st ≠ 3 ∧ s.stagedKeys ⟨.ckpt, 0⟩ = []
      (ready → Completes (.ckptRestore f v) s fun t => t.ckpt.st = 3 ∧ t.ckpt.restore = true ∧ t.ckpt.err = 0 ∧
        t.ckpt.toCommitted = v.getLsbD 3 ∧ (∀ ab, ab < 2 → ((t.ckpt.pull.get none ab).isSome =
          (abField s.ckptBuddy ab).isSome)) ∧ t.pad = s.pad ∧ t.cel = s.cel) ∧
      (¬ ready → Completes (.ckptRestore f v) s fun t => t = s.rejectState f x)))

/-- A shard packet from no PARTNER is dropped as stale. SHARD_DATA keeps its piece; SHARD_END with room and a device key
writes the slot, and where the digest matches it journals the coded delta and answers ACK, else the half is as
before and the answer is NAK. ABANDON leaves an empty journal and the committed manifest. PULL_REQ is refused with 6
where no manifest is committed and with 5 where the scope differs. PULL_DATA lands exactly its bytes; PULL_END
matches a shard, and the last one ends the restore. RESTORE_TIMEOUT fails it with ERR 3, and no byte outside the
scope changes. (12_checkpoint_and_restore.md) -/
def Obligations.BuddyAndRestore : Prop :=
  (∀ (p : Fin 7) (vc : BitVec 3) (k : Packet) (s : State),
    let a := pktAddr k.hdr
    let src := pktSrc k.hdr
    let u := s.popPacket p.val vc k
    let Opens (op : BitVec 4) : Prop := s.openCkpt p.val vc op = (s, some k)
    (s.halfFor src = none →
      (Opens 1 → Completes (.shardData p vc) s fun t => t = s.ckptStale p.val vc k) ∧
      (Opens 2 → Completes (.shardEnd p vc) s fun t => t = s.ckptStale p.val vc k) ∧
      (Opens 8 → Completes (.abandon p vc) s fun t => t = s.ckptStale p.val vc k) ∧
      (Opens 5 → Completes (.pullReq p vc) s fun t => t = s.ckptStale p.val vc k)) ∧
    (∀ h, s.halfFor src = some h →
      let b := s.halfOfBuddy h
      let i := ckptShard a
      (Opens 1 → b.cseq = ckptCseq a → Completes (.shardData p vc) s fun t =>
        t = u.setBuddyHalf h { b with rx := b.rx.put [] i (b.rx.get [] i ++ [(32 * ckptOff a, k.data)]) }) ∧
      (Opens 2 → b.cseq = ckptCseq a → b.refuse = none →
        let new := assemble (b.rx.get [] i)
        let was := b.slots.get none i
        let image := if was.isSome then s.celRead (s.keyOf 64) (s.imageSlot h i) new.length
          else List.replicate new.length 0
        let coded := codeShard (List.zipWith (· ^^^ ·) new image)
        let slots := max (i + 1) ((b.shards.getLast?.map (· + 1)).getD 0)
        s.keyOf 64 ≠ 0 → new.length ≤ 0x200000 →
          0x400000 + slots * 0x200000 + b.journalBytes + 4 + coded.length ≤ s.halfBytes →
        (sha256 new = k.data → Completes (.shardEnd p vc) s fun t => ∃ w : State,
          t = w.sendCkpt src (ckptAddr 3 (ckptCseq a) i 0) [] ∧
          w.celRead (s.keyOf 64) (s.imageSlot h i) new.length = new ∧ w.halfOfBuddy h = { b with
            rx := b.rx.put [] i [], journal := b.journal ++ [⟨i, coded, was.isSome, (was.map (·.1)).getD 0⟩]
            slots := b.slots.put none i (some (BitVec.ofNat 256 (leVal k.data), new.length)) } ∧ w.pad = s.pad) ∧
        (sha256 new ≠ k.data → Completes (.shardEnd p vc) s fun t => ∃ w : State,
          t = w.sendCkpt src (ckptAddr 4 (ckptCseq a) i 0) [] ∧ w.halfOfBuddy h = { b with rx := b.rx.put [] i [] } ∧
          w.celRead (s.keyOf 64) (s.imageSlot h i) new.length = image ∧ w.pad = s.pad)) ∧
      (Opens 8 → Completes (.abandon p vc) s fun t => (t.halfOfBuddy h).journal = [] ∧ (t.halfOfBuddy h).rx = [] ∧
        (t.halfOfBuddy h).committed = b.committed ∧ (∀ g, g ≠ h → t.halfOfBuddy g = s.halfOfBuddy g) ∧ t.pad = s.pad) ∧
      (Opens 5 → ckptOff a % 2 = 0 →
        (b.committed = none →
          Completes (.pullReq p vc) s fun t => t = u.sendCkpt src (ckptAddr 4 (ckptCseq a) 0 6) []) ∧
        (∀ m, b.committed = some m → m.scope ≠ BitVec.ofNat 256 (leVal k.data) → Completes (.pullReq p vc) s fun t =>
          t = u.sendCkpt src (ckptAddr 4 (ckptCseq a) 0 5) []) ∧
        (∀ m, b.committed = some m → m.scope = BitVec.ofNat 256 (leVal k.data) → s.cel.poison = [] →
          Completes (.pullReq p vc) s fun t =>
          t.ckpt = s.ckpt ∧ t.pad = s.pad ∧ t.cel = s.cel))) ∧
    (∀ (ab : Nat) (y : PullSt) (x : CkptShard), s.pullOf src = some (ab, y) →
      s.scopeShards.find? (fun x => x.index == s.shardOfHalf ab (ckptShard a)) = some x →
      (Opens 6 → x.cel = false → 32 * ckptOff a + k.data.length ≤ x.len → Completes (.pullData p vc) s fun t =>
        PadHolds t (x.addr + 32 * ckptOff a) k.data ∧ PadKeepsBut s t (x.addr + 32 * ckptOff a) k.data.length ∧
        t.cel = s.cel ∧ t.ckpt.pull.get none ab = some { y with answered := true }) ∧
      (Opens 7 → (s.shardRead x).map sha256 = some k.data → y.matched.contains x.index = false →
        let z := { y with answered := true, matched := y.matched ++ [x.index] }
        ((u.setPull ab z).restoreDone = false → Completes (.pullEnd p vc) s fun t => t = u.setPull ab z) ∧
        ((u.setPull ab z).restoreDone = true → Completes (.pullEnd p vc) s fun t => t.ckpt.st = 0 ∧
          t.ckpt.restore = false ∧
          t.ckpt.pull = [] ∧ (t.pr .ckpt 0 0x10).getLsbD 3 = true ∧ t.pad = s.pad ∧ t.cel = s.cel)) ∧
      (Opens 7 → (s.shardRead x).map sha256 ≠ some k.data → y.failed.contains x.index = true →
        Completes (.pullEnd p vc) s fun t => t.ckpt.st = 4 ∧ t.ckpt.err = 2 ∧ (t.pr .ckpt 0 0x10).getLsbD 2 = true))) ∧
  (∀ (b : Bool) (y : PullSt) (s : State), s.ckpt.pull.get none b.toNat = some y → s.ckpt.st = 3 → y.answered = false →
    10000000 ≤ (s.sys.time - y.at_).toNat → Completes (.restoreTimeout b) s fun t =>
      t.ckpt.st = 4 ∧ t.ckpt.err = 3 ∧ t.ckpt.pull = [] ∧ (t.pr .ckpt 0 0x10).getLsbD 2 = true ∧
      KeepsOutside (s.scopeHandles.map fun h => (h.dev.toNat, h.size.toNat)) s t)

/-- PART_CONFIGURE of a FREE partition with a function makes it ACTIVE with a new key, full tokens, empty tables and
context 0 running; UNCONFIGURE of an empty one destroys its key and frees it; any other is rejected. PART_RESET, and
VF_FLR, of an ACTIVE partition with no move in progress, outside a stage job, frees its queues and flights, zeroes
its clusters’ counters, sets its settled banks wiping, renews its key, marks its mapped pages SCRUB, fills its
tokens and keeps its clusters. VF_ENABLE_CHANGE up to 64 takes both values. (06_cellar_and_movers.md,
14_partitions_and_scheduling.md, 16_host_interface_and_boot.md) -/
def Obligations.PartitionLifecycle : Prop :=
  ∀ (p : Fin 64) (s : State),
    let Others (t : State) : Prop := ∀ q, q ≠ p.val → t.partOf q = s.partOf q
    let Full (t : State) : Prop := ∀ r, r < 5 → t.parts.tokens.get 0 (p.val * 5 + r) = (s.regBurst p.val r : Int)
    let Fresh (t : State) : Prop := (∀ v, v < 4096 → t.vmapOf p.val v = 0) ∧
      (∀ h, h < 4096 → t.handleOf p.val h = Handle.init) ∧ (∀ q, q < 16 → t.queueOf p.val q = SwQueue.init) ∧
      (∀ f, f ∈ t.fe.flights → f.lrec.part ≠ p.val)
    let Reset (t : State) : Prop := ((t.partOf p.val).st = .resetting ∨ (t.partOf p.val).st = .active) ∧ Fresh t ∧
      Full t ∧
      (∀ c n, c < 64 → s.clusterOwner c = some p → n < 256 → t.countOf c n = 0) ∧
        (∀ c, t.clusterOwner c = s.clusterOwner c) ∧
      (∀ b, (s.bankOf b).owner = some p → (s.bankOf b).st = .settled → (t.bankOf b).st = .wiping ∧
        (t.bankOf b).owner = some p) ∧
      (∀ b, (s.bankOf b).owner ≠ some p → t.bankOf b = s.bankOf b) ∧ t.keyOf p.val = s.cel.nextKey ∧
      (∀ v, v < 32768 → (s.pteOf p.val v).getLsbD 63 = true → (t.pteOf p.val v).getLsbD 59 = true) ∧ Others t ∧
      t.pad.mem = s.pad.mem ∧ t.cel.mem = s.cel.mem
    let Plain : Prop := (s.partOf p.val).st = .active ∧ s.moving p.val = false ∧ ¬ (s.sys.stageMode = true ∧ p.val = 0)
    (∀ (f : Fn) (x : Target), s.openAt f ⟨.part, p.val⟩ 0x08 4 = .ok x →
      ((s.partOf p.val).st = .free → s.fnExists (p.val + 1) = true → Completes (.partConfigure f p) s fun t =>
        (t.partOf p.val).st = .active ∧ (t.partOf p.val).runCtx = some 0 ∧ (t.ctxOf p.val 0).st = .running ∧
        (t.ctxOf p.val 0).cfg = 0xFFFF0001 ∧ Fresh t ∧ Full t ∧ t.keyOf p.val = s.cel.nextKey ∧
        (∀ v, v < 32768 → t.pteOf p.val v = 0) ∧ Others t ∧ t.pad.mem = s.pad.mem ∧ t.cel.mem = s.cel.mem) ∧
      ((s.partOf p.val).st ≠ .free ∨ s.fnExists (p.val + 1) = false → Completes (.partConfigure f p) s fun t =>
        t = s.rejectState f x)) ∧
    (∀ (f : Fn) (x : Target), s.openAt f ⟨.part, p.val⟩ 0x08 2 = .ok x →
      let empty := (s.partOf p.val).st = .active ∧ s.clustersOf p.val = [] ∧ s.banksOwned p.val = 0 ∧
        s.pagesMapped p.val = 0 ∧ s.collBound p.val = false ∧ s.moving p.val = false
      (empty → Completes (.partUnconfigure f p) s fun t => t.partOf p.val = Part.init ∧ t.keyOf p.val = 0 ∧ Fresh t ∧
        Others t ∧ t.pad.mem = s.pad.mem ∧ t.cel.mem = s.cel.mem) ∧
      (¬ empty → Completes (.partUnconfigure f p) s fun t => t = s.rejectState f x)) ∧
    (∀ (f : Fn) (x : Target), s.openAt f ⟨.part, p.val⟩ 0x08 1 = .ok x →
      (Plain → Completes (.partReset f p) s Reset) ∧
      ((s.partOf p.val).st = .free → Completes (.partReset f p) s fun t => t = s.rejectState f x) ∧
      ((s.partOf p.val).st = .active → s.moving p.val = true → Completes (.partReset f p) s fun t =>
        t = s.setPart p.val { s.partOf p.val with resetDue := true })) ∧
    (s.fnExists (p.val + 1) = true → s.sys.phase = 7 → s.sys.warm = none → s.pwr.trip = false → Plain →
      Completes (.vfFlr p) s fun t => Reset t ∧ t.configOf (p.val + 1) = FnConfig.init) ∧
    (∀ (en : Bool) (n : BitVec 16), n.toNat ≤ 64 → s.sys.phase = 7 → s.sys.warm = none → s.pwr.trip = false →
      (∀ q, q < 64 → s.fnExists (q + 1) = true → en = true ∧ q + 1 ≤ n.toNat) →
        Completes (.vfEnableChange en n) s fun t =>
        t = { s with host := { s.host with vfEnable := en, numVFs := n } })

/-- CLUSTER_TAKE that meets its conditions gives the partition the cluster and its banks, settled ones wiping; RETURN
and MOVE pass the cluster alone; a failing one records ERR and moves nothing. CLUSTER_OP_DONE waits for a TAKE’s
wipes and raises CLU_DONE. REGULATOR_REFILL, with no budget commit, move, post or completion waiting, sets each
token count of a configured partition to min(min(T, BURST) + n × RATE × 125, BURST) over n µs, RATE 0 taking the
share. INGEST_POST is accepted whole or refused and counted; INGEST_LANDED lands exactly its word.
(14_partitions_and_scheduling.md) -/
def Obligations.ClustersTokensIngest : Prop :=
  (∀ (f : Fn) (p c : Fin 64) (x : Target) (s : State),
    let Moves (cmd : Instr) (op : BitVec 2) (exp : Fin 64) (src dst : Option (Fin 64)) : Prop :=
      (s.cluCheck c.val src dst = 0 → Completes cmd s fun t => t.clusterOwner c.val = dst ∧
        (∀ d, d ≠ c.val → t.clusterOwner d = s.clusterOwner d) ∧ (t.partOf p.val).cluOp = some ⟨op, c, exp⟩ ∧
        (t.partOf p.val).cluErr = 0 ∧ (∀ n, n < 256 → t.countOf c.val n = 0) ∧
        (op = 1 → ∀ b, b ∈ s.liveBanks c.val → (t.bankOf b).owner = some p ∧
          (t.bankOf b).st = if (s.bankOf b).st = .settled then .wiping else (s.bankOf b).st) ∧
        (∀ b, op ≠ 1 ∨ b ∉ s.liveBanks c.val → t.bankOf b = s.bankOf b) ∧ t.pad.mem = s.pad.mem ∧ t.cel = s.cel) ∧
      (s.cluCheck c.val src dst ≠ 0 → Completes cmd s fun t => t.clusterOwner = s.clusterOwner ∧
        (t.partOf p.val).cluErr = s.cluCheck c.val src dst ∧ t.pad = s.pad ∧ t.cel = s.cel)
    (s.openAt f ⟨.part, p.val⟩ 0x48 (cluWord 1 c.val 0) = .ok x → Moves (.clusterTake f p c) 1 0 none (some p)) ∧
    (s.openAt f ⟨.part, p.val⟩ 0x48 (cluWord 2 c.val 0) = .ok x → Moves (.clusterReturn f p c) 2 0 (some p) none) ∧
    (∀ e : Fin 64, s.openAt f ⟨.part, p.val⟩ 0x48 (cluWord 3 c.val e.val) = .ok x →
      Moves (.clusterMove f p c e) 3 e (some e) (some p))) ∧
  (∀ (p : Fin 64) (o : CluOp) (s : State), (s.partOf p.val).cluOp = some o →
    (o.op = 1 → s.clusterWipes o.cluster.val = true → Completes (.clusterOpDone p) s fun t => t = s) ∧
    ((o.op ≠ 1 ∨ s.clusterWipes o.cluster.val = false) → (∀ q, (s.partOf q).resetDue = false) →
      Completes (.clusterOpDone p) s fun t => t.partOf p.val = { s.partOf p.val with cluOp := none } ∧
        (t.pr .part p.val 0x10).getLsbD 1 = true ∧ t.clusterOwner = s.clusterOwner ∧ t.pad = s.pad ∧ t.cel = s.cel)) ∧
  (∀ s : State,
    let now := s.sys.time.toNat / 1000
    let n := if s.parts.refill < now then now - s.parts.refill else 1
    (now = s.parts.refill → Completes .regulatorRefill s fun t => t = s) ∧
    (now ≠ s.parts.refill → (∀ p, p < 64 → s.moving p = false ∧ (s.commitOf ⟨.budget, p⟩).waiting = false ∧
        (s.partOf p).posts = [] ∧ ∀ q, q < 16 → (s.queueOf p q).entries = []) →
      Completes .regulatorRefill s fun t => t.parts.refill = now ∧ t.pad = s.pad ∧ t.cel = s.cel ∧ t.fe = s.fe ∧
        ∀ p r, p < 64 → r < 5 →
          let T := s.parts.tokens.get 0 (p * 5 + r)
          let B : Int := (s.regBurst p r : Int)
          let field := (s.pr .budget p (0x40 + 4 * r)).toNat / 4096
          let rate := if field = 0 then regCapacity r * (s.clustersOf p).length / 64 else field
          t.parts.tokens.get 0 (p * 5 + r) =
            if s.configured p then min (min T B + ((n * rate * 125 : Nat) : Int)) B else T)) ∧
  (∀ (p : Fin 64) (f : Fn) (v : Word) (x : Target) (lo : HeldHalf) (s : State),
    s.openAt f ⟨.part, p.val⟩ 0xDC v = .ok x → s.wbufOf f x.page = some lo → lo.offset = 0xD8 →
    let h := s.handleOf p.val (postHandle v)
    let fits := (s.ingestCfg p.val).getLsbD 31 = true ∧ h.v = true ∧ h.kind = 2 ∧ h.rd = true ∧
      h.covers (lo.value.toNat * 4096) (postWords v * 4096) = true ∧
        postWords v + s.unlanded p.val ≤ s.credits (.ingest p)
    (fits → Completes (.ingestPost f p v) s fun t => (t.partOf p.val).posts.length = (s.partOf p.val).posts.length + 1 ∧
      t.pr .part p.val 0xE0 = satAdd32 (s.pr .part p.val 0xE0) 1 ∧ t.pad = s.pad ∧ t.cel = s.cel) ∧
    (¬ fits → Completes (.ingestPost f p v) s fun t => t.partOf p.val = s.partOf p.val ∧
      t.pr .part p.val 0xE4 = satAdd32 (s.pr .part p.val 0xE4) 1 ∧ t.pad = s.pad ∧ t.cel = s.cel)) ∧
  (∀ (p : Fin 64) (x : Post) (rest : List Post) (data : List Byte) (u s : State), (s.partOf p.val).posts = x :: rest →
    (s.partOf p.val).arrived = some (data, false) → (s.ingestHandle p.val).v = true → (s.ingestHandle p.val).kind = 0 →
    let a := (s.ingestHandle p.val).dev.toNat + (s.que1 (.ingest p)).w % s.depth (.ingest p) * 4096
    s.partWrite p.val 0 a data = some u → Completes (.ingestLanded p) s fun t => KeepsBytes u t ∧ PadHolds t a data ∧
      (t.partOf p.val).posts.length = (if x.words ≤ x.landed + 1 then rest.length else rest.length + 1))

/-- CTX_CREATE of a FREE context whose staged block passes takes the block and runs at once where none runs; one that
fails gives its ERR. DESTROY with every queue FREE frees it. SUSPEND of a SAVED context suspends it at once, of a
RUNNING one with a save area begins its save, or defers it for a collective; RESUME makes it SAVED. QUANTUM_EXPIRY
switches where another is runnable, else renews the quantum. CONTEXT_YIELD restores the next runnable one where none
runs. CTX_SAVE_DONE ends the save, or loses the context; CTX_RESTORE_DONE runs it. (14_partitions_and_scheduling.md) -/
def Obligations.ContextStates : Prop :=
  (∀ (f : Fn) (p : Fin 64) (x : Target) (s : State),
    let c := s.ctxSel p.val
    let y := s.ctxOf p.val c
    let Others (t : State) : Prop := ∀ q d, q * 16 + d ≠ p.val * 16 + c → t.ctxOf q d = s.ctxOf q d
    let Refuses (cmd : Instr) (err : BitVec 4) : Prop := Completes cmd s fun t =>
      t.ctxOf p.val c = { y with err := err } ∧ Others t ∧ t.parts.part = s.parts.part ∧ t.pad = s.pad ∧ t.cel = s.cel
    (s.openAt f ⟨.part, p.val⟩ 0x74 1 = .ok x →
      (y.st ≠ .free ∨ (s.partOf p.val).st ≠ .active → Refuses (.ctxCreate f p) 4) ∧
      (y.st = .free → (s.partOf p.val).st = .active → s.ctxCheck p.val c ≠ 0 →
        Refuses (.ctxCreate f p) (s.ctxCheck p.val c)) ∧
      (y.st = .free → (s.partOf p.val).st = .active → s.ctxCheck p.val c = 0 → Completes (.ctxCreate f p) s fun t =>
        (t.ctxOf p.val c).cfg = s.ctxNext p.val c 0x64 ∧ (t.ctxOf p.val c).areas = s.ctxNext p.val c 0x68 ∧
        (t.ctxOf p.val c).set0 = s.ctxNext p.val c 0x6C ∧ (t.ctxOf p.val c).set1 = s.ctxNext p.val c 0x70 ∧
        ((s.partOf p.val).runCtx = none → (t.ctxOf p.val c).st = .running ∧
          (t.partOf p.val).runCtx = some (BitVec.ofNat 4 c)) ∧
        ((s.partOf p.val).runCtx ≠ none → (t.ctxOf p.val c).st = .saved ∧ t.partOf p.val = s.partOf p.val) ∧
        Others t ∧ t.pad = s.pad ∧ t.cel = s.cel)) ∧
    (s.openAt f ⟨.part, p.val⟩ 0x74 2 = .ok x →
      let queuesFree := ∀ q, q < 16 → (y.cfg.extractLsb' 16 16).getLsbD q = true → (s.queueOf p.val q).st = .free
      let may := y.st ≠ .free ∧ y.st ≠ .saving ∧ y.st ≠ .restoring ∧ queuesFree
      (may → Completes (.ctxDestroy f p) s fun t => t.ctxOf p.val c = { Ctx.init c with cfg := 1 } ∧ Others t ∧
        (y.st = .running → (t.partOf p.val).runCtx = none) ∧ t.pad = s.pad ∧ t.cel = s.cel) ∧
      (¬ may → Refuses (.ctxDestroy f p) 4)) ∧
    (s.openAt f ⟨.part, p.val⟩ 0x74 3 = .ok x →
      (y.st = .saved → Completes (.ctxSuspend f p) s fun t =>
        t = s.setCtx p.val c { y with st := .suspended, err := 0 }) ∧
      (y.st = .running → y.areas.getLsbD 30 = false → Refuses (.ctxSuspend f p) 2) ∧
      (y.st = .running → y.areas.getLsbD 30 = true → s.ctxCollective p.val c = false →
        Completes (.ctxSuspend f p) s fun t =>
        (t.ctxOf p.val c).st = .saving ∧ (t.ctxOf p.val c).suspendAfter = true ∧ Others t ∧
        (∀ hot half l, l ∈ (t.halfOf (slotOf p.val hot) half).recs →
          (y.cfg.extractLsb' 16 16).getLsbD l.queue = false) ∧
        (∀ w, w ∈ t.syn.waits → y.owns p.val w.ref = false) ∧ t.pad.mem = s.pad.mem ∧ t.cel.mem = s.cel.mem) ∧
      (y.st = .running → y.areas.getLsbD 30 = true → s.ctxCollective p.val c = true →
        (s.partOf p.val).deferred = false →
        Completes (.ctxSuspend f p) s fun t => (t.ctxOf p.val c).st = .running ∧ (t.ctxOf p.val c).suspendAfter = true ∧
          (t.partOf p.val).deferred = true ∧ t.pr .part p.val 0x84 = satAdd32 (s.pr .part p.val 0x84) 1 ∧
            t.pad = s.pad) ∧
      (y.st ≠ .saved → y.st ≠ .running → Refuses (.ctxSuspend f p) 4)) ∧
    (s.openAt f ⟨.part, p.val⟩ 0x74 4 = .ok x →
      (y.st = .suspended →
        Completes (.ctxResume f p) s fun t => t = s.setCtx p.val c { y with st := .saved, err := 0 }) ∧
      (y.st ≠ .suspended → Refuses (.ctxResume f p) 4))) ∧
  (∀ (p : Fin 64) (s : State),
    let pt := s.partOf p.val
    (∀ c : BitVec 4, pt.runCtx = some c → pt.st = .active → (s.ctxOf p.val c.toNat).st = .running →
      (s.ctxOf p.val c.toNat).suspendAfter = false →
      (s.sys.time.toNat < pt.quantumEnd.toNat → Completes (.quantumExpiry p) s fun t => t = s) ∧
      (pt.quantumEnd.toNat ≤ s.sys.time.toNat → s.nextCtx p.val c.toNat = none → Completes (.quantumExpiry p) s fun t =>
        t = s.setPart p.val { pt with quantumEnd := s.sys.time + BitVec.ofNat 64 (s.ctxOf p.val c.toNat).quantum }) ∧
      (pt.quantumEnd.toNat ≤ s.sys.time.toNat → s.nextCtx p.val c.toNat ≠ none → s.ctxCollective p.val c.toNat = false →
        Completes (.quantumExpiry p) s fun t => (t.ctxOf p.val c.toNat).st = .saving ∧ t.pad.mem = s.pad.mem ∧
          t.cel.mem = s.cel.mem)) ∧
    (∀ d, pt.st = .active → pt.runCtx = none → s.nextCtx p.val 15 = some d → Completes (.contextYield p) s fun t =>
      (t.ctxOf p.val d).st = .restoring ∧ (t.partOf p.val).runCtx = some (BitVec.ofNat 4 d) ∧ t.pad = s.pad ∧
      t.cel = s.cel) ∧
    (∀ c, (List.range 16).find? (fun c => (s.ctxOf p.val c).st == .saving) = some c → s.gangOf p.val = none →
      (s.saveGate p.val c = none → Completes (.ctxSaveDone p) s fun t => t = s) ∧
      (s.saveGate p.val c = some true → saveSet (s.ctxOf p.val c).set0 (s.ctxOf p.val c).set1 = [] →
        (∀ d, s.ctxRunnable p.val d = false) → (s.ctxOf p.val c).suspendAfter = true →
          Completes (.ctxSaveDone p) s fun t =>
          (t.ctxOf p.val c).st = .suspended ∧ (t.ctxOf p.val c).written = true ∧
          (t.partOf p.val).runCtx = none ∧ t.pad.mem = s.pad.mem) ∧
      (s.saveGate p.val c = some false → (∀ d, s.ctxRunnable p.val d = false) →
        (∀ q, q < 16 → (s.queueOf p.val q).st = .free) → Completes (.ctxSaveDone p) s fun t =>
          (t.ctxOf p.val c).st = .lost ∧ (t.ctxOf p.val c).flights = [] ∧ (t.partOf p.val).runCtx = none)) ∧
    (∀ c, (List.range 16).find? (fun c => (s.ctxOf p.val c).st == .restoring) = some c →
      (s.ctxOf p.val c).written = false → (s.ctxOf p.val c).tags = [] →
        Completes (.ctxRestoreDone p) s fun t => (t.ctxOf p.val c).st = .running ∧
        (t.ctxOf p.val c).flights = [] ∧ (t.partOf p.val).runCtx = some (BitVec.ofNat 4 c) ∧
        (∀ g, g ∈ (s.ctxOf p.val c).flights → ∃ h, h ∈ t.fe.flights ∧ h.lrec = g.lrec)))
end

