-- ==== Sys2Proof/Laws/Map.lean ====
section
/-! SUPPORT. The laws of sparse arrays: a read after a write, and that every operation keeps the canonical form. -/

namespace Sys2Proof

variable {α : Type} [DecidableEq α]

/-! ## The canonical form as a proposition -/

/-- Every key of the map is above `b`. -/
def SMap.above (b : Nat) (m : SMap α) : Prop := ∀ e ∈ m, b < e.1

theorem SMap.wfFrom_tail {d : Nat → α} {b : Option Nat} {k : Nat} {v : α} {m : SMap α}
    (h : SMap.wfFrom d b ((k, v) :: m) = true) : SMap.wfFrom d (some k) m = true := by
  simp only [SMap.wfFrom, Bool.and_eq_true] at h
  exact h.2

theorem SMap.wfFrom_head {d : Nat → α} {b : Option Nat} {k : Nat} {v : α} {m : SMap α}
    (h : SMap.wfFrom d b ((k, v) :: m) = true) : v ≠ d k := by
  simp only [SMap.wfFrom, Bool.and_eq_true, decide_eq_true_eq] at h
  exact h.1.2

theorem SMap.wfFrom_above {d : Nat → α} {b : Nat} {m : SMap α} (h : SMap.wfFrom d (some b) m = true) :
    SMap.above b m := by
  induction m generalizing b with
  | nil => intro e he; cases he
  | cons x m ih =>
    obtain ⟨k, v⟩ := x
    have hb : b < k := by
      simp only [SMap.wfFrom, Bool.and_eq_true, decide_eq_true_eq] at h
      exact h.1.1
    intro e he
    rcases List.mem_cons.1 he with rfl | he
    · exact hb
    · exact Nat.lt_trans hb (ih (SMap.wfFrom_tail h) e he)

/-- A weaker lower bound. -/
theorem SMap.wfFrom_mono {d : Nat → α} {a b : Nat} {m : SMap α} (hab : a ≤ b)
    (h : SMap.wfFrom d (some b) m = true) : SMap.wfFrom d (some a) m = true := by
  cases m with
  | nil => rfl
  | cons x m =>
    obtain ⟨k, v⟩ := x
    simp only [SMap.wfFrom, Bool.and_eq_true, decide_eq_true_eq] at h ⊢
    exact ⟨⟨Nat.lt_of_le_of_lt hab h.1.1, h.1.2⟩, h.2⟩

theorem SMap.wfFrom_none {d : Nat → α} {b : Option Nat} {m : SMap α} (h : SMap.wfFrom d b m = true) :
    SMap.wfFrom d none m = true := by
  cases m with
  | nil => rfl
  | cons x m =>
    obtain ⟨k, v⟩ := x
    simp only [SMap.wfFrom, Bool.and_eq_true, decide_eq_true_eq] at h ⊢
    exact ⟨⟨trivial, h.1.2⟩, h.2⟩

/-! ## Reads -/

omit [DecidableEq α] in
theorem SMap.get_above {d : α} {b k : Nat} {m : SMap α} (h : SMap.above b m) (hk : k ≤ b) : m.get d k = d := by
  induction m with
  | nil => rfl
  | cons x m ih =>
    obtain ⟨k', v⟩ := x
    have h1 : b < k' := h _ (List.mem_cons_self ..)
    have h2 : k' ≠ k := by omega
    simp only [SMap.get, h2, if_false]
    exact ih fun e he => h e (List.mem_cons_of_mem _ he)

omit [DecidableEq α] in
theorem SMap.get_insert_self {d : α} {m : SMap α} {k : Nat} {v : α} : (m.insert k v).get d k = v := by
  induction m with
  | nil => simp [SMap.insert, SMap.get]
  | cons x m ih =>
    obtain ⟨k', v'⟩ := x
    simp only [SMap.insert]
    split
    · simp [SMap.get]
    · split
      · simp [SMap.get]
      · rename_i h; simp [SMap.get, h, ih]

omit [DecidableEq α] in
theorem SMap.get_insert_ne {d : α} {m : SMap α} {k j : Nat} {v : α} (h : j ≠ k) :
    (m.insert k v).get d j = m.get d j := by
  induction m with
  | nil => simp [SMap.insert, SMap.get, h.symm]
  | cons x m ih =>
    obtain ⟨k', v'⟩ := x
    simp only [SMap.insert]
    split
    · simp [SMap.get, h.symm]
    · split
      · rename_i h'; subst h'; simp [SMap.get, h.symm]
      · simp only [SMap.get, ih]

omit [DecidableEq α] in
theorem SMap.get_erase_ne {d : α} {m : SMap α} {k j : Nat} (h : j ≠ k) : (m.erase k).get d j = m.get d j := by
  induction m with
  | nil => rfl
  | cons x m ih =>
    obtain ⟨k', v'⟩ := x
    simp only [SMap.erase]
    split
    · rename_i h'; subst h'; simp [SMap.get, h.symm, ih]
    · simp only [SMap.get, ih]

omit [DecidableEq α] in
theorem SMap.get_erase_self {d : α} {m : SMap α} {k : Nat} : (m.erase k).get d k = d := by
  induction m with
  | nil => rfl
  | cons x m ih =>
    obtain ⟨k', v'⟩ := x
    simp only [SMap.erase]
    split
    · exact ih
    · rename_i h'; simp only [SMap.get, h', if_false]; exact ih

/-- A write leaves every other key alone. -/
theorem SMap.get_put_ne {d : α} {m : SMap α} {k j : Nat} {v : α} (h : j ≠ k) : (m.put d k v).get d j = m.get d j := by
  unfold SMap.put
  split
  · exact SMap.get_erase_ne h
  · exact SMap.get_insert_ne h

/-- A read after a write of a value other than the default. -/
theorem SMap.get_put_new {d : α} {m : SMap α} {k : Nat} {v : α} (h : v ≠ d) : (m.put d k v).get d k = v := by
  simp [SMap.put, h, SMap.get_insert_self]

/-- A read after a write. -/
theorem SMap.get_put_self {d : α} {m : SMap α} {k : Nat} {v : α} : (m.put d k v).get d k = v := by
  by_cases hv : v = d
  · subst hv; simp [SMap.put, SMap.get_erase_self]
  · exact SMap.get_put_new hv

/-- A read after a write, at any key. -/
theorem SMap.get_put {d : α} {m : SMap α} {k j : Nat} {v : α} :
    (m.put d k v).get d j = if j = k then v else m.get d j := by
  split
  · rename_i h; subst h; exact SMap.get_put_self
  · rename_i h; exact SMap.get_put_ne h

/-! ## The canonical form is kept -/

theorem SMap.wfFrom_erase {d : Nat → α} {b : Option Nat} {m : SMap α} {k : Nat} (h : SMap.wfFrom d b m = true) :
    SMap.wfFrom d b (m.erase k) = true := by
  induction m generalizing b with
  | nil => rfl
  | cons x m ih =>
    obtain ⟨k', v'⟩ := x
    simp only [SMap.erase]
    split
    · cases b with
      | none => exact ih (SMap.wfFrom_none (SMap.wfFrom_tail h))
      | some b =>
        have hb : b < k' := by
          simp only [SMap.wfFrom, Bool.and_eq_true, decide_eq_true_eq] at h
          exact h.1.1
        exact ih (SMap.wfFrom_mono (Nat.le_of_lt hb) (SMap.wfFrom_tail h))
    · have := ih (SMap.wfFrom_tail h)
      simp only [SMap.wfFrom, Bool.and_eq_true] at h ⊢
      exact ⟨h.1, this⟩

theorem SMap.wfFrom_insert {d : Nat → α} {b : Option Nat} {m : SMap α} {k : Nat} {v : α} (hv : v ≠ d k)
    (hk : ∀ x, b = some x → x < k) (h : SMap.wfFrom d b m = true) : SMap.wfFrom d b (m.insert k v) = true := by
  induction m generalizing b with
  | nil =>
    cases b with
    | none => simp [SMap.insert, SMap.wfFrom, hv]
    | some x => simp [SMap.insert, SMap.wfFrom, hv, hk x rfl]
  | cons x m ih =>
    obtain ⟨k', v'⟩ := x
    have hv' := SMap.wfFrom_head h
    have ht := SMap.wfFrom_tail h
    simp only [SMap.insert]
    split
    · rename_i hlt
      cases b with
      | none => simp [SMap.wfFrom, hv, hlt, hv', ht]
      | some x => simp [SMap.wfFrom, hv, hlt, hv', ht, hk x rfl]
    · split
      · rename_i heq; subst heq
        simp only [SMap.wfFrom, Bool.and_eq_true, decide_eq_true_eq] at h ⊢
        exact ⟨⟨h.1.1, hv⟩, ht⟩
      · have hlt : k' < k := by omega
        have := ih (b := some k') (by intro x hx; cases hx; exact hlt) ht
        simp only [SMap.wfFrom, Bool.and_eq_true] at h ⊢
        exact ⟨h.1, this⟩

/-- A write keeps the canonical form. -/
theorem SMap.wf_put {d : Nat → α} {m : SMap α} {k : Nat} {v : α} (h : SMap.wf d m = true) :
    SMap.wf d (m.put (d k) k v) = true := by
  unfold SMap.put SMap.wf at *
  split
  · exact SMap.wfFrom_erase h
  · rename_i hv; exact SMap.wfFrom_insert hv (by intro x hx; cases hx) h

theorem SMap.wfFrom_filter {d : Nat → α} {b : Option Nat} {m : SMap α} {p : Nat × α → Bool}
    (h : SMap.wfFrom d b m = true) : SMap.wfFrom d b (m.filter p : SMap α) = true := by
  induction m generalizing b with
  | nil => rfl
  | cons x m ih =>
    obtain ⟨k, v⟩ := x
    have ht := SMap.wfFrom_tail h
    simp only [List.filter_cons]
    split
    · have := ih ht
      simp only [SMap.wfFrom, Bool.and_eq_true] at h ⊢
      exact ⟨h.1, this⟩
    · cases b with
      | none => exact ih (SMap.wfFrom_none ht)
      | some b =>
        have hb : b < k := by
          simp only [SMap.wfFrom, Bool.and_eq_true, decide_eq_true_eq] at h
          exact h.1.1
        exact ih (SMap.wfFrom_mono (Nat.le_of_lt hb) ht)

/-- Keeping some of the entries keeps the canonical form. -/
theorem SMap.wf_keep {d : Nat → α} {m : SMap α} {p : Nat → α → Bool} (h : SMap.wf d m = true) :
    SMap.wf d (m.keep p) = true := SMap.wfFrom_filter h

omit [DecidableEq α] in
theorem SMap.mem_keep {m : SMap α} {p : Nat → α → Bool} {e : Nat × α} (h : e ∈ m.keep p) : p e.1 e.2 = true := by
  unfold SMap.keep at h
  exact (List.mem_filter.1 h).2

/-- A change of the defaults at keys that are not listed keeps the canonical form. -/
theorem SMap.wfFrom_congr {d e : Nat → α} {b : Option Nat} {m : SMap α} (h : SMap.wfFrom d b m = true)
    (he : ∀ x ∈ m, e x.1 = d x.1) : SMap.wfFrom e b m = true := by
  induction m generalizing b with
  | nil => rfl
  | cons x m ih =>
    obtain ⟨k, v⟩ := x
    have ht := ih (SMap.wfFrom_tail h) fun y hy => he y (List.mem_cons_of_mem _ hy)
    have hk : e k = d k := he (k, v) (List.mem_cons_self ..)
    simp only [SMap.wfFrom, Bool.and_eq_true, decide_eq_true_eq] at h ⊢
    exact ⟨⟨h.1.1, by rw [hk]; exact h.1.2⟩, ht⟩

end Sys2Proof
end

