-- ==== Sys2Proof/Laws/State.lean ====
section
/-! SUPPORT. What each update of the state leaves alone: one lemma per field that the update does not write. -/

namespace Sys2Proof.Machine

@[simp] theorem State.setReg_pending (s : State) (k : Nat) (v : Word) : (s.setReg k v).pending = s.pending := rfl
@[simp] theorem State.setReg_sys (s : State) (k : Nat) (v : Word) : (s.setReg k v).sys = s.sys := rfl
@[simp] theorem State.setReg_host (s : State) (k : Nat) (v : Word) : (s.setReg k v).host = s.host := rfl
@[simp] theorem State.setReg_err (s : State) (k : Nat) (v : Word) : (s.setReg k v).err = s.err := rfl
@[simp] theorem State.setReg_sloe (s : State) (k : Nat) (v : Word) : (s.setReg k v).sloe = s.sloe := rfl
@[simp] theorem State.setReg_fuse (s : State) (k : Nat) (v : Word) : (s.setReg k v).fuse = s.fuse := rfl
@[simp] theorem State.setReg_region (s : State) (k : Nat) (v : Word) : (s.setReg k v).region = s.region := rfl
@[simp] theorem State.setReg_pwr (s : State) (k : Nat) (v : Word) : (s.setReg k v).pwr = s.pwr := rfl
@[simp] theorem State.setReg_clk (s : State) (k : Nat) (v : Word) : (s.setReg k v).clk = s.clk := rfl
@[simp] theorem State.setReg_mgmt (s : State) (k : Nat) (v : Word) : (s.setReg k v).mgmt = s.mgmt := rfl
@[simp] theorem State.setReg_fe (s : State) (k : Nat) (v : Word) : (s.setReg k v).fe = s.fe := rfl
@[simp] theorem State.setReg_parts (s : State) (k : Nat) (v : Word) : (s.setReg k v).parts = s.parts := rfl
@[simp] theorem State.setReg_pad (s : State) (k : Nat) (v : Word) : (s.setReg k v).pad = s.pad := rfl
@[simp] theorem State.setReg_cel (s : State) (k : Nat) (v : Word) : (s.setReg k v).cel = s.cel := rfl
@[simp] theorem State.setReg_que (s : State) (k : Nat) (v : Word) : (s.setReg k v).que = s.que := rfl
@[simp] theorem State.setReg_syn (s : State) (k : Nat) (v : Word) : (s.setReg k v).syn = s.syn := rfl
@[simp] theorem State.setReg_gang (s : State) (k : Nat) (v : Word) : (s.setReg k v).gang = s.gang := rfl
@[simp] theorem State.setReg_lk (s : State) (k : Nat) (v : Word) : (s.setReg k v).lk = s.lk := rfl
@[simp] theorem State.setReg_stg (s : State) (k : Nat) (v : Word) : (s.setReg k v).stg = s.stg := rfl
@[simp] theorem State.setReg_coll (s : State) (k : Nat) (v : Word) : (s.setReg k v).coll = s.coll := rfl
@[simp] theorem State.setReg_ckpt (s : State) (k : Nat) (v : Word) : (s.setReg k v).ckpt = s.ckpt := rfl

@[simp] theorem State.setPr_pending (s : State) (k : PageKind) (i off : Nat) (v : Word) :
    (s.setPr k i off v).pending = s.pending := rfl
@[simp] theorem State.setPr_sys (s : State) (k : PageKind) (i off : Nat) (v : Word) :
    (s.setPr k i off v).sys = s.sys := rfl
@[simp] theorem State.setPr_host (s : State) (k : PageKind) (i off : Nat) (v : Word) :
    (s.setPr k i off v).host = s.host := rfl
@[simp] theorem State.setPr_err (s : State) (k : PageKind) (i off : Nat) (v : Word) :
    (s.setPr k i off v).err = s.err := rfl
@[simp] theorem State.setPr_sloe (s : State) (k : PageKind) (i off : Nat) (v : Word) :
    (s.setPr k i off v).sloe = s.sloe := rfl
@[simp] theorem State.setPr_fuse (s : State) (k : PageKind) (i off : Nat) (v : Word) :
    (s.setPr k i off v).fuse = s.fuse := rfl
@[simp] theorem State.setPr_region (s : State) (k : PageKind) (i off : Nat) (v : Word) :
    (s.setPr k i off v).region = s.region := rfl
@[simp] theorem State.setPr_pwr (s : State) (k : PageKind) (i off : Nat) (v : Word) :
    (s.setPr k i off v).pwr = s.pwr := rfl
@[simp] theorem State.setPr_clk (s : State) (k : PageKind) (i off : Nat) (v : Word) :
    (s.setPr k i off v).clk = s.clk := rfl
@[simp] theorem State.setPr_mgmt (s : State) (k : PageKind) (i off : Nat) (v : Word) :
    (s.setPr k i off v).mgmt = s.mgmt := rfl
@[simp] theorem State.setPr_fe (s : State) (k : PageKind) (i off : Nat) (v : Word) :
    (s.setPr k i off v).fe = s.fe := rfl
@[simp] theorem State.setPr_parts (s : State) (k : PageKind) (i off : Nat) (v : Word) :
    (s.setPr k i off v).parts = s.parts := rfl
@[simp] theorem State.setPr_pad (s : State) (k : PageKind) (i off : Nat) (v : Word) :
    (s.setPr k i off v).pad = s.pad := rfl
@[simp] theorem State.setPr_cel (s : State) (k : PageKind) (i off : Nat) (v : Word) :
    (s.setPr k i off v).cel = s.cel := rfl
@[simp] theorem State.setPr_que (s : State) (k : PageKind) (i off : Nat) (v : Word) :
    (s.setPr k i off v).que = s.que := rfl
@[simp] theorem State.setPr_syn (s : State) (k : PageKind) (i off : Nat) (v : Word) :
    (s.setPr k i off v).syn = s.syn := rfl
@[simp] theorem State.setPr_gang (s : State) (k : PageKind) (i off : Nat) (v : Word) :
    (s.setPr k i off v).gang = s.gang := rfl
@[simp] theorem State.setPr_lk (s : State) (k : PageKind) (i off : Nat) (v : Word) :
    (s.setPr k i off v).lk = s.lk := rfl
@[simp] theorem State.setPr_stg (s : State) (k : PageKind) (i off : Nat) (v : Word) :
    (s.setPr k i off v).stg = s.stg := rfl
@[simp] theorem State.setPr_coll (s : State) (k : PageKind) (i off : Nat) (v : Word) :
    (s.setPr k i off v).coll = s.coll := rfl
@[simp] theorem State.setPr_ckpt (s : State) (k : PageKind) (i off : Nat) (v : Word) :
    (s.setPr k i off v).ckpt = s.ckpt := rfl

@[simp] theorem State.bump_pending (s : State) (k : PageKind) (i off n : Nat) :
    (s.bump k i off n).pending = s.pending := rfl
@[simp] theorem State.bump_sys (s : State) (k : PageKind) (i off n : Nat) : (s.bump k i off n).sys = s.sys := rfl
@[simp] theorem State.bump_host (s : State) (k : PageKind) (i off n : Nat) : (s.bump k i off n).host = s.host := rfl
@[simp] theorem State.bump_err (s : State) (k : PageKind) (i off n : Nat) : (s.bump k i off n).err = s.err := rfl
@[simp] theorem State.bump_sloe (s : State) (k : PageKind) (i off n : Nat) : (s.bump k i off n).sloe = s.sloe := rfl
@[simp] theorem State.bump_fuse (s : State) (k : PageKind) (i off n : Nat) : (s.bump k i off n).fuse = s.fuse := rfl
@[simp] theorem State.bump_region (s : State) (k : PageKind) (i off n : Nat) :
    (s.bump k i off n).region = s.region := rfl
@[simp] theorem State.bump_pwr (s : State) (k : PageKind) (i off n : Nat) : (s.bump k i off n).pwr = s.pwr := rfl
@[simp] theorem State.bump_clk (s : State) (k : PageKind) (i off n : Nat) : (s.bump k i off n).clk = s.clk := rfl
@[simp] theorem State.bump_mgmt (s : State) (k : PageKind) (i off n : Nat) : (s.bump k i off n).mgmt = s.mgmt := rfl
@[simp] theorem State.bump_fe (s : State) (k : PageKind) (i off n : Nat) : (s.bump k i off n).fe = s.fe := rfl
@[simp] theorem State.bump_parts (s : State) (k : PageKind) (i off n : Nat) : (s.bump k i off n).parts = s.parts := rfl
@[simp] theorem State.bump_pad (s : State) (k : PageKind) (i off n : Nat) : (s.bump k i off n).pad = s.pad := rfl
@[simp] theorem State.bump_cel (s : State) (k : PageKind) (i off n : Nat) : (s.bump k i off n).cel = s.cel := rfl
@[simp] theorem State.bump_que (s : State) (k : PageKind) (i off n : Nat) : (s.bump k i off n).que = s.que := rfl
@[simp] theorem State.bump_syn (s : State) (k : PageKind) (i off n : Nat) : (s.bump k i off n).syn = s.syn := rfl
@[simp] theorem State.bump_gang (s : State) (k : PageKind) (i off n : Nat) : (s.bump k i off n).gang = s.gang := rfl
@[simp] theorem State.bump_lk (s : State) (k : PageKind) (i off n : Nat) : (s.bump k i off n).lk = s.lk := rfl
@[simp] theorem State.bump_stg (s : State) (k : PageKind) (i off n : Nat) : (s.bump k i off n).stg = s.stg := rfl
@[simp] theorem State.bump_coll (s : State) (k : PageKind) (i off n : Nat) : (s.bump k i off n).coll = s.coll := rfl
@[simp] theorem State.bump_ckpt (s : State) (k : PageKind) (i off n : Nat) : (s.bump k i off n).ckpt = s.ckpt := rfl

@[simp] theorem State.setPr64_pending (s : State) (k : PageKind) (i off : Nat) (v : BitVec 64) :
    (s.setPr64 k i off v).pending = s.pending := rfl
@[simp] theorem State.setPr64_sys (s : State) (k : PageKind) (i off : Nat) (v : BitVec 64) :
    (s.setPr64 k i off v).sys = s.sys := rfl
@[simp] theorem State.setPr64_host (s : State) (k : PageKind) (i off : Nat) (v : BitVec 64) :
    (s.setPr64 k i off v).host = s.host := rfl
@[simp] theorem State.setPr64_err (s : State) (k : PageKind) (i off : Nat) (v : BitVec 64) :
    (s.setPr64 k i off v).err = s.err := rfl
@[simp] theorem State.setPr64_sloe (s : State) (k : PageKind) (i off : Nat) (v : BitVec 64) :
    (s.setPr64 k i off v).sloe = s.sloe := rfl
@[simp] theorem State.setPr64_fuse (s : State) (k : PageKind) (i off : Nat) (v : BitVec 64) :
    (s.setPr64 k i off v).fuse = s.fuse := rfl
@[simp] theorem State.setPr64_region (s : State) (k : PageKind) (i off : Nat) (v : BitVec 64) :
    (s.setPr64 k i off v).region = s.region := rfl
@[simp] theorem State.setPr64_pwr (s : State) (k : PageKind) (i off : Nat) (v : BitVec 64) :
    (s.setPr64 k i off v).pwr = s.pwr := rfl
@[simp] theorem State.setPr64_clk (s : State) (k : PageKind) (i off : Nat) (v : BitVec 64) :
    (s.setPr64 k i off v).clk = s.clk := rfl
@[simp] theorem State.setPr64_mgmt (s : State) (k : PageKind) (i off : Nat) (v : BitVec 64) :
    (s.setPr64 k i off v).mgmt = s.mgmt := rfl
@[simp] theorem State.setPr64_fe (s : State) (k : PageKind) (i off : Nat) (v : BitVec 64) :
    (s.setPr64 k i off v).fe = s.fe := rfl
@[simp] theorem State.setPr64_parts (s : State) (k : PageKind) (i off : Nat) (v : BitVec 64) :
    (s.setPr64 k i off v).parts = s.parts := rfl
@[simp] theorem State.setPr64_pad (s : State) (k : PageKind) (i off : Nat) (v : BitVec 64) :
    (s.setPr64 k i off v).pad = s.pad := rfl
@[simp] theorem State.setPr64_cel (s : State) (k : PageKind) (i off : Nat) (v : BitVec 64) :
    (s.setPr64 k i off v).cel = s.cel := rfl
@[simp] theorem State.setPr64_que (s : State) (k : PageKind) (i off : Nat) (v : BitVec 64) :
    (s.setPr64 k i off v).que = s.que := rfl
@[simp] theorem State.setPr64_syn (s : State) (k : PageKind) (i off : Nat) (v : BitVec 64) :
    (s.setPr64 k i off v).syn = s.syn := rfl
@[simp] theorem State.setPr64_gang (s : State) (k : PageKind) (i off : Nat) (v : BitVec 64) :
    (s.setPr64 k i off v).gang = s.gang := rfl
@[simp] theorem State.setPr64_lk (s : State) (k : PageKind) (i off : Nat) (v : BitVec 64) :
    (s.setPr64 k i off v).lk = s.lk := rfl
@[simp] theorem State.setPr64_stg (s : State) (k : PageKind) (i off : Nat) (v : BitVec 64) :
    (s.setPr64 k i off v).stg = s.stg := rfl
@[simp] theorem State.setPr64_coll (s : State) (k : PageKind) (i off : Nat) (v : BitVec 64) :
    (s.setPr64 k i off v).coll = s.coll := rfl
@[simp] theorem State.setPr64_ckpt (s : State) (k : PageKind) (i off : Nat) (v : BitVec 64) :
    (s.setPr64 k i off v).ckpt = s.ckpt := rfl

@[simp] theorem State.bump64_pending (s : State) (k : PageKind) (i off n : Nat) :
    (s.bump64 k i off n).pending = s.pending := rfl
@[simp] theorem State.bump64_sys (s : State) (k : PageKind) (i off n : Nat) : (s.bump64 k i off n).sys = s.sys := rfl
@[simp] theorem State.bump64_host (s : State) (k : PageKind) (i off n : Nat) : (s.bump64 k i off n).host = s.host := rfl
@[simp] theorem State.bump64_err (s : State) (k : PageKind) (i off n : Nat) : (s.bump64 k i off n).err = s.err := rfl
@[simp] theorem State.bump64_sloe (s : State) (k : PageKind) (i off n : Nat) : (s.bump64 k i off n).sloe = s.sloe := rfl
@[simp] theorem State.bump64_fuse (s : State) (k : PageKind) (i off n : Nat) : (s.bump64 k i off n).fuse = s.fuse := rfl
@[simp] theorem State.bump64_region (s : State) (k : PageKind) (i off n : Nat) :
    (s.bump64 k i off n).region = s.region := rfl
@[simp] theorem State.bump64_pwr (s : State) (k : PageKind) (i off n : Nat) : (s.bump64 k i off n).pwr = s.pwr := rfl
@[simp] theorem State.bump64_clk (s : State) (k : PageKind) (i off n : Nat) : (s.bump64 k i off n).clk = s.clk := rfl
@[simp] theorem State.bump64_mgmt (s : State) (k : PageKind) (i off n : Nat) : (s.bump64 k i off n).mgmt = s.mgmt := rfl
@[simp] theorem State.bump64_fe (s : State) (k : PageKind) (i off n : Nat) : (s.bump64 k i off n).fe = s.fe := rfl
@[simp] theorem State.bump64_parts (s : State) (k : PageKind) (i off n : Nat) :
    (s.bump64 k i off n).parts = s.parts := rfl
@[simp] theorem State.bump64_pad (s : State) (k : PageKind) (i off n : Nat) : (s.bump64 k i off n).pad = s.pad := rfl
@[simp] theorem State.bump64_cel (s : State) (k : PageKind) (i off n : Nat) : (s.bump64 k i off n).cel = s.cel := rfl
@[simp] theorem State.bump64_que (s : State) (k : PageKind) (i off n : Nat) : (s.bump64 k i off n).que = s.que := rfl
@[simp] theorem State.bump64_syn (s : State) (k : PageKind) (i off n : Nat) : (s.bump64 k i off n).syn = s.syn := rfl
@[simp] theorem State.bump64_gang (s : State) (k : PageKind) (i off n : Nat) : (s.bump64 k i off n).gang = s.gang := rfl
@[simp] theorem State.bump64_lk (s : State) (k : PageKind) (i off n : Nat) : (s.bump64 k i off n).lk = s.lk := rfl
@[simp] theorem State.bump64_stg (s : State) (k : PageKind) (i off n : Nat) : (s.bump64 k i off n).stg = s.stg := rfl
@[simp] theorem State.bump64_coll (s : State) (k : PageKind) (i off n : Nat) : (s.bump64 k i off n).coll = s.coll := rfl
@[simp] theorem State.bump64_ckpt (s : State) (k : PageKind) (i off n : Nat) : (s.bump64 k i off n).ckpt = s.ckpt := rfl

@[simp] theorem State.clearRegs_pending (s : State) (k : PageKind) (i lo hi : Nat) :
    (s.clearRegs k i lo hi).pending = s.pending := rfl
@[simp] theorem State.clearRegs_sys (s : State) (k : PageKind) (i lo hi : Nat) :
    (s.clearRegs k i lo hi).sys = s.sys := rfl
@[simp] theorem State.clearRegs_host (s : State) (k : PageKind) (i lo hi : Nat) :
    (s.clearRegs k i lo hi).host = s.host := rfl
@[simp] theorem State.clearRegs_err (s : State) (k : PageKind) (i lo hi : Nat) :
    (s.clearRegs k i lo hi).err = s.err := rfl
@[simp] theorem State.clearRegs_sloe (s : State) (k : PageKind) (i lo hi : Nat) :
    (s.clearRegs k i lo hi).sloe = s.sloe := rfl
@[simp] theorem State.clearRegs_fuse (s : State) (k : PageKind) (i lo hi : Nat) :
    (s.clearRegs k i lo hi).fuse = s.fuse := rfl
@[simp] theorem State.clearRegs_region (s : State) (k : PageKind) (i lo hi : Nat) :
    (s.clearRegs k i lo hi).region = s.region := rfl
@[simp] theorem State.clearRegs_pwr (s : State) (k : PageKind) (i lo hi : Nat) :
    (s.clearRegs k i lo hi).pwr = s.pwr := rfl
@[simp] theorem State.clearRegs_clk (s : State) (k : PageKind) (i lo hi : Nat) :
    (s.clearRegs k i lo hi).clk = s.clk := rfl
@[simp] theorem State.clearRegs_mgmt (s : State) (k : PageKind) (i lo hi : Nat) :
    (s.clearRegs k i lo hi).mgmt = s.mgmt := rfl
@[simp] theorem State.clearRegs_fe (s : State) (k : PageKind) (i lo hi : Nat) : (s.clearRegs k i lo hi).fe = s.fe := rfl
@[simp] theorem State.clearRegs_parts (s : State) (k : PageKind) (i lo hi : Nat) :
    (s.clearRegs k i lo hi).parts = s.parts := rfl
@[simp] theorem State.clearRegs_pad (s : State) (k : PageKind) (i lo hi : Nat) :
    (s.clearRegs k i lo hi).pad = s.pad := rfl
@[simp] theorem State.clearRegs_cel (s : State) (k : PageKind) (i lo hi : Nat) :
    (s.clearRegs k i lo hi).cel = s.cel := rfl
@[simp] theorem State.clearRegs_que (s : State) (k : PageKind) (i lo hi : Nat) :
    (s.clearRegs k i lo hi).que = s.que := rfl
@[simp] theorem State.clearRegs_syn (s : State) (k : PageKind) (i lo hi : Nat) :
    (s.clearRegs k i lo hi).syn = s.syn := rfl
@[simp] theorem State.clearRegs_gang (s : State) (k : PageKind) (i lo hi : Nat) :
    (s.clearRegs k i lo hi).gang = s.gang := rfl
@[simp] theorem State.clearRegs_lk (s : State) (k : PageKind) (i lo hi : Nat) : (s.clearRegs k i lo hi).lk = s.lk := rfl
@[simp] theorem State.clearRegs_stg (s : State) (k : PageKind) (i lo hi : Nat) :
    (s.clearRegs k i lo hi).stg = s.stg := rfl
@[simp] theorem State.clearRegs_coll (s : State) (k : PageKind) (i lo hi : Nat) :
    (s.clearRegs k i lo hi).coll = s.coll := rfl
@[simp] theorem State.clearRegs_ckpt (s : State) (k : PageKind) (i lo hi : Nat) :
    (s.clearRegs k i lo hi).ckpt = s.ckpt := rfl

@[simp] theorem State.resetPage_pending (s : State) (k : PageKind) (i : Nat) :
    (s.resetPage k i).pending = s.pending := rfl
@[simp] theorem State.resetPage_sys (s : State) (k : PageKind) (i : Nat) : (s.resetPage k i).sys = s.sys := rfl
@[simp] theorem State.resetPage_host (s : State) (k : PageKind) (i : Nat) : (s.resetPage k i).host = s.host := rfl
@[simp] theorem State.resetPage_err (s : State) (k : PageKind) (i : Nat) : (s.resetPage k i).err = s.err := rfl
@[simp] theorem State.resetPage_sloe (s : State) (k : PageKind) (i : Nat) : (s.resetPage k i).sloe = s.sloe := rfl
@[simp] theorem State.resetPage_fuse (s : State) (k : PageKind) (i : Nat) : (s.resetPage k i).fuse = s.fuse := rfl
@[simp] theorem State.resetPage_region (s : State) (k : PageKind) (i : Nat) : (s.resetPage k i).region = s.region := rfl
@[simp] theorem State.resetPage_pwr (s : State) (k : PageKind) (i : Nat) : (s.resetPage k i).pwr = s.pwr := rfl
@[simp] theorem State.resetPage_clk (s : State) (k : PageKind) (i : Nat) : (s.resetPage k i).clk = s.clk := rfl
@[simp] theorem State.resetPage_mgmt (s : State) (k : PageKind) (i : Nat) : (s.resetPage k i).mgmt = s.mgmt := rfl
@[simp] theorem State.resetPage_fe (s : State) (k : PageKind) (i : Nat) : (s.resetPage k i).fe = s.fe := rfl
@[simp] theorem State.resetPage_parts (s : State) (k : PageKind) (i : Nat) : (s.resetPage k i).parts = s.parts := rfl
@[simp] theorem State.resetPage_pad (s : State) (k : PageKind) (i : Nat) : (s.resetPage k i).pad = s.pad := rfl
@[simp] theorem State.resetPage_cel (s : State) (k : PageKind) (i : Nat) : (s.resetPage k i).cel = s.cel := rfl
@[simp] theorem State.resetPage_que (s : State) (k : PageKind) (i : Nat) : (s.resetPage k i).que = s.que := rfl
@[simp] theorem State.resetPage_syn (s : State) (k : PageKind) (i : Nat) : (s.resetPage k i).syn = s.syn := rfl
@[simp] theorem State.resetPage_gang (s : State) (k : PageKind) (i : Nat) : (s.resetPage k i).gang = s.gang := rfl
@[simp] theorem State.resetPage_lk (s : State) (k : PageKind) (i : Nat) : (s.resetPage k i).lk = s.lk := rfl
@[simp] theorem State.resetPage_stg (s : State) (k : PageKind) (i : Nat) : (s.resetPage k i).stg = s.stg := rfl
@[simp] theorem State.resetPage_coll (s : State) (k : PageKind) (i : Nat) : (s.resetPage k i).coll = s.coll := rfl
@[simp] theorem State.resetPage_ckpt (s : State) (k : PageKind) (i : Nat) : (s.resetPage k i).ckpt = s.ckpt := rfl

@[simp] theorem State.stage_pending (s : State) (key : Nat) (v : Option Word) :
    (s.stage key v).pending = s.pending := rfl
@[simp] theorem State.stage_sys (s : State) (key : Nat) (v : Option Word) : (s.stage key v).sys = s.sys := rfl
@[simp] theorem State.stage_host (s : State) (key : Nat) (v : Option Word) : (s.stage key v).host = s.host := rfl
@[simp] theorem State.stage_err (s : State) (key : Nat) (v : Option Word) : (s.stage key v).err = s.err := rfl
@[simp] theorem State.stage_sloe (s : State) (key : Nat) (v : Option Word) : (s.stage key v).sloe = s.sloe := rfl
@[simp] theorem State.stage_fuse (s : State) (key : Nat) (v : Option Word) : (s.stage key v).fuse = s.fuse := rfl
@[simp] theorem State.stage_region (s : State) (key : Nat) (v : Option Word) : (s.stage key v).region = s.region := rfl
@[simp] theorem State.stage_pwr (s : State) (key : Nat) (v : Option Word) : (s.stage key v).pwr = s.pwr := rfl
@[simp] theorem State.stage_clk (s : State) (key : Nat) (v : Option Word) : (s.stage key v).clk = s.clk := rfl
@[simp] theorem State.stage_mgmt (s : State) (key : Nat) (v : Option Word) : (s.stage key v).mgmt = s.mgmt := rfl
@[simp] theorem State.stage_fe (s : State) (key : Nat) (v : Option Word) : (s.stage key v).fe = s.fe := rfl
@[simp] theorem State.stage_parts (s : State) (key : Nat) (v : Option Word) : (s.stage key v).parts = s.parts := rfl
@[simp] theorem State.stage_pad (s : State) (key : Nat) (v : Option Word) : (s.stage key v).pad = s.pad := rfl
@[simp] theorem State.stage_cel (s : State) (key : Nat) (v : Option Word) : (s.stage key v).cel = s.cel := rfl
@[simp] theorem State.stage_que (s : State) (key : Nat) (v : Option Word) : (s.stage key v).que = s.que := rfl
@[simp] theorem State.stage_syn (s : State) (key : Nat) (v : Option Word) : (s.stage key v).syn = s.syn := rfl
@[simp] theorem State.stage_gang (s : State) (key : Nat) (v : Option Word) : (s.stage key v).gang = s.gang := rfl
@[simp] theorem State.stage_lk (s : State) (key : Nat) (v : Option Word) : (s.stage key v).lk = s.lk := rfl
@[simp] theorem State.stage_stg (s : State) (key : Nat) (v : Option Word) : (s.stage key v).stg = s.stg := rfl
@[simp] theorem State.stage_coll (s : State) (key : Nat) (v : Option Word) : (s.stage key v).coll = s.coll := rfl
@[simp] theorem State.stage_ckpt (s : State) (key : Nat) (v : Option Word) : (s.stage key v).ckpt = s.ckpt := rfl

@[simp] theorem State.setCommit_pending (s : State) (p : PageId) (c : CommitState) :
    (s.setCommit p c).pending = s.pending := rfl
@[simp] theorem State.setCommit_sys (s : State) (p : PageId) (c : CommitState) : (s.setCommit p c).sys = s.sys := rfl
@[simp] theorem State.setCommit_host (s : State) (p : PageId) (c : CommitState) : (s.setCommit p c).host = s.host := rfl
@[simp] theorem State.setCommit_err (s : State) (p : PageId) (c : CommitState) : (s.setCommit p c).err = s.err := rfl
@[simp] theorem State.setCommit_sloe (s : State) (p : PageId) (c : CommitState) : (s.setCommit p c).sloe = s.sloe := rfl
@[simp] theorem State.setCommit_fuse (s : State) (p : PageId) (c : CommitState) : (s.setCommit p c).fuse = s.fuse := rfl
@[simp] theorem State.setCommit_region (s : State) (p : PageId) (c : CommitState) :
    (s.setCommit p c).region = s.region := rfl
@[simp] theorem State.setCommit_pwr (s : State) (p : PageId) (c : CommitState) : (s.setCommit p c).pwr = s.pwr := rfl
@[simp] theorem State.setCommit_clk (s : State) (p : PageId) (c : CommitState) : (s.setCommit p c).clk = s.clk := rfl
@[simp] theorem State.setCommit_mgmt (s : State) (p : PageId) (c : CommitState) : (s.setCommit p c).mgmt = s.mgmt := rfl
@[simp] theorem State.setCommit_fe (s : State) (p : PageId) (c : CommitState) : (s.setCommit p c).fe = s.fe := rfl
@[simp] theorem State.setCommit_parts (s : State) (p : PageId) (c : CommitState) :
    (s.setCommit p c).parts = s.parts := rfl
@[simp] theorem State.setCommit_pad (s : State) (p : PageId) (c : CommitState) : (s.setCommit p c).pad = s.pad := rfl
@[simp] theorem State.setCommit_cel (s : State) (p : PageId) (c : CommitState) : (s.setCommit p c).cel = s.cel := rfl
@[simp] theorem State.setCommit_que (s : State) (p : PageId) (c : CommitState) : (s.setCommit p c).que = s.que := rfl
@[simp] theorem State.setCommit_syn (s : State) (p : PageId) (c : CommitState) : (s.setCommit p c).syn = s.syn := rfl
@[simp] theorem State.setCommit_gang (s : State) (p : PageId) (c : CommitState) : (s.setCommit p c).gang = s.gang := rfl
@[simp] theorem State.setCommit_lk (s : State) (p : PageId) (c : CommitState) : (s.setCommit p c).lk = s.lk := rfl
@[simp] theorem State.setCommit_stg (s : State) (p : PageId) (c : CommitState) : (s.setCommit p c).stg = s.stg := rfl
@[simp] theorem State.setCommit_coll (s : State) (p : PageId) (c : CommitState) : (s.setCommit p c).coll = s.coll := rfl
@[simp] theorem State.setCommit_ckpt (s : State) (p : PageId) (c : CommitState) : (s.setCommit p c).ckpt = s.ckpt := rfl

@[simp] theorem State.setWbuf_pending (s : State) (f : Fn) (p : PageId) (h : Option HeldHalf) :
    (s.setWbuf f p h).pending = s.pending := rfl
@[simp] theorem State.setWbuf_sys (s : State) (f : Fn) (p : PageId) (h : Option HeldHalf) :
    (s.setWbuf f p h).sys = s.sys := rfl
@[simp] theorem State.setWbuf_host (s : State) (f : Fn) (p : PageId) (h : Option HeldHalf) :
    (s.setWbuf f p h).host = s.host := rfl
@[simp] theorem State.setWbuf_err (s : State) (f : Fn) (p : PageId) (h : Option HeldHalf) :
    (s.setWbuf f p h).err = s.err := rfl
@[simp] theorem State.setWbuf_sloe (s : State) (f : Fn) (p : PageId) (h : Option HeldHalf) :
    (s.setWbuf f p h).sloe = s.sloe := rfl
@[simp] theorem State.setWbuf_fuse (s : State) (f : Fn) (p : PageId) (h : Option HeldHalf) :
    (s.setWbuf f p h).fuse = s.fuse := rfl
@[simp] theorem State.setWbuf_region (s : State) (f : Fn) (p : PageId) (h : Option HeldHalf) :
    (s.setWbuf f p h).region = s.region := rfl
@[simp] theorem State.setWbuf_pwr (s : State) (f : Fn) (p : PageId) (h : Option HeldHalf) :
    (s.setWbuf f p h).pwr = s.pwr := rfl
@[simp] theorem State.setWbuf_clk (s : State) (f : Fn) (p : PageId) (h : Option HeldHalf) :
    (s.setWbuf f p h).clk = s.clk := rfl
@[simp] theorem State.setWbuf_mgmt (s : State) (f : Fn) (p : PageId) (h : Option HeldHalf) :
    (s.setWbuf f p h).mgmt = s.mgmt := rfl
@[simp] theorem State.setWbuf_fe (s : State) (f : Fn) (p : PageId) (h : Option HeldHalf) :
    (s.setWbuf f p h).fe = s.fe := rfl
@[simp] theorem State.setWbuf_parts (s : State) (f : Fn) (p : PageId) (h : Option HeldHalf) :
    (s.setWbuf f p h).parts = s.parts := rfl
@[simp] theorem State.setWbuf_pad (s : State) (f : Fn) (p : PageId) (h : Option HeldHalf) :
    (s.setWbuf f p h).pad = s.pad := rfl
@[simp] theorem State.setWbuf_cel (s : State) (f : Fn) (p : PageId) (h : Option HeldHalf) :
    (s.setWbuf f p h).cel = s.cel := rfl
@[simp] theorem State.setWbuf_que (s : State) (f : Fn) (p : PageId) (h : Option HeldHalf) :
    (s.setWbuf f p h).que = s.que := rfl
@[simp] theorem State.setWbuf_syn (s : State) (f : Fn) (p : PageId) (h : Option HeldHalf) :
    (s.setWbuf f p h).syn = s.syn := rfl
@[simp] theorem State.setWbuf_gang (s : State) (f : Fn) (p : PageId) (h : Option HeldHalf) :
    (s.setWbuf f p h).gang = s.gang := rfl
@[simp] theorem State.setWbuf_lk (s : State) (f : Fn) (p : PageId) (h : Option HeldHalf) :
    (s.setWbuf f p h).lk = s.lk := rfl
@[simp] theorem State.setWbuf_stg (s : State) (f : Fn) (p : PageId) (h : Option HeldHalf) :
    (s.setWbuf f p h).stg = s.stg := rfl
@[simp] theorem State.setWbuf_coll (s : State) (f : Fn) (p : PageId) (h : Option HeldHalf) :
    (s.setWbuf f p h).coll = s.coll := rfl
@[simp] theorem State.setWbuf_ckpt (s : State) (f : Fn) (p : PageId) (h : Option HeldHalf) :
    (s.setWbuf f p h).ckpt = s.ckpt := rfl

@[simp] theorem State.setLatch_pending (s : State) (f : Fn) (p : PageId) (h : Option HeldHalf) :
    (s.setLatch f p h).pending = s.pending := rfl
@[simp] theorem State.setLatch_sys (s : State) (f : Fn) (p : PageId) (h : Option HeldHalf) :
    (s.setLatch f p h).sys = s.sys := rfl
@[simp] theorem State.setLatch_host (s : State) (f : Fn) (p : PageId) (h : Option HeldHalf) :
    (s.setLatch f p h).host = s.host := rfl
@[simp] theorem State.setLatch_err (s : State) (f : Fn) (p : PageId) (h : Option HeldHalf) :
    (s.setLatch f p h).err = s.err := rfl
@[simp] theorem State.setLatch_sloe (s : State) (f : Fn) (p : PageId) (h : Option HeldHalf) :
    (s.setLatch f p h).sloe = s.sloe := rfl
@[simp] theorem State.setLatch_fuse (s : State) (f : Fn) (p : PageId) (h : Option HeldHalf) :
    (s.setLatch f p h).fuse = s.fuse := rfl
@[simp] theorem State.setLatch_region (s : State) (f : Fn) (p : PageId) (h : Option HeldHalf) :
    (s.setLatch f p h).region = s.region := rfl
@[simp] theorem State.setLatch_pwr (s : State) (f : Fn) (p : PageId) (h : Option HeldHalf) :
    (s.setLatch f p h).pwr = s.pwr := rfl
@[simp] theorem State.setLatch_clk (s : State) (f : Fn) (p : PageId) (h : Option HeldHalf) :
    (s.setLatch f p h).clk = s.clk := rfl
@[simp] theorem State.setLatch_mgmt (s : State) (f : Fn) (p : PageId) (h : Option HeldHalf) :
    (s.setLatch f p h).mgmt = s.mgmt := rfl
@[simp] theorem State.setLatch_fe (s : State) (f : Fn) (p : PageId) (h : Option HeldHalf) :
    (s.setLatch f p h).fe = s.fe := rfl
@[simp] theorem State.setLatch_parts (s : State) (f : Fn) (p : PageId) (h : Option HeldHalf) :
    (s.setLatch f p h).parts = s.parts := rfl
@[simp] theorem State.setLatch_pad (s : State) (f : Fn) (p : PageId) (h : Option HeldHalf) :
    (s.setLatch f p h).pad = s.pad := rfl
@[simp] theorem State.setLatch_cel (s : State) (f : Fn) (p : PageId) (h : Option HeldHalf) :
    (s.setLatch f p h).cel = s.cel := rfl
@[simp] theorem State.setLatch_que (s : State) (f : Fn) (p : PageId) (h : Option HeldHalf) :
    (s.setLatch f p h).que = s.que := rfl
@[simp] theorem State.setLatch_syn (s : State) (f : Fn) (p : PageId) (h : Option HeldHalf) :
    (s.setLatch f p h).syn = s.syn := rfl
@[simp] theorem State.setLatch_gang (s : State) (f : Fn) (p : PageId) (h : Option HeldHalf) :
    (s.setLatch f p h).gang = s.gang := rfl
@[simp] theorem State.setLatch_lk (s : State) (f : Fn) (p : PageId) (h : Option HeldHalf) :
    (s.setLatch f p h).lk = s.lk := rfl
@[simp] theorem State.setLatch_stg (s : State) (f : Fn) (p : PageId) (h : Option HeldHalf) :
    (s.setLatch f p h).stg = s.stg := rfl
@[simp] theorem State.setLatch_coll (s : State) (f : Fn) (p : PageId) (h : Option HeldHalf) :
    (s.setLatch f p h).coll = s.coll := rfl
@[simp] theorem State.setLatch_ckpt (s : State) (f : Fn) (p : PageId) (h : Option HeldHalf) :
    (s.setLatch f p h).ckpt = s.ckpt := rfl

@[simp] theorem State.answer_pending (s : State) (v : BitVec 64) : (s.answer v).pending = s.pending := rfl
@[simp] theorem State.answer_sys (s : State) (v : BitVec 64) : (s.answer v).sys = s.sys := rfl
@[simp] theorem State.answer_host (s : State) (v : BitVec 64) : (s.answer v).host = s.host := rfl
@[simp] theorem State.answer_err (s : State) (v : BitVec 64) : (s.answer v).err = s.err := rfl
@[simp] theorem State.answer_sloe (s : State) (v : BitVec 64) : (s.answer v).sloe = s.sloe := rfl
@[simp] theorem State.answer_fuse (s : State) (v : BitVec 64) : (s.answer v).fuse = s.fuse := rfl
@[simp] theorem State.answer_region (s : State) (v : BitVec 64) : (s.answer v).region = s.region := rfl
@[simp] theorem State.answer_pwr (s : State) (v : BitVec 64) : (s.answer v).pwr = s.pwr := rfl
@[simp] theorem State.answer_clk (s : State) (v : BitVec 64) : (s.answer v).clk = s.clk := rfl
@[simp] theorem State.answer_mgmt (s : State) (v : BitVec 64) : (s.answer v).mgmt = s.mgmt := rfl
@[simp] theorem State.answer_fe (s : State) (v : BitVec 64) : (s.answer v).fe = s.fe := rfl
@[simp] theorem State.answer_parts (s : State) (v : BitVec 64) : (s.answer v).parts = s.parts := rfl
@[simp] theorem State.answer_pad (s : State) (v : BitVec 64) : (s.answer v).pad = s.pad := rfl
@[simp] theorem State.answer_cel (s : State) (v : BitVec 64) : (s.answer v).cel = s.cel := rfl
@[simp] theorem State.answer_que (s : State) (v : BitVec 64) : (s.answer v).que = s.que := rfl
@[simp] theorem State.answer_syn (s : State) (v : BitVec 64) : (s.answer v).syn = s.syn := rfl
@[simp] theorem State.answer_gang (s : State) (v : BitVec 64) : (s.answer v).gang = s.gang := rfl
@[simp] theorem State.answer_lk (s : State) (v : BitVec 64) : (s.answer v).lk = s.lk := rfl
@[simp] theorem State.answer_stg (s : State) (v : BitVec 64) : (s.answer v).stg = s.stg := rfl
@[simp] theorem State.answer_coll (s : State) (v : BitVec 64) : (s.answer v).coll = s.coll := rfl
@[simp] theorem State.answer_ckpt (s : State) (v : BitVec 64) : (s.answer v).ckpt = s.ckpt := rfl

@[simp] theorem State.emit_pending (s : State) (m : HostMsg) : (s.emit m).pending = s.pending := rfl
@[simp] theorem State.emit_sys (s : State) (m : HostMsg) : (s.emit m).sys = s.sys := rfl
@[simp] theorem State.emit_bus (s : State) (m : HostMsg) : (s.emit m).bus = s.bus := rfl
@[simp] theorem State.emit_err (s : State) (m : HostMsg) : (s.emit m).err = s.err := rfl
@[simp] theorem State.emit_sloe (s : State) (m : HostMsg) : (s.emit m).sloe = s.sloe := rfl
@[simp] theorem State.emit_fuse (s : State) (m : HostMsg) : (s.emit m).fuse = s.fuse := rfl
@[simp] theorem State.emit_region (s : State) (m : HostMsg) : (s.emit m).region = s.region := rfl
@[simp] theorem State.emit_pwr (s : State) (m : HostMsg) : (s.emit m).pwr = s.pwr := rfl
@[simp] theorem State.emit_clk (s : State) (m : HostMsg) : (s.emit m).clk = s.clk := rfl
@[simp] theorem State.emit_mgmt (s : State) (m : HostMsg) : (s.emit m).mgmt = s.mgmt := rfl
@[simp] theorem State.emit_fe (s : State) (m : HostMsg) : (s.emit m).fe = s.fe := rfl
@[simp] theorem State.emit_parts (s : State) (m : HostMsg) : (s.emit m).parts = s.parts := rfl
@[simp] theorem State.emit_pad (s : State) (m : HostMsg) : (s.emit m).pad = s.pad := rfl
@[simp] theorem State.emit_cel (s : State) (m : HostMsg) : (s.emit m).cel = s.cel := rfl
@[simp] theorem State.emit_que (s : State) (m : HostMsg) : (s.emit m).que = s.que := rfl
@[simp] theorem State.emit_syn (s : State) (m : HostMsg) : (s.emit m).syn = s.syn := rfl
@[simp] theorem State.emit_gang (s : State) (m : HostMsg) : (s.emit m).gang = s.gang := rfl
@[simp] theorem State.emit_lk (s : State) (m : HostMsg) : (s.emit m).lk = s.lk := rfl
@[simp] theorem State.emit_stg (s : State) (m : HostMsg) : (s.emit m).stg = s.stg := rfl
@[simp] theorem State.emit_coll (s : State) (m : HostMsg) : (s.emit m).coll = s.coll := rfl
@[simp] theorem State.emit_ckpt (s : State) (m : HostMsg) : (s.emit m).ckpt = s.ckpt := rfl

@[simp] theorem State.setPart_pending (s : State) (p : Nat) (v : Part) : (s.setPart p v).pending = s.pending := rfl
@[simp] theorem State.setPart_sys (s : State) (p : Nat) (v : Part) : (s.setPart p v).sys = s.sys := rfl
@[simp] theorem State.setPart_bus (s : State) (p : Nat) (v : Part) : (s.setPart p v).bus = s.bus := rfl
@[simp] theorem State.setPart_host (s : State) (p : Nat) (v : Part) : (s.setPart p v).host = s.host := rfl
@[simp] theorem State.setPart_err (s : State) (p : Nat) (v : Part) : (s.setPart p v).err = s.err := rfl
@[simp] theorem State.setPart_sloe (s : State) (p : Nat) (v : Part) : (s.setPart p v).sloe = s.sloe := rfl
@[simp] theorem State.setPart_fuse (s : State) (p : Nat) (v : Part) : (s.setPart p v).fuse = s.fuse := rfl
@[simp] theorem State.setPart_region (s : State) (p : Nat) (v : Part) : (s.setPart p v).region = s.region := rfl
@[simp] theorem State.setPart_pwr (s : State) (p : Nat) (v : Part) : (s.setPart p v).pwr = s.pwr := rfl
@[simp] theorem State.setPart_clk (s : State) (p : Nat) (v : Part) : (s.setPart p v).clk = s.clk := rfl
@[simp] theorem State.setPart_mgmt (s : State) (p : Nat) (v : Part) : (s.setPart p v).mgmt = s.mgmt := rfl
@[simp] theorem State.setPart_fe (s : State) (p : Nat) (v : Part) : (s.setPart p v).fe = s.fe := rfl
@[simp] theorem State.setPart_pad (s : State) (p : Nat) (v : Part) : (s.setPart p v).pad = s.pad := rfl
@[simp] theorem State.setPart_cel (s : State) (p : Nat) (v : Part) : (s.setPart p v).cel = s.cel := rfl
@[simp] theorem State.setPart_que (s : State) (p : Nat) (v : Part) : (s.setPart p v).que = s.que := rfl
@[simp] theorem State.setPart_syn (s : State) (p : Nat) (v : Part) : (s.setPart p v).syn = s.syn := rfl
@[simp] theorem State.setPart_gang (s : State) (p : Nat) (v : Part) : (s.setPart p v).gang = s.gang := rfl
@[simp] theorem State.setPart_lk (s : State) (p : Nat) (v : Part) : (s.setPart p v).lk = s.lk := rfl
@[simp] theorem State.setPart_stg (s : State) (p : Nat) (v : Part) : (s.setPart p v).stg = s.stg := rfl
@[simp] theorem State.setPart_coll (s : State) (p : Nat) (v : Part) : (s.setPart p v).coll = s.coll := rfl
@[simp] theorem State.setPart_ckpt (s : State) (p : Nat) (v : Part) : (s.setPart p v).ckpt = s.ckpt := rfl

@[simp] theorem State.setCtx_pending (s : State) (p c : Nat) (v : Ctx) : (s.setCtx p c v).pending = s.pending := rfl
@[simp] theorem State.setCtx_sys (s : State) (p c : Nat) (v : Ctx) : (s.setCtx p c v).sys = s.sys := rfl
@[simp] theorem State.setCtx_bus (s : State) (p c : Nat) (v : Ctx) : (s.setCtx p c v).bus = s.bus := rfl
@[simp] theorem State.setCtx_host (s : State) (p c : Nat) (v : Ctx) : (s.setCtx p c v).host = s.host := rfl
@[simp] theorem State.setCtx_err (s : State) (p c : Nat) (v : Ctx) : (s.setCtx p c v).err = s.err := rfl
@[simp] theorem State.setCtx_sloe (s : State) (p c : Nat) (v : Ctx) : (s.setCtx p c v).sloe = s.sloe := rfl
@[simp] theorem State.setCtx_fuse (s : State) (p c : Nat) (v : Ctx) : (s.setCtx p c v).fuse = s.fuse := rfl
@[simp] theorem State.setCtx_region (s : State) (p c : Nat) (v : Ctx) : (s.setCtx p c v).region = s.region := rfl
@[simp] theorem State.setCtx_pwr (s : State) (p c : Nat) (v : Ctx) : (s.setCtx p c v).pwr = s.pwr := rfl
@[simp] theorem State.setCtx_clk (s : State) (p c : Nat) (v : Ctx) : (s.setCtx p c v).clk = s.clk := rfl
@[simp] theorem State.setCtx_mgmt (s : State) (p c : Nat) (v : Ctx) : (s.setCtx p c v).mgmt = s.mgmt := rfl
@[simp] theorem State.setCtx_fe (s : State) (p c : Nat) (v : Ctx) : (s.setCtx p c v).fe = s.fe := rfl
@[simp] theorem State.setCtx_pad (s : State) (p c : Nat) (v : Ctx) : (s.setCtx p c v).pad = s.pad := rfl
@[simp] theorem State.setCtx_cel (s : State) (p c : Nat) (v : Ctx) : (s.setCtx p c v).cel = s.cel := rfl
@[simp] theorem State.setCtx_que (s : State) (p c : Nat) (v : Ctx) : (s.setCtx p c v).que = s.que := rfl
@[simp] theorem State.setCtx_syn (s : State) (p c : Nat) (v : Ctx) : (s.setCtx p c v).syn = s.syn := rfl
@[simp] theorem State.setCtx_gang (s : State) (p c : Nat) (v : Ctx) : (s.setCtx p c v).gang = s.gang := rfl
@[simp] theorem State.setCtx_lk (s : State) (p c : Nat) (v : Ctx) : (s.setCtx p c v).lk = s.lk := rfl
@[simp] theorem State.setCtx_stg (s : State) (p c : Nat) (v : Ctx) : (s.setCtx p c v).stg = s.stg := rfl
@[simp] theorem State.setCtx_coll (s : State) (p c : Nat) (v : Ctx) : (s.setCtx p c v).coll = s.coll := rfl
@[simp] theorem State.setCtx_ckpt (s : State) (p c : Nat) (v : Ctx) : (s.setCtx p c v).ckpt = s.ckpt := rfl

@[simp] theorem State.setQueue_pending (s : State) (p q : Nat) (v : SwQueue) :
    (s.setQueue p q v).pending = s.pending := rfl
@[simp] theorem State.setQueue_sys (s : State) (p q : Nat) (v : SwQueue) : (s.setQueue p q v).sys = s.sys := rfl
@[simp] theorem State.setQueue_bus (s : State) (p q : Nat) (v : SwQueue) : (s.setQueue p q v).bus = s.bus := rfl
@[simp] theorem State.setQueue_host (s : State) (p q : Nat) (v : SwQueue) : (s.setQueue p q v).host = s.host := rfl
@[simp] theorem State.setQueue_err (s : State) (p q : Nat) (v : SwQueue) : (s.setQueue p q v).err = s.err := rfl
@[simp] theorem State.setQueue_sloe (s : State) (p q : Nat) (v : SwQueue) : (s.setQueue p q v).sloe = s.sloe := rfl
@[simp] theorem State.setQueue_fuse (s : State) (p q : Nat) (v : SwQueue) : (s.setQueue p q v).fuse = s.fuse := rfl
@[simp] theorem State.setQueue_region (s : State) (p q : Nat) (v : SwQueue) :
    (s.setQueue p q v).region = s.region := rfl
@[simp] theorem State.setQueue_pwr (s : State) (p q : Nat) (v : SwQueue) : (s.setQueue p q v).pwr = s.pwr := rfl
@[simp] theorem State.setQueue_clk (s : State) (p q : Nat) (v : SwQueue) : (s.setQueue p q v).clk = s.clk := rfl
@[simp] theorem State.setQueue_mgmt (s : State) (p q : Nat) (v : SwQueue) : (s.setQueue p q v).mgmt = s.mgmt := rfl
@[simp] theorem State.setQueue_parts (s : State) (p q : Nat) (v : SwQueue) : (s.setQueue p q v).parts = s.parts := rfl
@[simp] theorem State.setQueue_pad (s : State) (p q : Nat) (v : SwQueue) : (s.setQueue p q v).pad = s.pad := rfl
@[simp] theorem State.setQueue_cel (s : State) (p q : Nat) (v : SwQueue) : (s.setQueue p q v).cel = s.cel := rfl
@[simp] theorem State.setQueue_que (s : State) (p q : Nat) (v : SwQueue) : (s.setQueue p q v).que = s.que := rfl
@[simp] theorem State.setQueue_syn (s : State) (p q : Nat) (v : SwQueue) : (s.setQueue p q v).syn = s.syn := rfl
@[simp] theorem State.setQueue_gang (s : State) (p q : Nat) (v : SwQueue) : (s.setQueue p q v).gang = s.gang := rfl
@[simp] theorem State.setQueue_lk (s : State) (p q : Nat) (v : SwQueue) : (s.setQueue p q v).lk = s.lk := rfl
@[simp] theorem State.setQueue_stg (s : State) (p q : Nat) (v : SwQueue) : (s.setQueue p q v).stg = s.stg := rfl
@[simp] theorem State.setQueue_coll (s : State) (p q : Nat) (v : SwQueue) : (s.setQueue p q v).coll = s.coll := rfl
@[simp] theorem State.setQueue_ckpt (s : State) (p q : Nat) (v : SwQueue) : (s.setQueue p q v).ckpt = s.ckpt := rfl

@[simp] theorem State.setHandle_pending (s : State) (p h : Nat) (v : Handle) :
    (s.setHandle p h v).pending = s.pending := rfl
@[simp] theorem State.setHandle_sys (s : State) (p h : Nat) (v : Handle) : (s.setHandle p h v).sys = s.sys := rfl
@[simp] theorem State.setHandle_bus (s : State) (p h : Nat) (v : Handle) : (s.setHandle p h v).bus = s.bus := rfl
@[simp] theorem State.setHandle_host (s : State) (p h : Nat) (v : Handle) : (s.setHandle p h v).host = s.host := rfl
@[simp] theorem State.setHandle_err (s : State) (p h : Nat) (v : Handle) : (s.setHandle p h v).err = s.err := rfl
@[simp] theorem State.setHandle_sloe (s : State) (p h : Nat) (v : Handle) : (s.setHandle p h v).sloe = s.sloe := rfl
@[simp] theorem State.setHandle_fuse (s : State) (p h : Nat) (v : Handle) : (s.setHandle p h v).fuse = s.fuse := rfl
@[simp] theorem State.setHandle_region (s : State) (p h : Nat) (v : Handle) :
    (s.setHandle p h v).region = s.region := rfl
@[simp] theorem State.setHandle_pwr (s : State) (p h : Nat) (v : Handle) : (s.setHandle p h v).pwr = s.pwr := rfl
@[simp] theorem State.setHandle_clk (s : State) (p h : Nat) (v : Handle) : (s.setHandle p h v).clk = s.clk := rfl
@[simp] theorem State.setHandle_mgmt (s : State) (p h : Nat) (v : Handle) : (s.setHandle p h v).mgmt = s.mgmt := rfl
@[simp] theorem State.setHandle_parts (s : State) (p h : Nat) (v : Handle) : (s.setHandle p h v).parts = s.parts := rfl
@[simp] theorem State.setHandle_pad (s : State) (p h : Nat) (v : Handle) : (s.setHandle p h v).pad = s.pad := rfl
@[simp] theorem State.setHandle_cel (s : State) (p h : Nat) (v : Handle) : (s.setHandle p h v).cel = s.cel := rfl
@[simp] theorem State.setHandle_que (s : State) (p h : Nat) (v : Handle) : (s.setHandle p h v).que = s.que := rfl
@[simp] theorem State.setHandle_syn (s : State) (p h : Nat) (v : Handle) : (s.setHandle p h v).syn = s.syn := rfl
@[simp] theorem State.setHandle_gang (s : State) (p h : Nat) (v : Handle) : (s.setHandle p h v).gang = s.gang := rfl
@[simp] theorem State.setHandle_lk (s : State) (p h : Nat) (v : Handle) : (s.setHandle p h v).lk = s.lk := rfl
@[simp] theorem State.setHandle_stg (s : State) (p h : Nat) (v : Handle) : (s.setHandle p h v).stg = s.stg := rfl
@[simp] theorem State.setHandle_coll (s : State) (p h : Nat) (v : Handle) : (s.setHandle p h v).coll = s.coll := rfl
@[simp] theorem State.setHandle_ckpt (s : State) (p h : Nat) (v : Handle) : (s.setHandle p h v).ckpt = s.ckpt := rfl

@[simp] theorem State.setUse_pending (s : State) (p h n : Nat) : (s.setUse p h n).pending = s.pending := rfl
@[simp] theorem State.setUse_sys (s : State) (p h n : Nat) : (s.setUse p h n).sys = s.sys := rfl
@[simp] theorem State.setUse_bus (s : State) (p h n : Nat) : (s.setUse p h n).bus = s.bus := rfl
@[simp] theorem State.setUse_host (s : State) (p h n : Nat) : (s.setUse p h n).host = s.host := rfl
@[simp] theorem State.setUse_err (s : State) (p h n : Nat) : (s.setUse p h n).err = s.err := rfl
@[simp] theorem State.setUse_sloe (s : State) (p h n : Nat) : (s.setUse p h n).sloe = s.sloe := rfl
@[simp] theorem State.setUse_fuse (s : State) (p h n : Nat) : (s.setUse p h n).fuse = s.fuse := rfl
@[simp] theorem State.setUse_region (s : State) (p h n : Nat) : (s.setUse p h n).region = s.region := rfl
@[simp] theorem State.setUse_pwr (s : State) (p h n : Nat) : (s.setUse p h n).pwr = s.pwr := rfl
@[simp] theorem State.setUse_clk (s : State) (p h n : Nat) : (s.setUse p h n).clk = s.clk := rfl
@[simp] theorem State.setUse_mgmt (s : State) (p h n : Nat) : (s.setUse p h n).mgmt = s.mgmt := rfl
@[simp] theorem State.setUse_parts (s : State) (p h n : Nat) : (s.setUse p h n).parts = s.parts := rfl
@[simp] theorem State.setUse_pad (s : State) (p h n : Nat) : (s.setUse p h n).pad = s.pad := rfl
@[simp] theorem State.setUse_cel (s : State) (p h n : Nat) : (s.setUse p h n).cel = s.cel := rfl
@[simp] theorem State.setUse_que (s : State) (p h n : Nat) : (s.setUse p h n).que = s.que := rfl
@[simp] theorem State.setUse_syn (s : State) (p h n : Nat) : (s.setUse p h n).syn = s.syn := rfl
@[simp] theorem State.setUse_gang (s : State) (p h n : Nat) : (s.setUse p h n).gang = s.gang := rfl
@[simp] theorem State.setUse_lk (s : State) (p h n : Nat) : (s.setUse p h n).lk = s.lk := rfl
@[simp] theorem State.setUse_stg (s : State) (p h n : Nat) : (s.setUse p h n).stg = s.stg := rfl
@[simp] theorem State.setUse_coll (s : State) (p h n : Nat) : (s.setUse p h n).coll = s.coll := rfl
@[simp] theorem State.setUse_ckpt (s : State) (p h n : Nat) : (s.setUse p h n).ckpt = s.ckpt := rfl

@[simp] theorem State.setHalf_pending (s : State) (slot : Nat) (h : Bool) (v : Half) :
    (s.setHalf slot h v).pending = s.pending := rfl
@[simp] theorem State.setHalf_sys (s : State) (slot : Nat) (h : Bool) (v : Half) :
    (s.setHalf slot h v).sys = s.sys := rfl
@[simp] theorem State.setHalf_bus (s : State) (slot : Nat) (h : Bool) (v : Half) :
    (s.setHalf slot h v).bus = s.bus := rfl
@[simp] theorem State.setHalf_host (s : State) (slot : Nat) (h : Bool) (v : Half) :
    (s.setHalf slot h v).host = s.host := rfl
@[simp] theorem State.setHalf_err (s : State) (slot : Nat) (h : Bool) (v : Half) :
    (s.setHalf slot h v).err = s.err := rfl
@[simp] theorem State.setHalf_sloe (s : State) (slot : Nat) (h : Bool) (v : Half) :
    (s.setHalf slot h v).sloe = s.sloe := rfl
@[simp] theorem State.setHalf_fuse (s : State) (slot : Nat) (h : Bool) (v : Half) :
    (s.setHalf slot h v).fuse = s.fuse := rfl
@[simp] theorem State.setHalf_region (s : State) (slot : Nat) (h : Bool) (v : Half) :
    (s.setHalf slot h v).region = s.region := rfl
@[simp] theorem State.setHalf_pwr (s : State) (slot : Nat) (h : Bool) (v : Half) :
    (s.setHalf slot h v).pwr = s.pwr := rfl
@[simp] theorem State.setHalf_clk (s : State) (slot : Nat) (h : Bool) (v : Half) :
    (s.setHalf slot h v).clk = s.clk := rfl
@[simp] theorem State.setHalf_mgmt (s : State) (slot : Nat) (h : Bool) (v : Half) :
    (s.setHalf slot h v).mgmt = s.mgmt := rfl
@[simp] theorem State.setHalf_parts (s : State) (slot : Nat) (h : Bool) (v : Half) :
    (s.setHalf slot h v).parts = s.parts := rfl
@[simp] theorem State.setHalf_pad (s : State) (slot : Nat) (h : Bool) (v : Half) :
    (s.setHalf slot h v).pad = s.pad := rfl
@[simp] theorem State.setHalf_cel (s : State) (slot : Nat) (h : Bool) (v : Half) :
    (s.setHalf slot h v).cel = s.cel := rfl
@[simp] theorem State.setHalf_que (s : State) (slot : Nat) (h : Bool) (v : Half) :
    (s.setHalf slot h v).que = s.que := rfl
@[simp] theorem State.setHalf_syn (s : State) (slot : Nat) (h : Bool) (v : Half) :
    (s.setHalf slot h v).syn = s.syn := rfl
@[simp] theorem State.setHalf_gang (s : State) (slot : Nat) (h : Bool) (v : Half) :
    (s.setHalf slot h v).gang = s.gang := rfl
@[simp] theorem State.setHalf_lk (s : State) (slot : Nat) (h : Bool) (v : Half) : (s.setHalf slot h v).lk = s.lk := rfl
@[simp] theorem State.setHalf_stg (s : State) (slot : Nat) (h : Bool) (v : Half) :
    (s.setHalf slot h v).stg = s.stg := rfl
@[simp] theorem State.setHalf_coll (s : State) (slot : Nat) (h : Bool) (v : Half) :
    (s.setHalf slot h v).coll = s.coll := rfl
@[simp] theorem State.setHalf_ckpt (s : State) (slot : Nat) (h : Bool) (v : Half) :
    (s.setHalf slot h v).ckpt = s.ckpt := rfl

@[simp] theorem State.setFlight_pending (s : State) (r : RecRef) (st : FlightSt) :
    (s.setFlight r st).pending = s.pending := rfl
@[simp] theorem State.setFlight_sys (s : State) (r : RecRef) (st : FlightSt) : (s.setFlight r st).sys = s.sys := rfl
@[simp] theorem State.setFlight_bus (s : State) (r : RecRef) (st : FlightSt) : (s.setFlight r st).bus = s.bus := rfl
@[simp] theorem State.setFlight_host (s : State) (r : RecRef) (st : FlightSt) : (s.setFlight r st).host = s.host := rfl
@[simp] theorem State.setFlight_err (s : State) (r : RecRef) (st : FlightSt) : (s.setFlight r st).err = s.err := rfl
@[simp] theorem State.setFlight_sloe (s : State) (r : RecRef) (st : FlightSt) : (s.setFlight r st).sloe = s.sloe := rfl
@[simp] theorem State.setFlight_fuse (s : State) (r : RecRef) (st : FlightSt) : (s.setFlight r st).fuse = s.fuse := rfl
@[simp] theorem State.setFlight_region (s : State) (r : RecRef) (st : FlightSt) :
    (s.setFlight r st).region = s.region := rfl
@[simp] theorem State.setFlight_pwr (s : State) (r : RecRef) (st : FlightSt) : (s.setFlight r st).pwr = s.pwr := rfl
@[simp] theorem State.setFlight_clk (s : State) (r : RecRef) (st : FlightSt) : (s.setFlight r st).clk = s.clk := rfl
@[simp] theorem State.setFlight_mgmt (s : State) (r : RecRef) (st : FlightSt) : (s.setFlight r st).mgmt = s.mgmt := rfl
@[simp] theorem State.setFlight_parts (s : State) (r : RecRef) (st : FlightSt) :
    (s.setFlight r st).parts = s.parts := rfl
@[simp] theorem State.setFlight_pad (s : State) (r : RecRef) (st : FlightSt) : (s.setFlight r st).pad = s.pad := rfl
@[simp] theorem State.setFlight_cel (s : State) (r : RecRef) (st : FlightSt) : (s.setFlight r st).cel = s.cel := rfl
@[simp] theorem State.setFlight_que (s : State) (r : RecRef) (st : FlightSt) : (s.setFlight r st).que = s.que := rfl
@[simp] theorem State.setFlight_syn (s : State) (r : RecRef) (st : FlightSt) : (s.setFlight r st).syn = s.syn := rfl
@[simp] theorem State.setFlight_gang (s : State) (r : RecRef) (st : FlightSt) : (s.setFlight r st).gang = s.gang := rfl
@[simp] theorem State.setFlight_lk (s : State) (r : RecRef) (st : FlightSt) : (s.setFlight r st).lk = s.lk := rfl
@[simp] theorem State.setFlight_stg (s : State) (r : RecRef) (st : FlightSt) : (s.setFlight r st).stg = s.stg := rfl
@[simp] theorem State.setFlight_coll (s : State) (r : RecRef) (st : FlightSt) : (s.setFlight r st).coll = s.coll := rfl
@[simp] theorem State.setFlight_ckpt (s : State) (r : RecRef) (st : FlightSt) : (s.setFlight r st).ckpt = s.ckpt := rfl

@[simp] theorem State.setBank_pending (s : State) (b : Nat) (v : Bank) : (s.setBank b v).pending = s.pending := rfl
@[simp] theorem State.setBank_sys (s : State) (b : Nat) (v : Bank) : (s.setBank b v).sys = s.sys := rfl
@[simp] theorem State.setBank_bus (s : State) (b : Nat) (v : Bank) : (s.setBank b v).bus = s.bus := rfl
@[simp] theorem State.setBank_host (s : State) (b : Nat) (v : Bank) : (s.setBank b v).host = s.host := rfl
@[simp] theorem State.setBank_err (s : State) (b : Nat) (v : Bank) : (s.setBank b v).err = s.err := rfl
@[simp] theorem State.setBank_sloe (s : State) (b : Nat) (v : Bank) : (s.setBank b v).sloe = s.sloe := rfl
@[simp] theorem State.setBank_fuse (s : State) (b : Nat) (v : Bank) : (s.setBank b v).fuse = s.fuse := rfl
@[simp] theorem State.setBank_region (s : State) (b : Nat) (v : Bank) : (s.setBank b v).region = s.region := rfl
@[simp] theorem State.setBank_pwr (s : State) (b : Nat) (v : Bank) : (s.setBank b v).pwr = s.pwr := rfl
@[simp] theorem State.setBank_clk (s : State) (b : Nat) (v : Bank) : (s.setBank b v).clk = s.clk := rfl
@[simp] theorem State.setBank_mgmt (s : State) (b : Nat) (v : Bank) : (s.setBank b v).mgmt = s.mgmt := rfl
@[simp] theorem State.setBank_fe (s : State) (b : Nat) (v : Bank) : (s.setBank b v).fe = s.fe := rfl
@[simp] theorem State.setBank_parts (s : State) (b : Nat) (v : Bank) : (s.setBank b v).parts = s.parts := rfl
@[simp] theorem State.setBank_cel (s : State) (b : Nat) (v : Bank) : (s.setBank b v).cel = s.cel := rfl
@[simp] theorem State.setBank_que (s : State) (b : Nat) (v : Bank) : (s.setBank b v).que = s.que := rfl
@[simp] theorem State.setBank_syn (s : State) (b : Nat) (v : Bank) : (s.setBank b v).syn = s.syn := rfl
@[simp] theorem State.setBank_gang (s : State) (b : Nat) (v : Bank) : (s.setBank b v).gang = s.gang := rfl
@[simp] theorem State.setBank_lk (s : State) (b : Nat) (v : Bank) : (s.setBank b v).lk = s.lk := rfl
@[simp] theorem State.setBank_stg (s : State) (b : Nat) (v : Bank) : (s.setBank b v).stg = s.stg := rfl
@[simp] theorem State.setBank_coll (s : State) (b : Nat) (v : Bank) : (s.setBank b v).coll = s.coll := rfl
@[simp] theorem State.setBank_ckpt (s : State) (b : Nat) (v : Bank) : (s.setBank b v).ckpt = s.ckpt := rfl

@[simp] theorem State.setTier_pending (s : State) (r t : Nat) (v : RetSt) : (s.setTier r t v).pending = s.pending := rfl
@[simp] theorem State.setTier_sys (s : State) (r t : Nat) (v : RetSt) : (s.setTier r t v).sys = s.sys := rfl
@[simp] theorem State.setTier_bus (s : State) (r t : Nat) (v : RetSt) : (s.setTier r t v).bus = s.bus := rfl
@[simp] theorem State.setTier_host (s : State) (r t : Nat) (v : RetSt) : (s.setTier r t v).host = s.host := rfl
@[simp] theorem State.setTier_err (s : State) (r t : Nat) (v : RetSt) : (s.setTier r t v).err = s.err := rfl
@[simp] theorem State.setTier_sloe (s : State) (r t : Nat) (v : RetSt) : (s.setTier r t v).sloe = s.sloe := rfl
@[simp] theorem State.setTier_fuse (s : State) (r t : Nat) (v : RetSt) : (s.setTier r t v).fuse = s.fuse := rfl
@[simp] theorem State.setTier_region (s : State) (r t : Nat) (v : RetSt) : (s.setTier r t v).region = s.region := rfl
@[simp] theorem State.setTier_pwr (s : State) (r t : Nat) (v : RetSt) : (s.setTier r t v).pwr = s.pwr := rfl
@[simp] theorem State.setTier_clk (s : State) (r t : Nat) (v : RetSt) : (s.setTier r t v).clk = s.clk := rfl
@[simp] theorem State.setTier_mgmt (s : State) (r t : Nat) (v : RetSt) : (s.setTier r t v).mgmt = s.mgmt := rfl
@[simp] theorem State.setTier_fe (s : State) (r t : Nat) (v : RetSt) : (s.setTier r t v).fe = s.fe := rfl
@[simp] theorem State.setTier_parts (s : State) (r t : Nat) (v : RetSt) : (s.setTier r t v).parts = s.parts := rfl
@[simp] theorem State.setTier_cel (s : State) (r t : Nat) (v : RetSt) : (s.setTier r t v).cel = s.cel := rfl
@[simp] theorem State.setTier_que (s : State) (r t : Nat) (v : RetSt) : (s.setTier r t v).que = s.que := rfl
@[simp] theorem State.setTier_syn (s : State) (r t : Nat) (v : RetSt) : (s.setTier r t v).syn = s.syn := rfl
@[simp] theorem State.setTier_gang (s : State) (r t : Nat) (v : RetSt) : (s.setTier r t v).gang = s.gang := rfl
@[simp] theorem State.setTier_lk (s : State) (r t : Nat) (v : RetSt) : (s.setTier r t v).lk = s.lk := rfl
@[simp] theorem State.setTier_stg (s : State) (r t : Nat) (v : RetSt) : (s.setTier r t v).stg = s.stg := rfl
@[simp] theorem State.setTier_coll (s : State) (r t : Nat) (v : RetSt) : (s.setTier r t v).coll = s.coll := rfl
@[simp] theorem State.setTier_ckpt (s : State) (r t : Nat) (v : RetSt) : (s.setTier r t v).ckpt = s.ckpt := rfl

@[simp] theorem State.setChan_pending (s : State) (n : Nat) (v : Option ChanCmd) :
    (s.setChan n v).pending = s.pending := rfl
@[simp] theorem State.setChan_sys (s : State) (n : Nat) (v : Option ChanCmd) : (s.setChan n v).sys = s.sys := rfl
@[simp] theorem State.setChan_bus (s : State) (n : Nat) (v : Option ChanCmd) : (s.setChan n v).bus = s.bus := rfl
@[simp] theorem State.setChan_host (s : State) (n : Nat) (v : Option ChanCmd) : (s.setChan n v).host = s.host := rfl
@[simp] theorem State.setChan_err (s : State) (n : Nat) (v : Option ChanCmd) : (s.setChan n v).err = s.err := rfl
@[simp] theorem State.setChan_sloe (s : State) (n : Nat) (v : Option ChanCmd) : (s.setChan n v).sloe = s.sloe := rfl
@[simp] theorem State.setChan_fuse (s : State) (n : Nat) (v : Option ChanCmd) : (s.setChan n v).fuse = s.fuse := rfl
@[simp] theorem State.setChan_region (s : State) (n : Nat) (v : Option ChanCmd) :
    (s.setChan n v).region = s.region := rfl
@[simp] theorem State.setChan_pwr (s : State) (n : Nat) (v : Option ChanCmd) : (s.setChan n v).pwr = s.pwr := rfl
@[simp] theorem State.setChan_clk (s : State) (n : Nat) (v : Option ChanCmd) : (s.setChan n v).clk = s.clk := rfl
@[simp] theorem State.setChan_mgmt (s : State) (n : Nat) (v : Option ChanCmd) : (s.setChan n v).mgmt = s.mgmt := rfl
@[simp] theorem State.setChan_fe (s : State) (n : Nat) (v : Option ChanCmd) : (s.setChan n v).fe = s.fe := rfl
@[simp] theorem State.setChan_parts (s : State) (n : Nat) (v : Option ChanCmd) : (s.setChan n v).parts = s.parts := rfl
@[simp] theorem State.setChan_pad (s : State) (n : Nat) (v : Option ChanCmd) : (s.setChan n v).pad = s.pad := rfl
@[simp] theorem State.setChan_que (s : State) (n : Nat) (v : Option ChanCmd) : (s.setChan n v).que = s.que := rfl
@[simp] theorem State.setChan_syn (s : State) (n : Nat) (v : Option ChanCmd) : (s.setChan n v).syn = s.syn := rfl
@[simp] theorem State.setChan_gang (s : State) (n : Nat) (v : Option ChanCmd) : (s.setChan n v).gang = s.gang := rfl
@[simp] theorem State.setChan_lk (s : State) (n : Nat) (v : Option ChanCmd) : (s.setChan n v).lk = s.lk := rfl
@[simp] theorem State.setChan_stg (s : State) (n : Nat) (v : Option ChanCmd) : (s.setChan n v).stg = s.stg := rfl
@[simp] theorem State.setChan_coll (s : State) (n : Nat) (v : Option ChanCmd) : (s.setChan n v).coll = s.coll := rfl
@[simp] theorem State.setChan_ckpt (s : State) (n : Nat) (v : Option ChanCmd) : (s.setChan n v).ckpt = s.ckpt := rfl

@[simp] theorem State.setPte_pending (s : State) (p vpn : Nat) (v : BitVec 64) :
    (s.setPte p vpn v).pending = s.pending := rfl
@[simp] theorem State.setPte_sys (s : State) (p vpn : Nat) (v : BitVec 64) : (s.setPte p vpn v).sys = s.sys := rfl
@[simp] theorem State.setPte_bus (s : State) (p vpn : Nat) (v : BitVec 64) : (s.setPte p vpn v).bus = s.bus := rfl
@[simp] theorem State.setPte_host (s : State) (p vpn : Nat) (v : BitVec 64) : (s.setPte p vpn v).host = s.host := rfl
@[simp] theorem State.setPte_err (s : State) (p vpn : Nat) (v : BitVec 64) : (s.setPte p vpn v).err = s.err := rfl
@[simp] theorem State.setPte_sloe (s : State) (p vpn : Nat) (v : BitVec 64) : (s.setPte p vpn v).sloe = s.sloe := rfl
@[simp] theorem State.setPte_fuse (s : State) (p vpn : Nat) (v : BitVec 64) : (s.setPte p vpn v).fuse = s.fuse := rfl
@[simp] theorem State.setPte_region (s : State) (p vpn : Nat) (v : BitVec 64) :
    (s.setPte p vpn v).region = s.region := rfl
@[simp] theorem State.setPte_pwr (s : State) (p vpn : Nat) (v : BitVec 64) : (s.setPte p vpn v).pwr = s.pwr := rfl
@[simp] theorem State.setPte_clk (s : State) (p vpn : Nat) (v : BitVec 64) : (s.setPte p vpn v).clk = s.clk := rfl
@[simp] theorem State.setPte_mgmt (s : State) (p vpn : Nat) (v : BitVec 64) : (s.setPte p vpn v).mgmt = s.mgmt := rfl
@[simp] theorem State.setPte_fe (s : State) (p vpn : Nat) (v : BitVec 64) : (s.setPte p vpn v).fe = s.fe := rfl
@[simp] theorem State.setPte_parts (s : State) (p vpn : Nat) (v : BitVec 64) : (s.setPte p vpn v).parts = s.parts := rfl
@[simp] theorem State.setPte_pad (s : State) (p vpn : Nat) (v : BitVec 64) : (s.setPte p vpn v).pad = s.pad := rfl
@[simp] theorem State.setPte_que (s : State) (p vpn : Nat) (v : BitVec 64) : (s.setPte p vpn v).que = s.que := rfl
@[simp] theorem State.setPte_syn (s : State) (p vpn : Nat) (v : BitVec 64) : (s.setPte p vpn v).syn = s.syn := rfl
@[simp] theorem State.setPte_gang (s : State) (p vpn : Nat) (v : BitVec 64) : (s.setPte p vpn v).gang = s.gang := rfl
@[simp] theorem State.setPte_lk (s : State) (p vpn : Nat) (v : BitVec 64) : (s.setPte p vpn v).lk = s.lk := rfl
@[simp] theorem State.setPte_stg (s : State) (p vpn : Nat) (v : BitVec 64) : (s.setPte p vpn v).stg = s.stg := rfl
@[simp] theorem State.setPte_coll (s : State) (p vpn : Nat) (v : BitVec 64) : (s.setPte p vpn v).coll = s.coll := rfl
@[simp] theorem State.setPte_ckpt (s : State) (p vpn : Nat) (v : BitVec 64) : (s.setPte p vpn v).ckpt = s.ckpt := rfl

@[simp] theorem State.setCount_pending (s : State) (c n : Nat) (v : BitVec 32) :
    (s.setCount c n v).pending = s.pending := rfl
@[simp] theorem State.setCount_sys (s : State) (c n : Nat) (v : BitVec 32) : (s.setCount c n v).sys = s.sys := rfl
@[simp] theorem State.setCount_bus (s : State) (c n : Nat) (v : BitVec 32) : (s.setCount c n v).bus = s.bus := rfl
@[simp] theorem State.setCount_host (s : State) (c n : Nat) (v : BitVec 32) : (s.setCount c n v).host = s.host := rfl
@[simp] theorem State.setCount_err (s : State) (c n : Nat) (v : BitVec 32) : (s.setCount c n v).err = s.err := rfl
@[simp] theorem State.setCount_sloe (s : State) (c n : Nat) (v : BitVec 32) : (s.setCount c n v).sloe = s.sloe := rfl
@[simp] theorem State.setCount_fuse (s : State) (c n : Nat) (v : BitVec 32) : (s.setCount c n v).fuse = s.fuse := rfl
@[simp] theorem State.setCount_region (s : State) (c n : Nat) (v : BitVec 32) :
    (s.setCount c n v).region = s.region := rfl
@[simp] theorem State.setCount_pwr (s : State) (c n : Nat) (v : BitVec 32) : (s.setCount c n v).pwr = s.pwr := rfl
@[simp] theorem State.setCount_clk (s : State) (c n : Nat) (v : BitVec 32) : (s.setCount c n v).clk = s.clk := rfl
@[simp] theorem State.setCount_mgmt (s : State) (c n : Nat) (v : BitVec 32) : (s.setCount c n v).mgmt = s.mgmt := rfl
@[simp] theorem State.setCount_fe (s : State) (c n : Nat) (v : BitVec 32) : (s.setCount c n v).fe = s.fe := rfl
@[simp] theorem State.setCount_parts (s : State) (c n : Nat) (v : BitVec 32) : (s.setCount c n v).parts = s.parts := rfl
@[simp] theorem State.setCount_pad (s : State) (c n : Nat) (v : BitVec 32) : (s.setCount c n v).pad = s.pad := rfl
@[simp] theorem State.setCount_cel (s : State) (c n : Nat) (v : BitVec 32) : (s.setCount c n v).cel = s.cel := rfl
@[simp] theorem State.setCount_que (s : State) (c n : Nat) (v : BitVec 32) : (s.setCount c n v).que = s.que := rfl
@[simp] theorem State.setCount_gang (s : State) (c n : Nat) (v : BitVec 32) : (s.setCount c n v).gang = s.gang := rfl
@[simp] theorem State.setCount_lk (s : State) (c n : Nat) (v : BitVec 32) : (s.setCount c n v).lk = s.lk := rfl
@[simp] theorem State.setCount_stg (s : State) (c n : Nat) (v : BitVec 32) : (s.setCount c n v).stg = s.stg := rfl
@[simp] theorem State.setCount_coll (s : State) (c n : Nat) (v : BitVec 32) : (s.setCount c n v).coll = s.coll := rfl
@[simp] theorem State.setCount_ckpt (s : State) (c n : Nat) (v : BitVec 32) : (s.setCount c n v).ckpt = s.ckpt := rfl

@[simp] theorem State.setBramble_pending (s : State) (p : Nat) (v : Bramble) :
    (s.setBramble p v).pending = s.pending := rfl
@[simp] theorem State.setBramble_sys (s : State) (p : Nat) (v : Bramble) : (s.setBramble p v).sys = s.sys := rfl
@[simp] theorem State.setBramble_bus (s : State) (p : Nat) (v : Bramble) : (s.setBramble p v).bus = s.bus := rfl
@[simp] theorem State.setBramble_host (s : State) (p : Nat) (v : Bramble) : (s.setBramble p v).host = s.host := rfl
@[simp] theorem State.setBramble_err (s : State) (p : Nat) (v : Bramble) : (s.setBramble p v).err = s.err := rfl
@[simp] theorem State.setBramble_sloe (s : State) (p : Nat) (v : Bramble) : (s.setBramble p v).sloe = s.sloe := rfl
@[simp] theorem State.setBramble_fuse (s : State) (p : Nat) (v : Bramble) : (s.setBramble p v).fuse = s.fuse := rfl
@[simp] theorem State.setBramble_region (s : State) (p : Nat) (v : Bramble) :
    (s.setBramble p v).region = s.region := rfl
@[simp] theorem State.setBramble_pwr (s : State) (p : Nat) (v : Bramble) : (s.setBramble p v).pwr = s.pwr := rfl
@[simp] theorem State.setBramble_clk (s : State) (p : Nat) (v : Bramble) : (s.setBramble p v).clk = s.clk := rfl
@[simp] theorem State.setBramble_mgmt (s : State) (p : Nat) (v : Bramble) : (s.setBramble p v).mgmt = s.mgmt := rfl
@[simp] theorem State.setBramble_fe (s : State) (p : Nat) (v : Bramble) : (s.setBramble p v).fe = s.fe := rfl
@[simp] theorem State.setBramble_parts (s : State) (p : Nat) (v : Bramble) : (s.setBramble p v).parts = s.parts := rfl
@[simp] theorem State.setBramble_pad (s : State) (p : Nat) (v : Bramble) : (s.setBramble p v).pad = s.pad := rfl
@[simp] theorem State.setBramble_cel (s : State) (p : Nat) (v : Bramble) : (s.setBramble p v).cel = s.cel := rfl
@[simp] theorem State.setBramble_que (s : State) (p : Nat) (v : Bramble) : (s.setBramble p v).que = s.que := rfl
@[simp] theorem State.setBramble_gang (s : State) (p : Nat) (v : Bramble) : (s.setBramble p v).gang = s.gang := rfl
@[simp] theorem State.setBramble_lk (s : State) (p : Nat) (v : Bramble) : (s.setBramble p v).lk = s.lk := rfl
@[simp] theorem State.setBramble_stg (s : State) (p : Nat) (v : Bramble) : (s.setBramble p v).stg = s.stg := rfl
@[simp] theorem State.setBramble_coll (s : State) (p : Nat) (v : Bramble) : (s.setBramble p v).coll = s.coll := rfl
@[simp] theorem State.setBramble_ckpt (s : State) (p : Nat) (v : Bramble) : (s.setBramble p v).ckpt = s.ckpt := rfl

@[simp] theorem State.setInput_pending (s : State) (c : Nat) (ms : List SyncMsg) :
    (s.setInput c ms).pending = s.pending := rfl
@[simp] theorem State.setInput_sys (s : State) (c : Nat) (ms : List SyncMsg) : (s.setInput c ms).sys = s.sys := rfl
@[simp] theorem State.setInput_bus (s : State) (c : Nat) (ms : List SyncMsg) : (s.setInput c ms).bus = s.bus := rfl
@[simp] theorem State.setInput_host (s : State) (c : Nat) (ms : List SyncMsg) : (s.setInput c ms).host = s.host := rfl
@[simp] theorem State.setInput_err (s : State) (c : Nat) (ms : List SyncMsg) : (s.setInput c ms).err = s.err := rfl
@[simp] theorem State.setInput_sloe (s : State) (c : Nat) (ms : List SyncMsg) : (s.setInput c ms).sloe = s.sloe := rfl
@[simp] theorem State.setInput_fuse (s : State) (c : Nat) (ms : List SyncMsg) : (s.setInput c ms).fuse = s.fuse := rfl
@[simp] theorem State.setInput_region (s : State) (c : Nat) (ms : List SyncMsg) :
    (s.setInput c ms).region = s.region := rfl
@[simp] theorem State.setInput_pwr (s : State) (c : Nat) (ms : List SyncMsg) : (s.setInput c ms).pwr = s.pwr := rfl
@[simp] theorem State.setInput_clk (s : State) (c : Nat) (ms : List SyncMsg) : (s.setInput c ms).clk = s.clk := rfl
@[simp] theorem State.setInput_mgmt (s : State) (c : Nat) (ms : List SyncMsg) : (s.setInput c ms).mgmt = s.mgmt := rfl
@[simp] theorem State.setInput_fe (s : State) (c : Nat) (ms : List SyncMsg) : (s.setInput c ms).fe = s.fe := rfl
@[simp] theorem State.setInput_parts (s : State) (c : Nat) (ms : List SyncMsg) :
    (s.setInput c ms).parts = s.parts := rfl
@[simp] theorem State.setInput_pad (s : State) (c : Nat) (ms : List SyncMsg) : (s.setInput c ms).pad = s.pad := rfl
@[simp] theorem State.setInput_cel (s : State) (c : Nat) (ms : List SyncMsg) : (s.setInput c ms).cel = s.cel := rfl
@[simp] theorem State.setInput_que (s : State) (c : Nat) (ms : List SyncMsg) : (s.setInput c ms).que = s.que := rfl
@[simp] theorem State.setInput_gang (s : State) (c : Nat) (ms : List SyncMsg) : (s.setInput c ms).gang = s.gang := rfl
@[simp] theorem State.setInput_lk (s : State) (c : Nat) (ms : List SyncMsg) : (s.setInput c ms).lk = s.lk := rfl
@[simp] theorem State.setInput_stg (s : State) (c : Nat) (ms : List SyncMsg) : (s.setInput c ms).stg = s.stg := rfl
@[simp] theorem State.setInput_coll (s : State) (c : Nat) (ms : List SyncMsg) : (s.setInput c ms).coll = s.coll := rfl
@[simp] theorem State.setInput_ckpt (s : State) (c : Nat) (ms : List SyncMsg) : (s.setInput c ms).ckpt = s.ckpt := rfl

@[simp] theorem State.setRegion_pending (s : State) (r : Nat) (v : RegionPt) :
    (s.setRegion r v).pending = s.pending := rfl
@[simp] theorem State.setRegion_sys (s : State) (r : Nat) (v : RegionPt) : (s.setRegion r v).sys = s.sys := rfl
@[simp] theorem State.setRegion_bus (s : State) (r : Nat) (v : RegionPt) : (s.setRegion r v).bus = s.bus := rfl
@[simp] theorem State.setRegion_host (s : State) (r : Nat) (v : RegionPt) : (s.setRegion r v).host = s.host := rfl
@[simp] theorem State.setRegion_err (s : State) (r : Nat) (v : RegionPt) : (s.setRegion r v).err = s.err := rfl
@[simp] theorem State.setRegion_sloe (s : State) (r : Nat) (v : RegionPt) : (s.setRegion r v).sloe = s.sloe := rfl
@[simp] theorem State.setRegion_fuse (s : State) (r : Nat) (v : RegionPt) : (s.setRegion r v).fuse = s.fuse := rfl
@[simp] theorem State.setRegion_pwr (s : State) (r : Nat) (v : RegionPt) : (s.setRegion r v).pwr = s.pwr := rfl
@[simp] theorem State.setRegion_clk (s : State) (r : Nat) (v : RegionPt) : (s.setRegion r v).clk = s.clk := rfl
@[simp] theorem State.setRegion_mgmt (s : State) (r : Nat) (v : RegionPt) : (s.setRegion r v).mgmt = s.mgmt := rfl
@[simp] theorem State.setRegion_fe (s : State) (r : Nat) (v : RegionPt) : (s.setRegion r v).fe = s.fe := rfl
@[simp] theorem State.setRegion_parts (s : State) (r : Nat) (v : RegionPt) : (s.setRegion r v).parts = s.parts := rfl
@[simp] theorem State.setRegion_pad (s : State) (r : Nat) (v : RegionPt) : (s.setRegion r v).pad = s.pad := rfl
@[simp] theorem State.setRegion_cel (s : State) (r : Nat) (v : RegionPt) : (s.setRegion r v).cel = s.cel := rfl
@[simp] theorem State.setRegion_que (s : State) (r : Nat) (v : RegionPt) : (s.setRegion r v).que = s.que := rfl
@[simp] theorem State.setRegion_syn (s : State) (r : Nat) (v : RegionPt) : (s.setRegion r v).syn = s.syn := rfl
@[simp] theorem State.setRegion_gang (s : State) (r : Nat) (v : RegionPt) : (s.setRegion r v).gang = s.gang := rfl
@[simp] theorem State.setRegion_lk (s : State) (r : Nat) (v : RegionPt) : (s.setRegion r v).lk = s.lk := rfl
@[simp] theorem State.setRegion_stg (s : State) (r : Nat) (v : RegionPt) : (s.setRegion r v).stg = s.stg := rfl
@[simp] theorem State.setRegion_coll (s : State) (r : Nat) (v : RegionPt) : (s.setRegion r v).coll = s.coll := rfl
@[simp] theorem State.setRegion_ckpt (s : State) (r : Nat) (v : RegionPt) : (s.setRegion r v).ckpt = s.ckpt := rfl

@[simp] theorem State.setQue_pending (s : State) (q : QInst) (v : QueueSt) : (s.setQue q v).pending = s.pending := rfl
@[simp] theorem State.setQue_sys (s : State) (q : QInst) (v : QueueSt) : (s.setQue q v).sys = s.sys := rfl
@[simp] theorem State.setQue_bus (s : State) (q : QInst) (v : QueueSt) : (s.setQue q v).bus = s.bus := rfl
@[simp] theorem State.setQue_host (s : State) (q : QInst) (v : QueueSt) : (s.setQue q v).host = s.host := rfl
@[simp] theorem State.setQue_err (s : State) (q : QInst) (v : QueueSt) : (s.setQue q v).err = s.err := rfl
@[simp] theorem State.setQue_sloe (s : State) (q : QInst) (v : QueueSt) : (s.setQue q v).sloe = s.sloe := rfl
@[simp] theorem State.setQue_fuse (s : State) (q : QInst) (v : QueueSt) : (s.setQue q v).fuse = s.fuse := rfl
@[simp] theorem State.setQue_region (s : State) (q : QInst) (v : QueueSt) : (s.setQue q v).region = s.region := rfl
@[simp] theorem State.setQue_pwr (s : State) (q : QInst) (v : QueueSt) : (s.setQue q v).pwr = s.pwr := rfl
@[simp] theorem State.setQue_clk (s : State) (q : QInst) (v : QueueSt) : (s.setQue q v).clk = s.clk := rfl
@[simp] theorem State.setQue_mgmt (s : State) (q : QInst) (v : QueueSt) : (s.setQue q v).mgmt = s.mgmt := rfl
@[simp] theorem State.setQue_fe (s : State) (q : QInst) (v : QueueSt) : (s.setQue q v).fe = s.fe := rfl
@[simp] theorem State.setQue_parts (s : State) (q : QInst) (v : QueueSt) : (s.setQue q v).parts = s.parts := rfl
@[simp] theorem State.setQue_pad (s : State) (q : QInst) (v : QueueSt) : (s.setQue q v).pad = s.pad := rfl
@[simp] theorem State.setQue_cel (s : State) (q : QInst) (v : QueueSt) : (s.setQue q v).cel = s.cel := rfl
@[simp] theorem State.setQue_syn (s : State) (q : QInst) (v : QueueSt) : (s.setQue q v).syn = s.syn := rfl
@[simp] theorem State.setQue_gang (s : State) (q : QInst) (v : QueueSt) : (s.setQue q v).gang = s.gang := rfl
@[simp] theorem State.setQue_lk (s : State) (q : QInst) (v : QueueSt) : (s.setQue q v).lk = s.lk := rfl
@[simp] theorem State.setQue_stg (s : State) (q : QInst) (v : QueueSt) : (s.setQue q v).stg = s.stg := rfl
@[simp] theorem State.setQue_coll (s : State) (q : QInst) (v : QueueSt) : (s.setQue q v).coll = s.coll := rfl
@[simp] theorem State.setQue_ckpt (s : State) (q : QInst) (v : QueueSt) : (s.setQue q v).ckpt = s.ckpt := rfl

@[simp] theorem State.setAct_pending (s : State) (c t : Nat) (a : TileAct) : (s.setAct c t a).pending = s.pending := rfl
@[simp] theorem State.setAct_sys (s : State) (c t : Nat) (a : TileAct) : (s.setAct c t a).sys = s.sys := rfl
@[simp] theorem State.setAct_bus (s : State) (c t : Nat) (a : TileAct) : (s.setAct c t a).bus = s.bus := rfl
@[simp] theorem State.setAct_host (s : State) (c t : Nat) (a : TileAct) : (s.setAct c t a).host = s.host := rfl
@[simp] theorem State.setAct_err (s : State) (c t : Nat) (a : TileAct) : (s.setAct c t a).err = s.err := rfl
@[simp] theorem State.setAct_sloe (s : State) (c t : Nat) (a : TileAct) : (s.setAct c t a).sloe = s.sloe := rfl
@[simp] theorem State.setAct_fuse (s : State) (c t : Nat) (a : TileAct) : (s.setAct c t a).fuse = s.fuse := rfl
@[simp] theorem State.setAct_region (s : State) (c t : Nat) (a : TileAct) : (s.setAct c t a).region = s.region := rfl
@[simp] theorem State.setAct_pwr (s : State) (c t : Nat) (a : TileAct) : (s.setAct c t a).pwr = s.pwr := rfl
@[simp] theorem State.setAct_clk (s : State) (c t : Nat) (a : TileAct) : (s.setAct c t a).clk = s.clk := rfl
@[simp] theorem State.setAct_mgmt (s : State) (c t : Nat) (a : TileAct) : (s.setAct c t a).mgmt = s.mgmt := rfl
@[simp] theorem State.setAct_fe (s : State) (c t : Nat) (a : TileAct) : (s.setAct c t a).fe = s.fe := rfl
@[simp] theorem State.setAct_parts (s : State) (c t : Nat) (a : TileAct) : (s.setAct c t a).parts = s.parts := rfl
@[simp] theorem State.setAct_pad (s : State) (c t : Nat) (a : TileAct) : (s.setAct c t a).pad = s.pad := rfl
@[simp] theorem State.setAct_cel (s : State) (c t : Nat) (a : TileAct) : (s.setAct c t a).cel = s.cel := rfl
@[simp] theorem State.setAct_que (s : State) (c t : Nat) (a : TileAct) : (s.setAct c t a).que = s.que := rfl
@[simp] theorem State.setAct_syn (s : State) (c t : Nat) (a : TileAct) : (s.setAct c t a).syn = s.syn := rfl
@[simp] theorem State.setAct_lk (s : State) (c t : Nat) (a : TileAct) : (s.setAct c t a).lk = s.lk := rfl
@[simp] theorem State.setAct_stg (s : State) (c t : Nat) (a : TileAct) : (s.setAct c t a).stg = s.stg := rfl
@[simp] theorem State.setAct_coll (s : State) (c t : Nat) (a : TileAct) : (s.setAct c t a).coll = s.coll := rfl
@[simp] theorem State.setAct_ckpt (s : State) (c t : Nat) (a : TileAct) : (s.setAct c t a).ckpt = s.ckpt := rfl

@[simp] theorem State.setLink_pending (s : State) (l : Nat) (v : LinkSt) : (s.setLink l v).pending = s.pending := rfl
@[simp] theorem State.setLink_sys (s : State) (l : Nat) (v : LinkSt) : (s.setLink l v).sys = s.sys := rfl
@[simp] theorem State.setLink_bus (s : State) (l : Nat) (v : LinkSt) : (s.setLink l v).bus = s.bus := rfl
@[simp] theorem State.setLink_host (s : State) (l : Nat) (v : LinkSt) : (s.setLink l v).host = s.host := rfl
@[simp] theorem State.setLink_err (s : State) (l : Nat) (v : LinkSt) : (s.setLink l v).err = s.err := rfl
@[simp] theorem State.setLink_sloe (s : State) (l : Nat) (v : LinkSt) : (s.setLink l v).sloe = s.sloe := rfl
@[simp] theorem State.setLink_fuse (s : State) (l : Nat) (v : LinkSt) : (s.setLink l v).fuse = s.fuse := rfl
@[simp] theorem State.setLink_region (s : State) (l : Nat) (v : LinkSt) : (s.setLink l v).region = s.region := rfl
@[simp] theorem State.setLink_pwr (s : State) (l : Nat) (v : LinkSt) : (s.setLink l v).pwr = s.pwr := rfl
@[simp] theorem State.setLink_clk (s : State) (l : Nat) (v : LinkSt) : (s.setLink l v).clk = s.clk := rfl
@[simp] theorem State.setLink_mgmt (s : State) (l : Nat) (v : LinkSt) : (s.setLink l v).mgmt = s.mgmt := rfl
@[simp] theorem State.setLink_fe (s : State) (l : Nat) (v : LinkSt) : (s.setLink l v).fe = s.fe := rfl
@[simp] theorem State.setLink_parts (s : State) (l : Nat) (v : LinkSt) : (s.setLink l v).parts = s.parts := rfl
@[simp] theorem State.setLink_pad (s : State) (l : Nat) (v : LinkSt) : (s.setLink l v).pad = s.pad := rfl
@[simp] theorem State.setLink_cel (s : State) (l : Nat) (v : LinkSt) : (s.setLink l v).cel = s.cel := rfl
@[simp] theorem State.setLink_que (s : State) (l : Nat) (v : LinkSt) : (s.setLink l v).que = s.que := rfl
@[simp] theorem State.setLink_syn (s : State) (l : Nat) (v : LinkSt) : (s.setLink l v).syn = s.syn := rfl
@[simp] theorem State.setLink_gang (s : State) (l : Nat) (v : LinkSt) : (s.setLink l v).gang = s.gang := rfl
@[simp] theorem State.setLink_stg (s : State) (l : Nat) (v : LinkSt) : (s.setLink l v).stg = s.stg := rfl
@[simp] theorem State.setLink_coll (s : State) (l : Nat) (v : LinkSt) : (s.setLink l v).coll = s.coll := rfl
@[simp] theorem State.setLink_ckpt (s : State) (l : Nat) (v : LinkSt) : (s.setLink l v).ckpt = s.ckpt := rfl

@[simp] theorem State.setPort_pending (s : State) (p : Nat) (v : PortSt) : (s.setPort p v).pending = s.pending := rfl
@[simp] theorem State.setPort_sys (s : State) (p : Nat) (v : PortSt) : (s.setPort p v).sys = s.sys := rfl
@[simp] theorem State.setPort_bus (s : State) (p : Nat) (v : PortSt) : (s.setPort p v).bus = s.bus := rfl
@[simp] theorem State.setPort_host (s : State) (p : Nat) (v : PortSt) : (s.setPort p v).host = s.host := rfl
@[simp] theorem State.setPort_err (s : State) (p : Nat) (v : PortSt) : (s.setPort p v).err = s.err := rfl
@[simp] theorem State.setPort_sloe (s : State) (p : Nat) (v : PortSt) : (s.setPort p v).sloe = s.sloe := rfl
@[simp] theorem State.setPort_fuse (s : State) (p : Nat) (v : PortSt) : (s.setPort p v).fuse = s.fuse := rfl
@[simp] theorem State.setPort_region (s : State) (p : Nat) (v : PortSt) : (s.setPort p v).region = s.region := rfl
@[simp] theorem State.setPort_pwr (s : State) (p : Nat) (v : PortSt) : (s.setPort p v).pwr = s.pwr := rfl
@[simp] theorem State.setPort_clk (s : State) (p : Nat) (v : PortSt) : (s.setPort p v).clk = s.clk := rfl
@[simp] theorem State.setPort_mgmt (s : State) (p : Nat) (v : PortSt) : (s.setPort p v).mgmt = s.mgmt := rfl
@[simp] theorem State.setPort_fe (s : State) (p : Nat) (v : PortSt) : (s.setPort p v).fe = s.fe := rfl
@[simp] theorem State.setPort_parts (s : State) (p : Nat) (v : PortSt) : (s.setPort p v).parts = s.parts := rfl
@[simp] theorem State.setPort_pad (s : State) (p : Nat) (v : PortSt) : (s.setPort p v).pad = s.pad := rfl
@[simp] theorem State.setPort_cel (s : State) (p : Nat) (v : PortSt) : (s.setPort p v).cel = s.cel := rfl
@[simp] theorem State.setPort_que (s : State) (p : Nat) (v : PortSt) : (s.setPort p v).que = s.que := rfl
@[simp] theorem State.setPort_syn (s : State) (p : Nat) (v : PortSt) : (s.setPort p v).syn = s.syn := rfl
@[simp] theorem State.setPort_gang (s : State) (p : Nat) (v : PortSt) : (s.setPort p v).gang = s.gang := rfl
@[simp] theorem State.setPort_stg (s : State) (p : Nat) (v : PortSt) : (s.setPort p v).stg = s.stg := rfl
@[simp] theorem State.setPort_coll (s : State) (p : Nat) (v : PortSt) : (s.setPort p v).coll = s.coll := rfl
@[simp] theorem State.setPort_ckpt (s : State) (p : Nat) (v : PortSt) : (s.setPort p v).ckpt = s.ckpt := rfl

@[simp] theorem State.setLedger_pending (s : State) (e : Nat) (v : LedgerEnt) :
    (s.setLedger e v).pending = s.pending := rfl
@[simp] theorem State.setLedger_sys (s : State) (e : Nat) (v : LedgerEnt) : (s.setLedger e v).sys = s.sys := rfl
@[simp] theorem State.setLedger_bus (s : State) (e : Nat) (v : LedgerEnt) : (s.setLedger e v).bus = s.bus := rfl
@[simp] theorem State.setLedger_host (s : State) (e : Nat) (v : LedgerEnt) : (s.setLedger e v).host = s.host := rfl
@[simp] theorem State.setLedger_err (s : State) (e : Nat) (v : LedgerEnt) : (s.setLedger e v).err = s.err := rfl
@[simp] theorem State.setLedger_sloe (s : State) (e : Nat) (v : LedgerEnt) : (s.setLedger e v).sloe = s.sloe := rfl
@[simp] theorem State.setLedger_fuse (s : State) (e : Nat) (v : LedgerEnt) : (s.setLedger e v).fuse = s.fuse := rfl
@[simp] theorem State.setLedger_region (s : State) (e : Nat) (v : LedgerEnt) :
    (s.setLedger e v).region = s.region := rfl
@[simp] theorem State.setLedger_pwr (s : State) (e : Nat) (v : LedgerEnt) : (s.setLedger e v).pwr = s.pwr := rfl
@[simp] theorem State.setLedger_clk (s : State) (e : Nat) (v : LedgerEnt) : (s.setLedger e v).clk = s.clk := rfl
@[simp] theorem State.setLedger_mgmt (s : State) (e : Nat) (v : LedgerEnt) : (s.setLedger e v).mgmt = s.mgmt := rfl
@[simp] theorem State.setLedger_fe (s : State) (e : Nat) (v : LedgerEnt) : (s.setLedger e v).fe = s.fe := rfl
@[simp] theorem State.setLedger_parts (s : State) (e : Nat) (v : LedgerEnt) : (s.setLedger e v).parts = s.parts := rfl
@[simp] theorem State.setLedger_pad (s : State) (e : Nat) (v : LedgerEnt) : (s.setLedger e v).pad = s.pad := rfl
@[simp] theorem State.setLedger_cel (s : State) (e : Nat) (v : LedgerEnt) : (s.setLedger e v).cel = s.cel := rfl
@[simp] theorem State.setLedger_que (s : State) (e : Nat) (v : LedgerEnt) : (s.setLedger e v).que = s.que := rfl
@[simp] theorem State.setLedger_syn (s : State) (e : Nat) (v : LedgerEnt) : (s.setLedger e v).syn = s.syn := rfl
@[simp] theorem State.setLedger_gang (s : State) (e : Nat) (v : LedgerEnt) : (s.setLedger e v).gang = s.gang := rfl
@[simp] theorem State.setLedger_lk (s : State) (e : Nat) (v : LedgerEnt) : (s.setLedger e v).lk = s.lk := rfl
@[simp] theorem State.setLedger_coll (s : State) (e : Nat) (v : LedgerEnt) : (s.setLedger e v).coll = s.coll := rfl
@[simp] theorem State.setLedger_ckpt (s : State) (e : Nat) (v : LedgerEnt) : (s.setLedger e v).ckpt = s.ckpt := rfl

@[simp] theorem State.setCctx_pending (s : State) (n : Nat) (v : CollCtx) : (s.setCctx n v).pending = s.pending := rfl
@[simp] theorem State.setCctx_sys (s : State) (n : Nat) (v : CollCtx) : (s.setCctx n v).sys = s.sys := rfl
@[simp] theorem State.setCctx_bus (s : State) (n : Nat) (v : CollCtx) : (s.setCctx n v).bus = s.bus := rfl
@[simp] theorem State.setCctx_host (s : State) (n : Nat) (v : CollCtx) : (s.setCctx n v).host = s.host := rfl
@[simp] theorem State.setCctx_err (s : State) (n : Nat) (v : CollCtx) : (s.setCctx n v).err = s.err := rfl
@[simp] theorem State.setCctx_sloe (s : State) (n : Nat) (v : CollCtx) : (s.setCctx n v).sloe = s.sloe := rfl
@[simp] theorem State.setCctx_fuse (s : State) (n : Nat) (v : CollCtx) : (s.setCctx n v).fuse = s.fuse := rfl
@[simp] theorem State.setCctx_region (s : State) (n : Nat) (v : CollCtx) : (s.setCctx n v).region = s.region := rfl
@[simp] theorem State.setCctx_pwr (s : State) (n : Nat) (v : CollCtx) : (s.setCctx n v).pwr = s.pwr := rfl
@[simp] theorem State.setCctx_clk (s : State) (n : Nat) (v : CollCtx) : (s.setCctx n v).clk = s.clk := rfl
@[simp] theorem State.setCctx_mgmt (s : State) (n : Nat) (v : CollCtx) : (s.setCctx n v).mgmt = s.mgmt := rfl
@[simp] theorem State.setCctx_fe (s : State) (n : Nat) (v : CollCtx) : (s.setCctx n v).fe = s.fe := rfl
@[simp] theorem State.setCctx_parts (s : State) (n : Nat) (v : CollCtx) : (s.setCctx n v).parts = s.parts := rfl
@[simp] theorem State.setCctx_pad (s : State) (n : Nat) (v : CollCtx) : (s.setCctx n v).pad = s.pad := rfl
@[simp] theorem State.setCctx_cel (s : State) (n : Nat) (v : CollCtx) : (s.setCctx n v).cel = s.cel := rfl
@[simp] theorem State.setCctx_que (s : State) (n : Nat) (v : CollCtx) : (s.setCctx n v).que = s.que := rfl
@[simp] theorem State.setCctx_syn (s : State) (n : Nat) (v : CollCtx) : (s.setCctx n v).syn = s.syn := rfl
@[simp] theorem State.setCctx_gang (s : State) (n : Nat) (v : CollCtx) : (s.setCctx n v).gang = s.gang := rfl
@[simp] theorem State.setCctx_lk (s : State) (n : Nat) (v : CollCtx) : (s.setCctx n v).lk = s.lk := rfl
@[simp] theorem State.setCctx_stg (s : State) (n : Nat) (v : CollCtx) : (s.setCctx n v).stg = s.stg := rfl
@[simp] theorem State.setCctx_ckpt (s : State) (n : Nat) (v : CollCtx) : (s.setCctx n v).ckpt = s.ckpt := rfl

end Sys2Proof.Machine
end

