-- ==== Sys2Proof/Laws/Ops.lean ====
section
/-! SUPPORT. What the shared operations can do: interrupts, error records and rejected accesses change the register file,
the messages to the host, the error aggregator and the checkpoint warning, and nothing else. -/

namespace Sys2Proof.Machine

/-- `t` differs from `s` in the register file, the host interface, the error aggregator and the checkpoint engine at most. -/
structure Logs (s t : State) : Prop where
  pending : t.pending = s.pending
  sys : t.sys = s.sys
  sloe : t.sloe = s.sloe
  fuse : t.fuse = s.fuse
  region : t.region = s.region
  pwr : t.pwr = s.pwr
  clk : t.clk = s.clk
  mgmt : t.mgmt = s.mgmt
  fe : t.fe = s.fe
  parts : t.parts = s.parts
  pad : t.pad = s.pad
  cel : t.cel = s.cel
  que : t.que = s.que
  syn : t.syn = s.syn
  gang : t.gang = s.gang
  lk : t.lk = s.lk
  stg : t.stg = s.stg
  coll : t.coll = s.coll

theorem Logs.refl (s : State) : Logs s s := by constructor <;> rfl

theorem Logs.trans {s t u : State} (h : Logs s t) (k : Logs t u) : Logs s u := by
  constructor
  · rw [k.pending, h.pending]
  · rw [k.sys, h.sys]
  · rw [k.sloe, h.sloe]
  · rw [k.fuse, h.fuse]
  · rw [k.region, h.region]
  · rw [k.pwr, h.pwr]
  · rw [k.clk, h.clk]
  · rw [k.mgmt, h.mgmt]
  · rw [k.fe, h.fe]
  · rw [k.parts, h.parts]
  · rw [k.pad, h.pad]
  · rw [k.cel, h.cel]
  · rw [k.que, h.que]
  · rw [k.syn, h.syn]
  · rw [k.gang, h.gang]
  · rw [k.lk, h.lk]
  · rw [k.stg, h.stg]
  · rw [k.coll, h.coll]

/-- A fold of steps that only log only logs. -/
theorem Logs.foldl {α : Type} {f : State → α → State} (hf : ∀ s a, Logs s (f s a)) (l : List α) (s : State) :
    Logs s (l.foldl f s) := by
  induction l generalizing s with
  | nil => exact Logs.refl s
  | cons a l ih => exact (hf s a).trans (ih (f s a))

theorem Logs.ite {s t u : State} {c : Prop} [Decidable c] (h : Logs s t) (k : Logs s u) :
    Logs s (if c then t else u) := by
  split
  · exact h
  · exact k

/-- A register's new value. -/
theorem Logs.setReg (s : State) (k : Nat) (v : Word) : Logs s (s.setReg k v) := by constructor <;> rfl

theorem Logs.setPr (s : State) (k : PageKind) (i off : Nat) (v : Word) : Logs s (s.setPr k i off v) := by
  constructor <;> rfl

theorem Logs.bump (s : State) (k : PageKind) (i off n : Nat) : Logs s (s.bump k i off n) := by constructor <;> rfl

theorem Logs.sendMsix (s : State) (f : Nat) (v : BitVec 11) : Logs s (s.sendMsix f v) := by
  unfold State.sendMsix
  dsimp only
  split
  · exact Logs.refl s
  · split <;> constructor <;> rfl

theorem Logs.announce (s : State) (p : PageId) (a b : Word) : Logs s (s.announce p a b) := by
  unfold State.announce
  refine Logs.foldl (fun s t => ?_) _ s
  exact Logs.ite (Logs.sendMsix _ _ _) (Logs.refl _)

/-- An interrupt changes INT_STATUS, the pending bits and the messages to the host. -/
theorem Logs.raise (s : State) (k : PageKind) (i : Nat) (b : Word) : Logs s (s.raise k i b) := by
  unfold State.raise
  exact (Logs.setPr _ _ _ _ _).trans (Logs.announce _ _ _ _)

theorem Logs.ckptWarn (s : State) (b : Nat) (on : Bool) : Logs s (s.ckptWarn b on) := by
  unfold State.ckptWarn
  split
  · constructor <;> rfl
  · exact Logs.refl s

/-- A record and the interrupt that announces it. -/
theorem Logs.putRing (s : State) (ring : List ErrRec) (b : Word) :
    Logs s (({ s with err := { s.err with ring := ring } }).raise .err 0 b) :=
  Logs.trans (t := { s with err := { s.err with ring := ring } }) (by constructor <;> rfl) (Logs.raise _ _ _ _)

/-- An error record (R538–R541) changes counters, the ring, the first-record copy and the interrupts. -/
theorem Logs.record (s : State) (r : ErrRec) : Logs s (s.record r) := by
  unfold State.record
  extract_lets r1 s1 ts src s2 isDev takes r2 src2 s3 put
  have h1 : Logs s s1 := Logs.ite (Logs.bump _ _ _ _ _) (Logs.refl _)
  have h2 : Logs s s2 := by
    refine h1.trans (Logs.ite ?_ (Logs.refl _))
    exact Logs.trans (t := { s1 with err := _ }) (by constructor <;> rfl) (Logs.ckptWarn _ _ _)
  have h3 : Logs s s3 := h2.trans (Logs.ite (by constructor <;> rfl) (Logs.refl _))
  have hput : ∀ (u : State) (ring : List ErrRec), Logs s u → Logs s (put u ring) := fun u ring hu =>
    hu.trans (Logs.putRing _ _ _)
  clear_value put s3
  split
  · split
    · exact h3.trans (by constructor <;> rfl)
    · split
      · exact hput _ _ h3
      · split
        · exact h3.trans (Logs.bump _ _ _ _ _)
        · split
          · exact hput _ _ (h3.trans (Logs.bump _ _ _ _ _))
          · exact h3.trans (Logs.bump _ _ _ _ _)
  · exact hput _ _ h3

/-- A rejected access (R554, R647) is logged and changes nothing else. -/
theorem Logs.rejectAt (s : State) (f : Fn) (p : PageId) (at_ loc : Nat) (reason : BitVec 3) :
    Logs s (s.rejectAt f p at_ loc reason) := by
  unfold State.rejectAt
  exact (Logs.setPr _ _ _ _ _).trans (Logs.record _ _)

theorem Logs.reject (s : State) (f : Fn) (p : PageId) (off : Nat) (reason : BitVec 3) :
    Logs s (s.reject f p off reason) := Logs.rejectAt _ _ _ _ _ _

theorem Logs.rejectState (s : State) (f : Fn) (t : Target) : Logs s (s.rejectState f t) := Logs.reject _ _ _ _ _

end Sys2Proof.Machine
end

