-- ==== Sys2Proof/Laws/Mem.lean ====
section
/-! SUPPORT. The memories: what a read answers after a write, and that every operation on the scratchpad, the cellar and
the error ring keeps their canonical forms. -/

namespace Sys2Proof.Machine

open Sys2Proof

/-! ## The scratchpad -/

/-- A byte write changes exactly its bytes. -/
theorem putBytes_get (m : SMap Byte) (a : Nat) (data : List Byte) (x : Nat) :
    (putBytes m a data).get 0 x = if a ≤ x ∧ x < a + data.length then data.getD (x - a) 0 else m.get 0 x := by
  induction data generalizing m a with
  | nil => simp [putBytes, show ¬ (a ≤ x ∧ x < a) by omega]
  | cons b bs ih =>
    rw [putBytes, ih]
    by_cases h : x = a
    · subst h
      rw [if_neg (by omega), SMap.get_put_self, if_pos ⟨Nat.le_refl _, by simp⟩]
      simp
    · rw [SMap.get_put_ne h]
      by_cases h1 : a ≤ x ∧ x < a + (b :: bs).length
      · have h2 : a + 1 ≤ x ∧ x < a + 1 + bs.length := by simp only [List.length_cons] at h1; omega
        rw [if_pos h1, if_pos h2, show x - a = (x - (a + 1)) + 1 by omega, List.getD_cons_succ]
      · have h2 : ¬ (a + 1 ≤ x ∧ x < a + 1 + bs.length) := by simp only [List.length_cons] at h1; omega
        rw [if_neg h1, if_neg h2]

/-- A byte write keeps the canonical form. -/
theorem putBytes_wf {m : SMap Byte} (a : Nat) (data : List Byte) (h : SMap.wf (fun _ => 0) m = true) :
    SMap.wf (fun _ => 0) (putBytes m a data) = true := by
  induction data generalizing m a with
  | nil => exact h
  | cons b bs ih => exact ih _ (SMap.wf_put (d := fun _ => (0 : Byte)) h)

/-- What a byte reads as after a scratchpad write. -/
theorem padByte_padWrite (s : State) (a : Nat) (data : List Byte) (x : Nat) :
    (s.padWrite a data).padByte x = if a ≤ x ∧ x < a + data.length then data.getD (x - a) 0 else s.padByte x :=
  putBytes_get _ _ _ _

/-- An uncorrectable word found in the scratchpad is recorded and tracked, and changes no memory. -/
theorem Logs.foundUe (s : State) (a : Nat) : Logs s (s.foundUe a) := by
  have hd : ∀ (s : State) (b r : Nat) (z : Bool), Logs s (s.decideRow b r z) := fun s b r z => by constructor <;> rfl
  have ht : ∀ (s : State) (b r n : Nat), Logs s (s.track b r n) := fun s b r n => by
    unfold State.track
    dsimp only
    split
    · exact Logs.trans (t := { s with err := _ }) (by constructor <;> rfl) (hd _ _ _ _)
    · constructor <;> rfl
  exact ((Logs.record _ _).trans (ht _ _ _ _)).trans (hd _ _ _ _)

theorem Logs.notePoison (s : State) (a n : Nat) : Logs s (s.notePoison a n) :=
  Logs.foldl (fun s w => Logs.foundUe s (8 * w)) _ s

/-- A bank’s write stores what a plain write stores. -/
theorem bankWrite_mem (s : State) (a : Nat) (data : List Byte) : (s.bankWrite a data).pad.mem = putBytes s.pad.mem a data := by
  have h : ∀ l : List Nat, (l.foldl (fun s w => s.foundUe (8 * w)) s).pad = s.pad := fun l =>
    (Logs.foldl (fun s w => Logs.foundUe s (8 * w)) l s).pad
  show putBytes (List.foldl (fun (s : State) w => s.foundUe (8 * w)) s _).pad.mem a data = _
  rw [h]

/-- What a byte reads as after a bank’s write. -/
theorem padByte_bankWrite (s : State) (a : Nat) (data : List Byte) (x : Nat) :
    (s.bankWrite a data).padByte x = if a ≤ x ∧ x < a + data.length then data.getD (x - a) 0 else s.padByte x := by
  rw [State.padByte, bankWrite_mem]
  exact putBytes_get _ _ _ _

/-- Reading back what a bank’s write stored. -/
theorem padRead_eq (s : State) (a : Nat) (data : List Byte) (h : ∀ i, i < data.length → s.padByte (a + i) = data.getD i 0) :
    s.padRead a data.length = data := by
  induction data generalizing a with
  | nil => rfl
  | cons b bs ih =>
    have h0 := h 0 (by simp)
    rw [List.length_cons, State.padRead, ih (a + 1) fun i hi => by
      have := h (i + 1) (by simpa using hi)
      rw [show a + 1 + i = a + (i + 1) by omega, this, List.getD_cons_succ]]
    simp only [Nat.add_zero, List.getD_cons_zero] at h0
    rw [h0]

theorem padRead_bankWrite (s : State) (a : Nat) (data : List Byte) :
    (s.bankWrite a data).padRead a data.length = data :=
  padRead_eq _ _ _ fun i hi => by
    rw [padByte_bankWrite, if_pos (by omega), show a + i - a = i by omega]

theorem bankWrite_wf {s : State} (a : Nat) (data : List Byte) (h : SMap.wf (fun _ => 0) s.pad.mem = true) :
    SMap.wf (fun _ => 0) (s.bankWrite a data).pad.mem = true := by
  rw [bankWrite_mem]; exact putBytes_wf _ _ h

/-- Zeroing a bank leaves every byte outside it, and zeros inside. -/
theorem SMap.get_keep {α : Type} (d : α) (m : SMap α) (p : Nat → Bool) (k : Nat) :
    (m.keep fun k _ => p k).get d k = if p k then m.get d k else d := by
  induction m with
  | nil => simp [SMap.keep, SMap.get]
  | cons e m ih =>
    obtain ⟨k', v⟩ := e
    simp only [SMap.keep, List.filter_cons] at ih ⊢
    by_cases hk : k' = k
    · subst hk
      by_cases hp : p k' = true
      · simp [hp, SMap.get]
      · simp only [hp, if_false, Bool.false_eq_true] at ih ⊢
        exact ih
    · by_cases hp' : p k' = true
      · simp only [hp', if_true, SMap.get, hk, if_false]
        exact ih
      · simp only [hp', if_false, Bool.false_eq_true, SMap.get, hk] at ih ⊢
        exact ih

theorem padByte_zeroBank (s : State) (b a : Nat) :
    (s.zeroBank b).padByte a = if padBank a = b then 0 else s.padByte a := by
  have := SMap.get_keep (0 : Byte) s.pad.mem (fun a => decide (padBank a ≠ b)) a
  by_cases h : padBank a = b <;> simpa [State.padByte, State.zeroBank, h] using this

theorem zeroBank_wf {s : State} (b : Nat) (h : SMap.wf (fun _ => 0) s.pad.mem = true) :
    SMap.wf (fun _ => 0) (s.zeroBank b).pad.mem = true :=
  SMap.wf_keep (p := fun a _ => decide (padBank a ≠ b)) h

/-! ## The cellar -/

/-- Storing cells changes exactly those cells. -/
theorem putCells_get (s : State) (key off : Nat) (data : List Byte) (m : SMap CelByte) (x : Nat) :
    (s.putCells key off data m).get (s.celDefault x) x =
      if off ≤ x ∧ x < off + data.length then ⟨key, data.getD (x - off) 0⟩ else m.get (s.celDefault x) x := by
  induction data generalizing m off with
  | nil => simp [State.putCells, show ¬ (off ≤ x ∧ x < off) by omega]
  | cons b bs ih =>
    rw [State.putCells, ih]
    by_cases h : x = off
    · subst h
      rw [if_neg (by omega), SMap.get_put_self, if_pos ⟨Nat.le_refl _, by simp⟩]
      simp
    · have hg : (m.put (s.celDefault off) off ⟨key, b⟩).get (s.celDefault x) x = m.get (s.celDefault x) x := by
        unfold SMap.put
        split
        · exact SMap.get_erase_ne h
        · exact SMap.get_insert_ne h
      rw [hg]
      by_cases h1 : off ≤ x ∧ x < off + (b :: bs).length
      · have h2 : off + 1 ≤ x ∧ x < off + 1 + bs.length := by simp only [List.length_cons] at h1; omega
        rw [if_pos h1, if_pos h2, show x - off = (x - (off + 1)) + 1 by omega, List.getD_cons_succ]
      · have h2 : ¬ (off + 1 ≤ x ∧ x < off + 1 + bs.length) := by simp only [List.length_cons] at h1; omega
        rw [if_neg h1, if_neg h2]

theorem putCells_wf {s : State} (key off : Nat) (data : List Byte) {m : SMap CelByte} (h : SMap.wf s.celDefault m = true) :
    SMap.wf s.celDefault (s.putCells key off data m) = true := by
  induction data generalizing m off with
  | nil => exact h
  | cons b bs ih => exact ih _ (SMap.wf_put h)

/-- A cellar write keeps the canonical form. -/
theorem celWrite_wf {s : State} (key off : Nat) (data : List Byte) (h : SMap.wf s.celDefault s.cel.mem = true) :
    SMap.wf (s.celWrite key off data).celDefault (s.celWrite key off data).cel.mem = true := by
  unfold State.celWrite
  dsimp only
  split
  · exact h
  · exact putCells_wf _ _ _ h

/-- A scrub keeps the canonical form: the page lists nothing any more, so its new default changes no listed entry. -/
theorem scrubPage_wf {s : State} (key ppn : Nat) (h : SMap.wf s.celDefault s.cel.mem = true) :
    SMap.wf (s.scrubPage key ppn).celDefault (s.scrubPage key ppn).cel.mem = true := by
  refine SMap.wfFrom_congr (SMap.wf_keep (p := fun k _ => decide (k / 0x200000 ≠ ppn)) h) fun e he => ?_
  have hk : e.1 / 0x200000 ≠ ppn := by
    simpa using SMap.mem_keep (m := s.cel.mem) (p := fun k _ => decide (k / 0x200000 ≠ ppn)) he
  show (⟨(s.cel.pageKey.put 0 ppn key).get 0 (e.1 / 0x200000), 0⟩ : CelByte) = ⟨s.cel.pageKey.get 0 (e.1 / 0x200000), 0⟩
  rw [SMap.get_put_ne hk]

/-- A scrubbed page reads as zeros written under the key; every other byte reads as before. -/
theorem celCell_scrubPage (s : State) (key ppn off : Nat) :
    (s.scrubPage key ppn).celCell off = if off / 0x200000 = ppn then ⟨key, 0⟩ else s.celCell off := by
  have hg := SMap.get_keep ((s.scrubPage key ppn).celDefault off) s.cel.mem (fun k => decide (k / 0x200000 ≠ ppn)) off
  have hd : (s.scrubPage key ppn).celDefault off = ⟨(s.cel.pageKey.put 0 ppn key).get 0 (off / 0x200000), 0⟩ := rfl
  show SMap.get _ (s.cel.mem.keep fun k _ => decide (k / 0x200000 ≠ ppn)) off = _
  rw [hg]
  by_cases h : off / 0x200000 = ppn
  · subst h; simp [hd, SMap.get_put_self]
  · simp only [h, ne_eq, not_false_eq_true, decide_true, if_true, if_false]
    rw [hd, SMap.get_put_ne h]
    rfl

/-- Writing a run of keys leaves every other key. -/
theorem foldl_put_get {α : Type} [DecidableEq α] (d v : α) (f : Nat → Nat) (l : List Nat) (m : SMap α) (k : Nat)
    (h : ∀ i, i ∈ l → f i ≠ k) : (l.foldl (fun m i => m.put d (f i) v) m).get d k = m.get d k := by
  induction l generalizing m with
  | nil => rfl
  | cons i l ih =>
    rw [List.foldl_cons, ih _ fun j hj => h j (List.mem_cons_of_mem _ hj)]
    exact SMap.get_put_ne (h i (List.mem_cons_self ..)).symm

/-- The end of the cellar phase keeps the canonical form. -/
theorem cellarReady_wf {s : State} (h : SMap.wf s.celDefault s.cel.mem = true) :
    SMap.wf s.cellarReady.celDefault s.cellarReady.cel.mem = true := by
  refine SMap.wfFrom_congr (SMap.wf_keep (p := fun a _ => decide (a / 0x200000 < 0xBE0000000 / 0x200000 ∨
    0xBE0000000 / 0x200000 + 256 ≤ a / 0x200000)) h) fun e he => ?_
  have hk := SMap.mem_keep (m := s.cel.mem) (p := fun a _ => decide (a / 0x200000 < 0xBE0000000 / 0x200000 ∨
    0xBE0000000 / 0x200000 + 256 ≤ a / 0x200000)) he
  simp only [decide_eq_true_eq] at hk
  have hr : ∀ i, i ∈ List.range 256 → 0xBE0000000 / 0x200000 + i ≠ e.1 / 0x200000 := fun i hi => by
    have := List.mem_range.1 hi
    omega
  unfold State.cellarReady State.celDefault
  dsimp only
  rw [foldl_put_get 0 (s.keyOf 64) (fun i => 0xBE0000000 / 0x200000 + i) (List.range 256) s.cel.pageKey
    (e.1 / 0x200000) hr]

/-! ## The error ring and resets -/

theorem sendMsix_err (s : State) (f : Nat) (v : BitVec 11) : (s.sendMsix f v).err = s.err := by
  unfold State.sendMsix
  dsimp only
  split
  · rfl
  · split <;> rfl

theorem announce_err (s : State) (p : PageId) (a b : Word) : (s.announce p a b).err = s.err := by
  unfold State.announce
  generalize s.intTargets p = l
  induction l generalizing s with
  | nil => rfl
  | cons t l ih =>
    rw [List.foldl_cons, ih]
    generalize (if t.2.2 then b else a) = w
    split
    · exact sendMsix_err _ _ _
    · rfl

theorem raise_err (s : State) (k : PageKind) (i : Nat) (b : Word) : (s.raise k i b).err = s.err :=
  announce_err _ _ _ _

theorem replaceLast_length {α : Type} (l : List α) (x : α) : (replaceLast l x).length = l.length := by
  induction l with
  | nil => rfl
  | cons a l ih =>
    cases l with
    | nil => rfl
    | cons b l => simpa [replaceLast] using ih

theorem dropOldestMinor_length {l r : List ErrRec} (h : dropOldestMinor l = some r) : r.length + 1 = l.length := by
  induction l generalizing r with
  | nil => cases h
  | cons a l ih =>
    unfold dropOldestMinor at h
    split at h
    · cases h; rfl
    · cases hd : dropOldestMinor l with
      | none => rw [hd] at h; cases h
      | some t =>
        rw [hd] at h
        cases h
        simp [ih hd]

theorem ckptWarn_err (s : State) (b : Nat) (on : Bool) : (s.ckptWarn b on).err = s.err := by
  unfold State.ckptWarn; split <;> rfl

/-- The error ring stays within its 512 records (R540). -/
theorem record_ring (s : State) (r : ErrRec) (h : s.err.ring.length ≤ 512) : (s.record r).err.ring.length ≤ 512 := by
  unfold State.record
  extract_lets r1 s1 ts src s2 isDev takes r2 src2 s3 put
  have h1 : s1.err.ring = s.err.ring := by
    simp only [s1]; split <;> rfl
  have h2 : s2.err.ring = s.err.ring := by
    simp only [s2]
    split
    · rw [ckptWarn_err]; exact h1
    · exact h1
  have h3 : s3.err.ring = s.err.ring := by
    simp only [s3]
    split
    · exact h2
    · exact h2
  have hput : ∀ (u : State) (ring : List ErrRec), (put u ring).err.ring.length = ring.length + 1 := fun u ring => by
    show ((State.raise _ _ _ _).err.ring).length = _
    rw [raise_err]; simp
  clear_value put s3
  split
  · split
    · rw [replaceLast_length, h3]; exact h
    · split
      · rename_i hl
        rw [hput]; rw [h3] at *; omega
      · split
        · show s3.err.ring.length ≤ 512
          rw [h3]; exact h
        · split
          · rename_i hd
            rw [hput, dropOldestMinor_length hd, h3]; exact h
          · show s3.err.ring.length ≤ 512
            rw [h3]; exact h
  · rw [hput]; decide

/-- A write to a bank keeps the memories’ form. -/
theorem MemInv.of_parts {s t : State} (h : MemInv s) (hp : t.pad.mem = s.pad.mem) (hc : t.cel = s.cel)
    (he : t.err.ring.length ≤ 512) : MemInv t := by
  refine ⟨by rw [hp]; exact h.1, ?_, he⟩
  have : t.celDefault = s.celDefault := by funext x; simp only [State.celDefault, hc]
  rw [this, hc]; exact h.2.1

theorem MemInv.record {s : State} (r : ErrRec) (h : MemInv s) : MemInv (s.record r) :=
  h.of_parts (by rw [(Logs.record s r).pad]) (Logs.record s r).cel (record_ring s r h.2.2)

theorem MemInv.foundUe {s : State} (a : Nat) (h : MemInv s) : MemInv (s.foundUe a) :=
  h.of_parts (by rw [(Logs.foundUe s a).pad]) (Logs.foundUe s a).cel (by
    have hd : ∀ (s : State) (b r : Nat) (z : Bool), (s.decideRow b r z).err.ring = s.err.ring := fun _ _ _ _ => rfl
    have ht : ∀ (s : State) (b r n : Nat), (s.track b r n).err.ring = s.err.ring := fun s b r n => by
      unfold State.track
      dsimp only
      split <;> rfl
    unfold State.foundUe
    rw [hd, ht]
    exact record_ring _ _ h.2.2)

theorem MemInv.foldl {α : Type} {f : State → α → State} (hf : ∀ s a, MemInv s → MemInv (f s a)) (l : List α) {s : State}
    (h : MemInv s) : MemInv (l.foldl f s) := by
  induction l generalizing s with
  | nil => exact h
  | cons a l ih => exact ih (hf _ _ h)

theorem MemInv.bankWrite {s : State} (a : Nat) (data : List Byte) (h : MemInv s) : MemInv (s.bankWrite a data) := by
  have hf := fun l : List Nat => MemInv.foldl (f := fun s w => State.foundUe s (8 * w)) (fun _ w hs => hs.foundUe (8 * w)) l h
  refine ⟨bankWrite_wf a data h.1, ?_, ?_⟩
  · exact (hf _).2.1
  · exact (hf _).2.2

theorem MemInv.zeroBank {s : State} (b : Nat) (h : MemInv s) : MemInv (s.zeroBank b) := ⟨zeroBank_wf b h.1, h.2⟩

theorem MemInv.celWrite {s : State} (key off : Nat) (data : List Byte) (h : MemInv s) : MemInv (s.celWrite key off data) := by
  have hk : (s.celWrite key off data).pad = s.pad ∧ (s.celWrite key off data).err = s.err := by
    unfold State.celWrite
    dsimp only
    split <;> exact ⟨rfl, rfl⟩
  exact ⟨by rw [hk.1]; exact h.1, celWrite_wf _ _ _ h.2.1, by rw [hk.2]; exact h.2.2⟩

theorem MemInv.scrubPage {s : State} (key ppn : Nat) (h : MemInv s) : MemInv (s.scrubPage key ppn) :=
  ⟨h.1, scrubPage_wf _ _ h.2.1, h.2.2⟩

theorem MemInv.cellarReady {s : State} (h : MemInv s) : MemInv s.cellarReady := ⟨h.1, cellarReady_wf h.2.1, h.2.2⟩

theorem MemInv.viewWrite {s : State} (p v : Nat) (data : List Byte) (h : MemInv s) : MemInv (s.viewWrite p v data) := by
  unfold State.viewWrite
  generalize pagePieces v data.length (data.length / 0x200000 + 2) = l
  induction l generalizing s data with
  | nil => exact h
  | cons q l ih =>
    rw [List.foldl_cons]
    dsimp only
    split
    · exact ih _ (MemInv.celWrite _ _ _ h)
    · exact ih _ h

/-! ## Undefined contents -/

/-- A part of a bank lies in its range. -/
theorem bankParts_mem {a n : Nat} {q : Nat × Nat} (h : q ∈ bankParts a n) : a ≤ q.1 ∧ (q.2 = 0 ∨ q.1 + q.2 ≤ a + n) := by
  unfold bankParts at h
  split at h
  · cases h
  · obtain ⟨i, -, rfl⟩ := List.mem_map.1 h
    dsimp only
    omega

theorem openBytes_length (ctr n : Nat) : (openBytes ctr n).length = n := by simp [openBytes]

/-- Bytes outside a range that becomes undefined read as before. -/
theorem padByte_openPad (s : State) (p a n x : Nat) (h : ¬ (a ≤ x ∧ x < a + n)) :
    (s.openPad p a n).padByte x = s.padByte x := by
  have hg : ∀ (l : List (Nat × Nat)) (m : SMap Byte), (∀ q, q ∈ l → q ∈ bankParts a n) →
      (l.foldl (fun m q => putBytes m q.1 (openBytes (s.sys.freeCtr + (q.1 - a)) q.2)) m).get 0 x = m.get 0 x := by
    intro l
    induction l with
    | nil => intro m _; rfl
    | cons q l ih =>
      intro m hl
      have hq := bankParts_mem (hl q (List.mem_cons_self ..))
      rw [List.foldl_cons, ih _ fun r hr => hl r (List.mem_cons_of_mem _ hr), putBytes_get, openBytes_length,
        if_neg (by omega)]
  exact hg _ _ fun q hq => (List.mem_filter.1 hq).1

theorem MemInv.openPad {s : State} (p a n : Nat) (h : MemInv s) : MemInv (s.openPad p a n) := by
  refine ⟨?_, h.2⟩
  have hg : ∀ (l : List (Nat × Nat)) (m : SMap Byte), SMap.wf (fun _ => 0) m = true →
      SMap.wf (fun _ => 0) (l.foldl (fun m q => putBytes m q.1 (openBytes (s.sys.freeCtr + (q.1 - a)) q.2)) m) = true := by
    intro l
    induction l with
    | nil => intro m hm; exact hm
    | cons q l ih => intro m hm; exact ih _ (putBytes_wf _ _ hm)
  exact hg _ _ h.1

theorem MemInv.openDev {s : State} (p a n : Nat) (h : MemInv s) : MemInv (s.openDev p a n) := by
  unfold State.openDev
  split
  · exact h.openPad _ _ _
  · exact MemInv.viewWrite _ _ _ h
  · split
    · exact h
    · exact MemInv.celWrite _ _ _ h
  · exact h

theorem MemInv.openOutputs {s : State} (p : Nat) (rs : List (Nat × Nat)) (h : MemInv s) : MemInv (s.openOutputs p rs) :=
  MemInv.foldl (f := fun (s : State) (q : Nat × Nat) => s.openDev p q.1 q.2) (fun _ _ hs => hs.openDev _ _ _) _ h

theorem MemInv.warmStop {s : State} (h : MemInv s) : MemInv s.warmStop := ⟨rfl, h.2.1, h.2.2⟩

theorem MemInv.coldReset (s : State) : MemInv s.coldReset := ⟨rfl, rfl, Nat.zero_le _⟩

/-- The memories after reset. -/
theorem MemInv.reset : MemInv State.reset := ⟨rfl, rfl, by decide⟩

end Sys2Proof.Machine
end

