-- ==== Sys2Proof/Laws/Get.lean ====
section
/-! SUPPORT. What each accessor answers after its own update: the new value at its key, the old one at every other. -/

namespace Sys2Proof.Machine

open Sys2Proof

/-- A register after a write of a register. -/
theorem State.reg_setReg (s : State) (k j : Nat) (v : Word) : (s.setReg k v).reg j = if j = k then v else s.reg j := by
  show (s.bus.regs.put (regReset k) k v).get (regReset j) j = _
  by_cases h : j = k
  · subst h; rw [SMap.get_put_self, if_pos rfl]
  · rw [if_neg h]
    unfold SMap.put
    split
    · exact SMap.get_erase_ne h
    · exact SMap.get_insert_ne h

theorem State.pr_setPr (s : State) (k k' : PageKind) (i i' off off' : Nat) (v : Word) :
    (s.setPr k i off v).pr k' i' off' = if rk k' i' off' = rk k i off then v else s.pr k' i' off' := State.reg_setReg _ _ _ _

/-- A flight after a change of state of one. -/
theorem State.setFlight_mem (s : State) (r : RecRef) (st : FlightSt) (f : Flight) (hf : f ∈ s.fe.flights) (hr : f.lrec.ref ≠ r) :
    f ∈ (s.setFlight r st).fe.flights :=
  List.mem_map.2 ⟨f, hf, by simp [hr]⟩

theorem State.ctxOf_setCtx_self (s : State) (p c : Nat) (v : Ctx) : (s.setCtx p c v).ctxOf p c = v := SMap.get_put_self

theorem State.ctxOf_setCtx_ne (s : State) (p c p' c' : Nat) (v : Ctx) (h : p' * 16 + c' ≠ p * 16 + c) :
    (s.setCtx p c v).ctxOf p' c' = s.ctxOf p' c' := by
  show (s.parts.ctx.put (Ctx.init c) (p * 16 + c) v).get (Ctx.init c') (p' * 16 + c') = _
  unfold SMap.put
  split
  · exact SMap.get_erase_ne h
  · exact SMap.get_insert_ne h

theorem State.partOf_setPart (s : State) (p p' : Nat) (v : Part) :
    (s.setPart p v).partOf p' = if p' = p then v else s.partOf p' := SMap.get_put

theorem State.queueOf_setQueue (s : State) (p q p' q' : Nat) (v : SwQueue) :
    (s.setQueue p q v).queueOf p' q' = if p' * 16 + q' = p * 16 + q then v else s.queueOf p' q' := SMap.get_put

theorem State.handleOf_setHandle (s : State) (p h p' h' : Nat) (v : Handle) :
    (s.setHandle p h v).handleOf p' h' = if p' * 4096 + h' = p * 4096 + h then v else s.handleOf p' h' := SMap.get_put

theorem State.useOf_setUse (s : State) (p h p' h' : Nat) (v : Nat) :
    (s.setUse p h v).useOf p' h' = if p' * 4096 + h' = p * 4096 + h then v else s.useOf p' h' := SMap.get_put

theorem State.bankOf_setBank (s : State) (b b' : Nat) (v : Bank) :
    (s.setBank b v).bankOf b' = if b' = b then v else s.bankOf b' := SMap.get_put

theorem State.tierOf_setTier (s : State) (r t r' t' : Nat) (v : RetSt) :
    (s.setTier r t v).tierOf r' t' = if r' * 4 + t' = r * 4 + t then v else s.tierOf r' t' := SMap.get_put

theorem State.chanOf_setChan (s : State) (n n' : Nat) (v : Option ChanCmd) :
    (s.setChan n v).chanOf n' = if n' = n then v else s.chanOf n' := SMap.get_put

theorem State.pteOf_setPte (s : State) (p n p' n' : Nat) (v : BitVec 64) :
    (s.setPte p n v).pteOf p' n' = if p' * 32768 + n' = p * 32768 + n then v else s.pteOf p' n' := SMap.get_put

theorem State.countOf_setCount (s : State) (c n c' n' : Nat) (v : BitVec 32) :
    (s.setCount c n v).countOf c' n' = if c' * 256 + n' = c * 256 + n then v else s.countOf c' n' := SMap.get_put

theorem State.regionOf_setRegion (s : State) (r r' : Nat) (v : RegionPt) :
    (s.setRegion r v).regionOf r' = if r' = r then v else s.regionOf r' := SMap.get_put

theorem State.link_setLink (s : State) (l l' : Nat) (v : LinkSt) :
    (s.setLink l v).link l' = if l' = l then v else s.link l' := SMap.get_put

theorem State.port_setPort (s : State) (p p' : Nat) (v : PortSt) :
    (s.setPort p v).port p' = if p' = p then v else s.port p' := SMap.get_put

theorem State.cctx_setCctx (s : State) (n n' : Nat) (v : CollCtx) :
    (s.setCctx n v).cctx n' = if n' = n then v else s.cctx n' := SMap.get_put

theorem State.txOf_setTx (s : State) (i i' : Nat) (v : ShardTx) :
    (s.setTx i v).txOf i' = if i' = i then v else s.txOf i' := SMap.get_put

theorem State.halfOfBuddy_setBuddyHalf (s : State) (h h' : Nat) (v : BuddyHalf) :
    (s.setBuddyHalf h v).halfOfBuddy h' = if h' = h then v else s.halfOfBuddy h' := SMap.get_put

theorem State.gangOf_setGang (s : State) (p p' : Nat) (v : Option GangOp) :
    (s.setGang p v).gangOf p' = if p' = p then v else s.gangOf p' := SMap.get_put

theorem State.parkedOf_setParked (s : State) (p p' : Nat) (v : Option GangOp) :
    (s.setParked p v).parkedOf p' = if p' = p then v else s.parkedOf p' := SMap.get_put

end Sys2Proof.Machine
end

