-- ==== Sys2Proof/Tests/Slice0.lean ====
section
/-! SUPPORT. Tests: ill-formed commands that the check refuses, and the small states that the other test files start
from. A test's expected value is computed by hand from the rule that its name or comment cites. -/

namespace Sys2Proof.Tests

set_option Elab.async false

open Sys2Proof Sys2Proof.Machine

/-- Whether a command answers a next state of which `p` holds. -/
def after (c : Instr) (s : State) (p : State → Bool) : Bool :=
  match exec c s with
  | .next t => p t
  | _ => false

/-- The device in READY, with the PCIe link up. -/
def ready : State := { State.reset with sys := { Sys.reset with started := true, phase := 7, pcieHeld := false, pcieUp := true } }

/-- The same, at a given time in nanoseconds. -/
def readyAt (t : BitVec 64) : State := { ready with sys := { ready.sys with time := t } }

/-- A state in which partition 3 is active and owns cluster 5. -/
def tenant (s : State) : State :=
  { s.setPart 3 { Part.init with st := .active } with
    parts := { (s.setPart 3 { Part.init with st := .active }).parts with cluster := [(5, some 3)] } }

/-- A readable and writable handle of the given kind of memory (bits 3:2 of the rights). -/
def handle (kind : Nat) (dev size : BitVec 64) : Handle :=
  { base := 0, dev := dev, size := size, rights := BitVec.ofNat 8 (0xE0 + 4 * kind), fmt := 0, scale := 0 }

/-- A stage area of the given part per cluster (R324). -/
def area (off part : BitVec 64) : Handle := handle 0 off (63 * 0x8000000 + part)

/-- Partition 0 owns the device, and the STG page asks for one stage, one micro-batch and items of 64 words. -/
def stageFree : State :=
  let s := ready.setPart 0 { Part.init with st := .active }
  let s := { s with parts := { s.parts with cluster := (List.range 64).map fun c => (c, some 0) } }
  let s := [(0x40, 0x1000), (0x44, 1), (0x48, 0x10020000), (0x4C, 0x40), (0x50, 0x10000), (0x54, 0x20003), (0x58, 0x40005),
      (0x5C, 6), (0x64, 7), (0x68, 0x66666)].foldl
    (fun s (e : Nat × Word) => s.setPr .stg 0 e.1 e.2) s
  let s := [(1, area 0 0x2000), (2, area 0x10000 0x2000), (3, area 0x20000 0x2000), (4, handle 0 0x40000 0x40),
      (5, handle 0 0x60000 0x40), (6, handle 0 0x80000 0x40), (7, area 0xA0000 0x5000), (8, handle 0 0x8000000 0x10080000)].foldl
    (fun s (e : Nat × Handle) => s.setHandle 0 e.1 e.2) s
  s.setPr .part 0 0x3C4 0x80000008

/-- The same in stage mode, READY. -/
def staged : State := { stageFree with sys := { stageFree.sys with stageMode := true }, stg := { stageFree.stg with st := 1 } }

/-- A command of partition 3 in queue 2. -/
def cmdRef : RecRef := ⟨3, 2, 0, 0⟩

/-- Its record, with the given opcode and words. -/
def rec (raw : BitVec 512) : LRec :=
  { ref := cmdRef, gid := 2, raw := raw, params := [], opnds := [], tag := 0, after := false, bind := 0, area := 0
    fault := none }

/-- A state in which that record is in flight. -/
def flying (raw : BitVec 512) (st : FlightSt) (s : State) : State :=
  { s with fe := { s.fe with flights := [⟨rec raw, st, false, 0⟩] } }

/-! ## Ill-formed commands, one for each check -/

theorem refuses_wide_value : Instr.wf (.registerWrite .pf 0x1000 .w8 0x100) = false := by decide
theorem refuses_wide_bot_word : Instr.wf (.botEntryWrite .pf 0 0 false 0x100000000) = false := by decide
theorem refuses_row_named_twice : Instr.wf (.bootPhaseDone (.sram [(1, 2), (1, 2)])) = false := by decide
theorem refuses_empty_read : Instr.wf (.nocRead ⟨.dev, none, 0, 0⟩ 0 0) = false := by decide
theorem refuses_write_over_bank_end : Instr.wf (.nocWrite ⟨.dev, none, 0, 0x1FFFF⟩ [1, 2] none false 0) = false := by
  decide
theorem refuses_wake_over_bank_end : Instr.wf (.retentionWake ⟨.dev, none, 0, 0x1FFFF⟩ (.read 2)) = false := by decide
theorem refuses_short_tag_row : Instr.wf (.tagWrite ⟨.dev, none, 0, 0⟩ [1]) = false := by decide
theorem refuses_short_fill_row : Instr.wf (.tagFill ⟨.dev, none, 0, 0⟩ [1]) = false := by decide
theorem refuses_long_window : Instr.wf (.ringEntryFetch 0 false false 0 (List.replicate 1025 0)) = false := by
  decide +kernel
theorem refuses_short_queue_word : Instr.wf (.queueWrite (.slot 0) [1] true) = false := by decide
theorem refuses_short_flit : Instr.wf (.flitReceive 0 ⟨0, [], 0⟩ 0 false) = false := by decide
theorem refuses_bank_found_twice :
    Instr.wf (.sloeRowTest none [(1, ⟨.clean, 0, 0⟩), (1, ⟨.clean, 0, 0⟩)]) = false := by decide
theorem refuses_three_canaries : Instr.wf (.canaryMeasure 0 [none, none, none] []) = false := by decide
theorem refuses_one_reading : Instr.wf (.tempSample [0]) = false := by decide
theorem refuses_rail_measured_twice : Instr.wf (.capEval 0 0 0 [(1, 2), (1, 3)]) = false := by decide
theorem refuses_empty_invalidation : Instr.wf (.atsInvalidation 0 0 0 0) = false := by decide

/-! ## No row of the opcode table gives bits -/

theorem decodes_nothing : decodeTableWord 32 0x1234 = none ∧ ready.withFetchWord 32 0x1234 = ready := ⟨rfl, rfl⟩

end Sys2Proof.Tests
end

