-- ==== Sys2Proof/Tests/Memory.lean ====
section
/-! SUPPORT. Witnesses for the statements about the scratchpad, tagged slots, the cellar, its movers and the counters'
input, and small tests of their commands. -/

namespace Sys2Proof.Tests

set_option Elab.async false

open Sys2Proof Sys2Proof.Machine

/-- Partition 3 owns bank 5120, the first of cluster 5, has NoC tokens, and has slots in that bank with a timeout of
1 us; the time is 1 ms. -/
def banked : State :=
  let s := (tenant (readyAt 1000000)).setBank 5120 { Bank.init with owner := some 3 }
  { s.setPr .clu 5 0x53C 0x800 with parts := { s.parts with tokens := [(15, 1000), (17, 1000)] } }

/-- A request of partition 3 at the given byte of that bank. -/
def req (off : BitVec 64) : NocReq := ⟨.part 3, some cmdRef, 4, 0x28000000 + off⟩

/-- The same with the counter ID 0 of partition 3 naming counter 9 of cluster 5. -/
def counted : State := { banked with syn := { banked.syn with vmap := [(3 * 4096, 0x80000509)] } }

/-! ## Scratchpad requests (R177–R184) -/

theorem hyp_NocRead :
    banked.nocOpen (req 0) = true ∧ banked.padGate (req 0) 4 = .ok ∧ banked.padGate (req 0x1FFFC) 4 = .ok ∧
    banked.poisoned 0x28000000 4 = false := by decide +kernel
theorem hyp_NocWrite :
    counted.padGate (req 0) [1, 2].length = .ok ∧ counted.nocBarred (req 0) [1, 2].length = false ∧
    (counted.incTarget (req 0) ⟨0, 5⟩).isSome = true := by decide +kernel
theorem test_nocWriteThenByte :
    after (.nocWrite (req 1) [7] (some ⟨0, 5⟩) false 0) counted
      (fun t => t.padByte 0x28000001 == 7 && t.padByte 0x28000000 == 0 && t.pad.incs.map (·.counter) == [9]) = true := by
  decide +kernel
theorem test_nocWriteCollides :
    after (.nocWrite (req 1) [7] none true 0) counted
      (fun t => t.padByte 0x28000001 == 0 && t.pad.retries.map (·.due) == [1000032]) = true := by decide +kernel

/-- A write that has collided the given number of times and is due. -/
def retrying (n : Nat) : State :=
  let s := flying 0x40 .running counted
  { s with pad := { s.pad with retries := [⟨4, req 0, [1, 2], some ⟨0, 5⟩, n, 1000000⟩] } }

theorem hyp_CollideRetry :
    ((retrying 3).pad.retries.find? fun r => r.id == 4 && decide (r.due.toNat ≤ (retrying 3).sys.time.toNat)) =
      some ⟨4, req 0, [1, 2], some ⟨0, 5⟩, 3, 1000000⟩ ∧
    (retrying 3).padGate (req 0) 2 = .ok ∧ (retrying 3).nocBarred (req 0) 2 = false ∧
    ((retrying 3).incTarget (req 0) ⟨0, 5⟩).isSome = true ∧ (req 0).ref = some cmdRef ∧
    ((retrying 3).flight? cmdRef).map (fun f => f.st.ended) = some false := by decide +kernel
theorem test_collideFourth :
    after (.collideRetry 4 true) (retrying 3)
      (fun t => (t.flight? cmdRef).map (fun f => f.st.ended) == some true) = true := by decide +kernel

/-! ## Increments and counters (R253, R257) -/

/-- A landed write's increment waits, and cluster 5 has a set and an add of counter 9 in its input queue. -/
def adding : State :=
  { counted with
    pad := { counted.pad with incs := [⟨8, 3, 5, 9, 2⟩] }
    syn := { counted.syn with input := [(5, [.set 3 9 0xFFFFFFFF cmdRef, .add 3 9 2 none])] } }

theorem hyp_ArrivalIncrement :
    (adding.pad.incs.find? fun m => m.id == 8) = some ⟨8, 3, 5, 9, 2⟩ ∧ adding.inputRoom 5 = true := by decide +kernel
theorem hyp_SyncAddApply :
    (∀ p : Fin 64, adding.clusterOwner (5 : Fin 64).val = some p → adding.frozen p.val = false) ∧
    ∀ m, m ∈ (adding.inputOf (5 : Fin 64).val).take 4 → m.counter < 256 := by
  refine ⟨by decide +kernel, by decide +kernel⟩
theorem test_syncAddApply : after (.syncAddApply 5) adding (fun t => t.countOf 5 9 == 1) = true := by decide +kernel

/-! ## Banks (R185–R194) -/

/-- Partition 3 may own four banks. -/
def quota : State := (banked.setPr .part 3 0x50 4).setHandle 3 1 (handle 0 0x28000000 0x20000)

theorem hyp_BotEntryWrite :
    (∃ x, quota.openAt .pf ⟨.bot, 5⟩ 0x804 ((0xC003 : BitVec 64).extractLsb' 0 32) = .ok x) ∧
    (0xC003 : BitVec 64).getLsbD 15 = true ∧ (0xC003 : BitVec 64).getLsbD 31 = false ∧ quota.bankHole 5122 = false ∧
    (quota.bankOf 5122).st = .settled ∧ (quota.bankOf 5122).owner = none ∧ quota.refusesBank 5122 3 = false :=
  ⟨⟨_, rfl⟩, by decide +kernel⟩
theorem hyp_BotEntryMismatch :
    (∃ x, quota.openAt .pf ⟨.bot, 5⟩ 0x800 ((0xC003 : BitVec 64).extractLsb' 0 32) = .ok x) ∧
    quota.bankHole 5120 = false ∧ (quota.bankOf 5120).st = .settled ∧ (quota.bankOf 5120).owner ≠ none :=
  ⟨⟨_, rfl⟩, by decide +kernel⟩
theorem hyp_BotEntryWide :
    (∃ x, quota.openAt .pf ⟨.bot, 5⟩ 0x800 ((0xC00300000000 : BitVec 64).extractLsb' 0 32) = .ok x) ∧
    ∃ y, quota.openAt .pf ⟨.bot, 5⟩ 0x804 ((0xC00300000000 : BitVec 64).extractLsb' 32 32) = .ok y := ⟨⟨_, rfl⟩, ⟨_, rfl⟩⟩
theorem hyp_BankRelease :
    (∃ x, quota.openAt .pf ⟨.part, 3⟩ 0x400 1 = .ok x) ∧ (quota.handleOf 3 1).v = true ∧
    (quota.handleOf 3 1).kind = 0 ∧ (quota.handleOf 3 1).dev.toNat % 0x20000 = 0 ∧
    (quota.handleOf 3 1).size.toNat % 0x20000 = 0 ∧ (quota.partOf 3).releaseBusy = false ∧
    (quota.bankOf 5120).owner = some 3 := ⟨⟨_, rfl⟩, by decide +kernel⟩
theorem test_botEntryWrite :
    after (.botEntryWrite .pf 5 1 false 0xC003) quota (fun t => t.bankOf 5122 == ⟨.wiping, some 3, false, none⟩) = true := by
  decide +kernel
theorem test_bankRelease :
    after (.bankRelease .pf 3 1) quota (fun t => t.bankOf 5120 == ⟨.wiping, none, false, none⟩) = true := by
  decide +kernel

/-- Bank 5121 is pending, bank 5122 is wiping with a written byte, and its wipe has started in the second state. -/
def changing : State :=
  let s := (quota.setBank 5121 ⟨.pending, some 3, false, some 2⟩).setBank 5122 ⟨.wiping, some 3, false, none⟩
  { s with pad := { s.pad with mem := [(0x28040005, 7)] } }
def wiping : State := { changing with pad := { changing.pad with wipe := [(320, some 5122)] } }

theorem hyp_HandoverUnpend :
    (changing.bankOf (5121 : Fin 65536).val).st = .pending ∧ changing.bankInUse (2 : Fin 64).val 5121 = false := by
  decide +kernel
theorem hyp_WipeStart :
    wipeKey 5 0 0 = 320 ∧ changing.pad.wipe.get none 320 = none ∧ (changing.bankOf (320 * 16 + 2)).st = .wiping ∧
    (∀ j, j < 2 → (changing.bankOf (320 * 16 + j)).st ≠ .wiping) ∧ changing.tierOf (regionOfCluster 5) 0 = .awake := by
  decide +kernel
theorem hyp_WipeDone : wiping.pad.held = [] ∧ wiping.pad.wipe.get none (wipeKey 5 0 0) = some 5122 := by decide +kernel
theorem test_wipeStart : after (.wipeStart 5 0 0) changing (fun t => t.pad.wipe == wiping.pad.wipe) = true := by
  decide +kernel
theorem test_wipeDone :
    after (.wipeDone 5 0 0) wiping (fun t => t.padByte 0x28040005 == 0 && (t.bankOf 5122).st == .settled) = true := by
  decide +kernel

/-! ## Retention and map-outs (R22–R28, R550) -/

/-- Tier 0 of region 1 in each of its other states, due. -/
def entering : State := banked.setTier 1 0 (.entering 1000000)
def retained : State := banked.setTier 1 0 .retained
def waking : State := banked.setTier 1 0 (.waking 1000000)

theorem hyp_RetentionEnter : ready.tierOf (1 : Fin 16).val (0 : Fin 4).val = .awake ∧
    ∀ e, e ∈ ready.pad.bank → e.2.st ≠ .pending := by decide +kernel
theorem hyp_RetentionEntryDone :
    entering.tierOf 1 0 = .entering 1000000 ∧ (1000000 : BitVec 64).toNat ≤ entering.sys.time.toNat := by decide +kernel
theorem hyp_RetentionWake : retained.padGate (req 0) 4 = .heldTier := by decide +kernel
theorem hyp_RetentionWakeDone :
    waking.tierOf 1 0 = .waking 1000000 ∧ (1000000 : BitVec 64).toNat ≤ waking.sys.time.toNat ∧ waking.pad.held = [] := by
  decide +kernel
theorem test_retentionWake :
    after (.retentionWake (req 0) (.read 4)) retained (fun t => t.tierOf 1 0 == .waking 1006000) = true := by
  decide +kernel

/-- Row 9 of the device's bank 5123 is to be replaced, its contents lost. -/
def mapping : State :=
  { banked with
    err := { banked.err with decided := [(5123 * 1024 + 9, some true)] }
    pad := { banked.pad with mem := [(0x28060480, 7)] } }

theorem hyp_RowMapout :
    mapping.err.decided.get none (5123 * 1024 + 9) = some true ∧ mapping.bankHole 5123 = false ∧
    (mapping.bankOf 5123).st = .settled ∧ (mapping.bankOf 5123).owner = none ∧
    mapping.tierOf (regionOfCluster (bankCluster 5123)) (bankTier 5123) = .awake ∧ (mapping.rowEnt 5123 0).used = false ∧
    (mapping.rowEnt 5123 0).bad = false := by decide +kernel
theorem test_rowMapout :
    after (.rowMapout 5123 9) mapping
      (fun t => t.rowEnt 5123 0 == ⟨true, true, false, 9⟩ && t.padByte 0x28060480 == 0) = true := by decide +kernel

/-! ## Tagged slots (R195–R199) -/

/-- A row of 128 bytes. -/
def row : List Byte := List.replicate 128 9

/-- Slot 1 of cluster 5 is FULL. -/
def tagged : State := { banked with pad := { banked.pad with tags := [(5 * 512 + 1, true)] } }

theorem hyp_TaggedSlots :
    tagged.nocOpen (req 128) = true ∧ tagged.slotAt (req 128).addr = some (5, 1) ∧ tagged.slotAt (req 256).addr = some (5, 2) ∧
    tagged.pad.tagHeld = [] ∧ (tagged.bankOf (tagged.slotBank 5)).owner = tagged.clusterOwner 5 ∧
    tagged.padGate (req 128) 128 = .ok ∧ tagged.frozen (3 : Fin 64).val = false ∧ row.length = 128 ∧
    tagged.nocBarred (req 128) 128 = false ∧ tagged.tagFull 5 1 = true ∧ tagged.tagFull 5 2 = false ∧
    tagged.poisoned (req 128).addr.toNat 128 = false := by decide +kernel
theorem test_tagWrite :
    after (.tagWrite (req 256) row) tagged (fun t => t.tagFull 5 2 && t.padByte 0x28000100 == 9) = true := by
  decide +kernel
theorem test_tagWriteHeld :
    after (.tagWrite (req 128) row) tagged (fun t => t.pad.tagHeld.map (·.slot) == [1] && t.pad.mem.isEmpty) = true := by
  decide +kernel
theorem test_tagRead : after (.tagRead (req 128)) tagged (fun t => !t.tagFull 5 1) = true := by decide +kernel

/-- A read of slot 2 that is held, or refused, since the given time. -/
def tagWaiting (held : Bool) (since : BitVec 64) : State :=
  let s := flying 0x40 .running tagged
  let x : TagReq := ⟨6, 5, 2, req 256, .read, since⟩
  { s with pad := { s.pad with tagHeld := if held then [x] else [], tagBusy := if held then [] else [x] } }

theorem hyp_TagTimeout :
    ((tagWaiting true 999000).pad.tagHeld.find? fun t => t.id == 6 &&
      decide (t.since.toNat + (tagWaiting true 999000).slotTimeoutNs t.cluster ≤ (tagWaiting true 999000).sys.time.toNat)) =
      some ⟨6, 5, 2, req 256, .read, 999000⟩ ∧ tagAdmits ((tagWaiting true 999000).tagFull 5 2) .read = false := by
  decide +kernel
theorem hyp_TagBusyRetry :
    ((tagWaiting false 999968).pad.tagBusy.find? fun t => t.id == 6 &&
      decide (t.since.toNat + 32 ≤ (tagWaiting false 999968).sys.time.toNat)) = some ⟨6, 5, 2, req 256, .read, 999968⟩ ∧
    (tagWaiting false 999968).sys.time.toNat < (999968 : BitVec 64).toNat + (tagWaiting false 999968).slotTimeoutNs 5 ∧
    (tagWaiting false 999968).padGate (req 256) 128 = .ok := by decide +kernel
theorem hyp_TagBusyLate :
    (999000 : BitVec 64).toNat + (tagWaiting false 999000).slotTimeoutNs 5 ≤ (tagWaiting false 999000).sys.time.toNat ∧
    (req 256).ref = some cmdRef ∧ ((tagWaiting false 999000).flight? cmdRef).map (fun f => f.st.ended) = some false := by
  decide +kernel
theorem hyp_TagClr : (∃ x, tagged.openAt .pf ⟨.clu, 5⟩ 0x544 1 = .ok x) ∧ (1 : Word).getLsbD 0 = true :=
  ⟨⟨_, rfl⟩, by decide⟩
theorem test_tagTimeout :
    after (.tagTimeout 6) (tagWaiting true 999000)
      (fun t => t.pad.tagHeld.isEmpty && (t.flight? cmdRef).map (fun f => f.st.ended) == some true) = true := by
  decide +kernel
theorem test_tagClr : after (.tagClr .pf 5 1) tagged (fun t => !t.tagFull 5 1) = true := by decide +kernel

/-! ## Page tables (R220–R228) -/

/-- The physical function has selected entry 4 of partition 3 and written the low half of a mapping to page 6; one miss
waits. -/
def paging : State :=
  let s := (tenant ready).setPr .cel 0 0x44 0x00030004
  let s := s.setPr .part 3 0x54 2
  { s with
    bus := { s.bus with wbufs := [(bufKey .pf ⟨.cel, 0⟩, some ⟨0x48, 0x00C00000⟩)] }
    cel := { s.cel with misses := [⟨true, 3, 40, 5⟩] } }

/-- Entry 4 maps page 6 and is scrubbing; and an unmapping of it has been scrubbed. -/
def scrubbing : State := paging.setPte 3 4 0x8800000000C00000
def unmapping : State :=
  let s := paging.setPte 3 4 0x8000000000C00000
  { s with cel := { s.cel with unmapping := [(3 * 32768 + 4, some 0)] } }

theorem hyp_PteWrite :
    (∃ x, paging.openAt .pf ⟨.cel, 0⟩ 0x4C 0x80000000 = .ok x) ∧ paging.wbufOf .pf ⟨.cel, 0⟩ = some ⟨0x48, 0x00C00000⟩ ∧
    ((paging.pr .cel 0 0x44).extractLsb' 16 6).toNat = 3 ∧ ((paging.pr .cel 0 0x44).extractLsb' 0 15).toNat = 4 ∧
    paging.configured 3 = true ∧ paging.cel.unmapping.get none (3 * 32768 + 4) = none ∧
    (paging.pteOf 3 4).getLsbD 63 = false ∧ 6 < paging.poolPages ∧ paging.err.retired.contains 6 = false ∧
    paging.ppnMapped (3 * 32768 + 4) 6 = false ∧ paging.pagesMapped 3 + 1 ≤ (paging.pr .part 3 0x54).toNat % 32768 :=
  ⟨⟨_, rfl⟩, by decide +kernel⟩
theorem hyp_PageScrubDone : (scrubbing.pteOf 3 4).getLsbD 63 = true ∧ (scrubbing.pteOf 3 4).getLsbD 59 = true := by
  decide +kernel
theorem hyp_PteUnmapDone :
    unmapping.cel.unmapping.get none (3 * 32768 + 4) = some 0 ∧ (unmapping.pteOf 3 4).getLsbD 59 = false := by
  decide +kernel
theorem hyp_CelMissRead : paging.served .pf 0x8054 = true ∧ paging.cel.misses = [⟨true, 3, 40, 5⟩] := by decide +kernel
theorem test_pteWrite :
    after (.pteWrite .pf 0x80000000) paging (fun t => t.pteOf 3 4 == 0x8800000000C00000) = true := by decide +kernel
theorem test_pageScrubDone : after (.pageScrubDone 3 4) scrubbing (fun t => t.pteOf 3 4 == 0x8000000000C00000) = true := by
  decide +kernel
theorem test_celMissRead : after (.celMissRead .pf) paging (fun t => t.cel.misses.isEmpty) = true := by decide +kernel

/-! ## Movers (R229–R245) -/

/-- A mover command on channel 40, FILL of 8 bytes with a pattern to the start of bank 5120. -/
def chan (wait : BitVec 4) : ChanCmd :=
  { ref := cmdRef, src := 0x0807060504030201, dst := 0x28000000, aux := 0, c0 := 8, c1 := 1, c2 := 1, srcS1 := 0
    srcS2 := 0, dstS1 := 8, dstS2 := 8, done := 0, outDone := 0, mode := 0x1000, ctr := 0, inc := 0, tag := 0, wait := wait
    since := 0, hostData := none, collided := 0, page := none, sent := false, awaits := [], paid := 0, failAt := none }

/-- That command waits on the channel with the given reason, ten milliseconds after it stopped. -/
def stopped (wait : BitVec 4) : State :=
  let s := (flying 0x41 .running { banked with sys := { banked.sys with time := 10000000 } }).setChan 40 (some (chan wait))
  { s with cel := { s.cel with misses := [⟨true, 3, 40, 5⟩] } }

theorem hyp_TranslationAnswers :
    (stopped waitMiss).chanOf (40 : Fin 512).val = some (chan waitMiss) ∧ (chan waitMiss).wait = waitMiss ∧
    (chan waitPage).wait = waitPage ∧ (chan waitMiss).since.toNat + 10000000 ≤ (stopped waitMiss).sys.time.toNat := by
  decide +kernel
theorem hyp_CelResume :
    (∃ x, (stopped waitMiss).openAt .pf ⟨.cel, 0⟩ 0x58 (BitVec.ofNat 32 (40 : Fin 512).val) = .ok x) ∧
    ∃ x, (stopped waitMiss).openAt .pf ⟨.cel, 0⟩ 0x58 (0x80000000 ||| BitVec.ofNat 32 (40 : Fin 512).val) = .ok x :=
  ⟨⟨_, rfl⟩, ⟨_, rfl⟩⟩
theorem test_celResumeFail :
    after (.celResumeFail .pf 40) (stopped waitMiss)
      (fun t => (t.chanOf 40).isNone && (t.flight? cmdRef).map (fun f => f.st.ended) == some true) = true := by
  decide +kernel
theorem test_pageResponse : after (.pageResponse 40 .success) (stopped waitPage) (fun t => t.cel.chans == [(40, some (chan 0))]) = true := by
  decide +kernel

/-- A read of eight bytes of host memory is outstanding for that channel. -/
def reading : State :=
  let s := stopped waitData
  { s with host := { s.host with reads := [⟨2, 4, some cmdRef, .mover 40, [(0, 8)]⟩] } }

theorem hyp_HostReadCompletion :
    (reading.host.reads.find? fun r => r.id == 2) = some ⟨2, 4, some cmdRef, .mover 40, [(0, 8)]⟩ ∧
    reading.chanOf 40 = some (chan waitData) ∧ (row.take 8).length = ([((0 : Nat), 8)].map (·.2)).foldl (· + ·) 0 := by
  decide +kernel
theorem test_hostReadCompletion :
    after (.hostReadCompletion 2 .ok (row.take 8)) reading
      (fun t => t.host.reads.isEmpty && (t.chanOf 40).map (·.hostData) == some (some (row.take 8))) = true := by
  decide +kernel
theorem test_hostReadPoisoned :
    after (.hostReadCompletion 2 .poisoned []) reading
      (fun t => t.host.aer == [(4, 0x001D)] && (t.chanOf 40).isNone) = true := by decide +kernel
theorem test_atsInvalidation :
    after (.atsInvalidation 4 1 0 2) { ready with cel := { ready.cel with atc := [(4, 1), (4, 2), (5, 1)] } }
      (fun t => t.cel.atc == [(4, 2), (5, 1)]) = true := by decide +kernel

/-- A queued record of each mover opcode, on channel 0 of the partition's cluster. -/
def moving (op : BitVec 512) : State := flying op .queued banked

/-- Whether a queued record of an opcode is the next mover record of an idle channel. -/
def startable (op : BitVec 512) : Bool :=
  (match (moving op).flight? cmdRef with
    | some f => f.st == .queued && !f.lrec.pwEn && f.lrec.opcode == op.truncate 8
    | none => false) &&
  (moving op).chanOf ((moving op).moverChan (rec op)) == none &&
  ((moving op).nextMover ((moving op).moverChan (rec op))).map (·.lrec.ref) == some cmdRef

theorem hyp_MoverStarts :
    startable 0x40 = true ∧ startable 0x41 = true ∧ startable 0x42 = true ∧ startable 0x43 = true ∧
    startable 0x44 = true ∧ startable 0x60 = true :=
  ⟨by decide +kernel, by decide +kernel, by decide +kernel, by decide +kernel, by decide +kernel, by decide +kernel⟩
theorem test_copyOp : after (.copyOp cmdRef) (moving 0x40) (fun t => (t.chanOf 40).map (·.op) == some 0) = true := by
  decide +kernel

/-- The same FILL as a command of the physical function, to a bank that the device owns. -/
def pfRef : RecRef := ⟨64, 0, 0, 0⟩
def filling : State :=
  let s := { banked with fe := { banked.fe with flights := [⟨{ rec 0x41 with ref := pfRef }, .running, false, 0⟩] } }
  s.setChan 40 (some { chan 0 with ref := pfRef, dst := 0x28020000 })

/-- A chunk of a remote write that has been acknowledged, of one or of two chunks. -/
def acked (n : BitVec 32) : State :=
  (flying 0x40 .running banked).setChan 40 (some { chan 0 with c0 := n, mode := 0, sent := true })

theorem hyp_MoverFill :
    filling.chanOf 40 = some { chan 0 with ref := pfRef, dst := 0x28020000 } ∧ filling.pwr.trip = false ∧
    (filling.flight? pfRef).map (fun f => f.st.ended) = some false ∧ ({ chan 0 with ref := pfRef }).op = 1 ∧
    ({ chan 0 with ref := pfRef }).fence = false ∧ ({ chan 0 with ref := pfRef }).ctrKind = 0 ∧
    filling.moverPad { chan 0 with ref := pfRef, dst := 0x28020000 } 0x28020000 8 = none := by decide +kernel
theorem hyp_MoverSent :
    (acked 4097).chanOf 40 = some { chan 0 with c0 := 4097, mode := 0, sent := true } ∧
    4096 * ((0 : BitVec 32).toNat + 1) < ({ chan 0 with c0 := 4097, mode := 0 }).total ∧
    ({ chan 0 with c0 := 4096, mode := 0 }).total ≤ 4096 * ((0 : BitVec 32).toNat + 1) ∧
    ({ chan 0 with mode := 0 }).ctrKind = 0 := by decide +kernel
theorem test_moverFill :
    after (.moverChunkDone 40 false false) filling
      (fun t => t.padRead 0x28020000 8 == [1, 2, 3, 4, 5, 6, 7, 8] && (t.chanOf 40).isNone) = true := by decide +kernel
theorem test_moverSent :
    after (.moverChunkDone 40 false false) (acked 4097) (fun t => (t.chanOf 40).map (·.done) == some 1) = true := by
  decide +kernel

end Sys2Proof.Tests
end

