-- ==== Sys2Proof/Tests/Queues.lean ====
section
/-! SUPPORT. Witnesses for the statements about queue instances, counters, waits, deadlock detection and the register
bus, and small tests of their commands. -/

namespace Sys2Proof.Tests

set_option Elab.async false

open Sys2Proof Sys2Proof.Machine

/-! ## Queue instances (R246–R276) -/

/-- A word of a link queue. -/
def word (eoi : Bool) : QWord := ⟨List.replicate 256 1, eoi, false, false, false⟩

/-- Link queue 2 holds the given words, its pointers agreeing. -/
def queued (ws : List QWord) : State := ready.setQue (.link 2) { QueueSt.init with words := ws, used := ws.length, w := ws.length }

theorem hyp_QueueWrite :
    (ready.que1 (.link 2)).dropping = false ∧ (ready.que1 (.link 2)).used < ready.depth (.link 2) ∧
    (ready.que1 (.link 2)).inWrite + 1 ≤ ready.maxItem (.link 2) := by decide +kernel
theorem hyp_QueueFull : ({ QueueSt.init with used := 1024 }).dropping = false ∧
    (ready.setQue (.link 2) { QueueSt.init with used := 1024 }).depth (.link 2) ≤
      ((ready.setQue (.link 2) { QueueSt.init with used := 1024 }).que1 (.link 2)).used := by decide +kernel
theorem hyp_QueueRead :
    ((queued [word true]).que1 (.link 2)).owed = false ∧ ((queued [word true]).que1 (.link 2)).words = [word true] ∧
    itemAvailable (((queued [word true]).queCfg (.link 2)).toNat % 65536) [word true] = true := by decide +kernel
theorem hyp_QueueIdle :
    ((queued [word false]).que1 (.link 2)).inRead = false ∧
    itemAvailable (((queued [word false]).queCfg (.link 2)).toNat % 65536) [word false] = false := by decide +kernel
theorem hyp_QueueFlush :
    queueRegs (.link 2) = some (⟨.lnk, 2⟩, 0x100) ∧ (∃ x, (queued [word true]).openAt .pf ⟨.lnk, 2⟩ (0x100 + 0x0C) 1 = .ok x) ∧
    (1 : Word).getLsbD 0 = true ∧ ((queued [word true]).que1 (.link 2)).inRead = false ∧
    ((queued [word true]).que1 (.link 2)).inWrite = 0 := ⟨by decide, ⟨_, rfl⟩, by decide +kernel⟩
theorem hyp_QueuePtrMismatch : (QInst.slot 7).duplicated = true := by decide
theorem test_queueWrite :
    after (.queueWrite (.link 2) (List.replicate 256 1) true) ready (fun t => (t.que1 (.link 2)).words == [word true]) = true := by
  decide +kernel
theorem test_queueRead :
    after (.queueRead (.link 2)) (queued [word true])
      (fun t => t.que.readWord == some (word true) && (t.que1 (.link 2)).used == 0) = true := by decide +kernel
theorem test_queueIdle :
    after (.queueRead (.link 2)) (queued [word false]) (fun t => t.que.readWord.map (·.idle) == some true) = true := by
  decide +kernel
theorem test_queueFlush :
    after (.queueFlush .pf (.link 2) 1) (queued [word true]) (fun t => (t.que1 (.link 2)).words.isEmpty) = true := by
  decide +kernel

/-! ## Counter commands (R254–R262, R290) -/

/-- A record's words from its opcode and its IMM. -/
def raw (op imm : Nat) : BitVec 512 := BitVec.ofNat 512 (op + imm * 2 ^ 192)

/-- A queued record of the given opcode about counter ID 0, with the given amount or target. -/
def counting (op v : Nat) : State := flying (raw op v) .queued { counted with
  parts := { counted.parts with tokens := [(15, 1000), (17, 1000)] } }

theorem hyp_CounterCommands :
    ((counting 0x50 3).flight? cmdRef).map (fun f => (f.st == .queued, f.lrec.pwEn)) = some (true, false) ∧
    (counting 0x50 3).vid (rec (raw 0x50 3)).part ((rec (raw 0x50 3)).immF 32 12) = some (5, 9) ∧
    (rec (raw 0x50 3)).opcode = 0x50 ∧ (rec (raw 0x53 3)).opcode = 0x53 ∧ (counting 0x50 3).inputRoom 5 = true := by
  decide +kernel
theorem hyp_WaitOp :
    (rec (raw 0x51 1)).opcode = 0x51 ∧ (counting 0x51 0).frozen 3 = false ∧
    serialReached ((counting 0x51 0).countOf 5 9) 0 = true ∧ serialReached ((counting 0x51 1).countOf 5 9) 1 = false := by
  decide +kernel
theorem test_signalOp :
    after (.signalOp cmdRef) (counting 0x50 3) (fun t => t.inputOf 5 == [.add 3 9 3 (some cmdRef)]) = true := by
  decide +kernel
theorem test_waitHeld :
    after (.waitOp cmdRef) (counting 0x51 1) (fun t => t.syn.waits.map (fun w => (w.counter, w.target)) == [(9, 1)]) = true := by
  decide +kernel

/-- The device's own logical coordinate 0 maps to its own physical coordinate 0. -/
def addressed (op imm : Nat) : State :=
  let s := counting op imm
  { s with lk := { s.lk with map := [(0, 0x80000000)] } }

theorem hyp_Arrive :
    (rec (raw 0x52 3)).opcode = 0x52 ∧ (addressed 0x52 3).hasTokens 3 2 = true ∧
    (addressed 0x52 3).routeTo (BitVec.ofNat 14 ((rec (raw 0x52 3)).immF 50 14)) none = .here := by decide +kernel
theorem test_arrive :
    after (.arrive cmdRef) (addressed 0x52 3) (fun t => ((t.port loopPort).rx.get [] 0).length == 1) = true := by
  decide +kernel

/-- A wait of that command for the given target, due at the given time. -/
def wait (target : BitVec 32) (due : Option (BitVec 64)) (pre : Bool) : Wait := ⟨5, 3, 9, 0, target, due, 0, cmdRef, pre⟩

/-- That wait is held, or refused. -/
def waitState (held : Bool) (w : Wait) : State :=
  let s := flying (raw 0x51 1) .waiting counted
  { s with syn := { s.syn with waits := if held then [w] else [], retrying := if held then [] else [w] } }

theorem hyp_WaitBusyRetry : ∀ pre : Bool,
    ((waitState false (wait 0 none pre)).syn.retrying.find? fun w => w.ref == cmdRef) = some (wait 0 none pre) ∧
    (waitState false (wait 0 none pre)).frozen 3 = false ∧
    serialReached ((waitState false (wait 0 none pre)).countOf 5 9) 0 = true ∧
    ((waitState false (wait 0 none pre)).flight? cmdRef).map (fun f => f.st == .waiting) = some true := by decide +kernel
theorem hyp_WaitBusyHeld :
    serialReached ((waitState false (wait 1 none false)).countOf 5 9) 1 = false ∧
    (waitState false (wait 1 none false)).waitDue (wait 1 none false) = false := by decide +kernel
theorem hyp_WaitBusyLate :
    serialReached ((waitState false (wait 1 (some 1000000) false)).countOf 5 9) 1 = false ∧
    (waitState false (wait 1 (some 1000000) false)).waitDue (wait 1 (some 1000000) false) = true := by decide +kernel
theorem hyp_WaitTimeout :
    ((waitState true (wait 1 (some 1000000) false)).syn.waits.find? fun w => w.ref == cmdRef &&
      (waitState true (wait 1 (some 1000000) false)).waitDue w) = some (wait 1 (some 1000000) false) ∧
    serialReached ((waitState true (wait 1 (some 1000000) false)).countOf 5 9) 1 = false := by decide +kernel
theorem test_waitBusyRetry :
    after (.waitBusyRetry cmdRef) (waitState false (wait 1 none false)) (fun t => t.syn.waits == [wait 1 none false]) = true := by
  decide +kernel
theorem test_waitTimeout :
    after (.waitTimeout cmdRef) (waitState true (wait 1 (some 1000000) false)) (fun t => t.pr .sync 5 0x48 == 1) = true := by
  decide +kernel

/-! ## Counter registers and deadlock detection (R263–R272, R285) -/

/-- Entry 0 of partition 3 lets the host signal; entry 1 is being mapped. -/
def hosted : State :=
  let s := counted.setPr .part 3 0x490 1
  { s with syn := { s.syn with vmap := [(3 * 4096, 0xC0000509)] } }

theorem hyp_SyncSignal :
    (∃ x, hosted.openAt .pf ⟨.part, 3⟩ 0x484 0x7000 = .ok x) ∧
    vmapV (hosted.vmapOf (3 : Fin 64).val ((0x7000 : Word).extractLsb' 0 12).toNat) = true ∧
    vmapHost (hosted.vmapOf (3 : Fin 64).val ((0x7000 : Word).extractLsb' 0 12).toNat) = true :=
  ⟨⟨_, rfl⟩, by decide +kernel⟩
theorem hyp_SyncSignalRefused :
    (∃ x, hosted.openAt .pf ⟨.part, 3⟩ 0x484 0x7002 = .ok x) ∧
    vmapV (hosted.vmapOf (3 : Fin 64).val ((0x7002 : Word).extractLsb' 0 12).toNat) = false :=
  ⟨⟨_, rfl⟩, by decide +kernel⟩
theorem hyp_VmapWrite :
    (∃ x, hosted.openAt .pf ⟨.part, 3⟩ 0x494 0x8000050A = .ok x) ∧ vmapV 0x8000050A = true ∧
    hosted.clusterOwner (vmapCluster 0x8000050A) = some 3 ∧
    hosted.mappedElsewhere (3 * 4096 + 1) (vmapCluster 0x8000050A) (vmapCounter 0x8000050A) = false ∧
    vmapV (hosted.vmapOf 3 ((hosted.pr .part 3 0x490).toNat % 4096)) = false := ⟨⟨_, rfl⟩, by decide +kernel⟩
theorem test_syncSignal :
    after (.syncSignal .pf 3 0x7000) hosted (fun t => t.inputOf 5 == [.add 3 9 7 none]) = true := by decide +kernel
theorem test_vmapWrite : after (.vmapWrite .pf 3 0x8000050A) hosted (fun t => t.vmapOf 3 1 == 0x8000050A) = true := by
  decide +kernel

/-- Partition 3 has waited, held, for its whole window. -/
def quiet (host frozen : Bool) : State :=
  let s := waitState true (wait 1 none false)
  { s.setBramble 3 { Bramble.init with quiet := s.windowNs 3, frozen := frozen } with
    syn := { (s.setBramble 3 { Bramble.init with quiet := s.windowNs 3, frozen := frozen }).syn with
      vmap := [(3 * 4096, if host then 0xC0000509 else 0x80000509)] } }

theorem hyp_BrambleWindow : ∀ host : Bool,
    ((quiet host false).pr .part (3 : Fin 64).val 0x480).getLsbD 31 = true ∧ (quiet host false).frozen (3 : Fin 64).val = false ∧
    ((quiet host false).brambleOf 3).counted = false ∧ (quiet host false).windowNs 3 ≤ ((quiet host false).brambleOf 3).quiet ∧
    (quiet host false).blockedWaits 3 ≠ [] ∧ vmapHost ((quiet host false).vmapOf 3 0) = host := by decide +kernel
theorem hyp_BrambleSnapshotDone :
    (quiet false true).frozen (3 : Fin 64).val = true ∧ ((quiet false true).brambleOf 3).heldAny = false := by
  decide +kernel
theorem test_brambleFreezes : after (.brambleWindow 3) (quiet false false) (fun t => t.frozen 3) = true := by decide +kernel
theorem test_brambleOutside :
    after (.brambleWindow 3) (quiet true false) (fun t => !t.frozen 3 && t.pr .part 3 0x4AC == 1) = true := by
  decide +kernel
theorem test_brambleEnds :
    after (.brambleSnapshotDone 3) (quiet false true)
      (fun t => (t.flight? cmdRef).map (fun f => f.st.ended) == some true && t.syn.waits.isEmpty) = true := by
  decide +kernel

/-! ## Register accesses (R581, R630–R644) -/

/-- Whether a 32-bit write opens a register of which `p` holds. -/
def opens (s : State) (off : BitVec 26) (v : Word) (p : Target → RegSpec → Bool) : Bool :=
  match s.openWrite .pf off.toNat 4 v with
  | .ok (x, r) => p x r
  | .error _ => false

/-- A start that has failed. -/
def failedStart : State := startAt 0xF
where startAt (p : BitVec 4) : State := { State.reset with sys := { Sys.reset with started := true, phase := p } }

theorem hyp_UnservedAccesses :
    (failedStart.startAt 4).sys.phase ≠ 0xF ∧ 1 ≤ (failedStart.startAt 4).sys.phase.toNat ∧
    (failedStart.startAt 4).sys.phase.toNat ≤ 6 ∧ failedStart.sys.phase = 0xF ∧ failedStart.pwr.trip = false := by decide
theorem hyp_FailedRead :
    ((0x6040 : BitVec 26).toNat / 0x1000 ∈ [0, 4, 6]) ∧ failedStart.resolve .pf (0x6040 : BitVec 26).toNat = some ⟨⟨.err, 0⟩, 0x40⟩ ∧
    pairLow .err (0x40 - 4) = false := by decide +kernel
theorem test_unservedRead :
    after (.registerPairRead .pf 0x1000 .w32) (failedStart.startAt 4) (fun t => t.bus.readData == 0xFFFFFFFF) = true := by
  decide +kernel

/-- A commit of the PWR page waits, with a staged limit. -/
def committing : State :=
  let s := ready.setCommit ⟨.pwr, 0⟩ { waiting := true, last := 0, applied := 0, groups := [1], anyApplied := false, anyRejected := false }
  { s with bus := { s.bus with staged := [(rk .pwr 0 0x44, some 0x5A5A)] } }

theorem hyp_WaitingWrite :
    opens committing 0x1044 0x5A5A (fun x r => r.acc == .rws && (committing.commitOf x.page).waiting &&
      (committing.commitOf x.page).groups.contains (groupOf x.page.kind x.off)) = true := by decide +kernel
theorem hyp_WaitingCommit :
    opens committing 0x1020 1 (fun x _ => (committing.commitOf x.page).waiting) = true ∧
    opens committing 0x1020 2 (fun x _ => (committing.commitOf x.page).waiting) = true := by decide +kernel
theorem test_stageDiscard :
    after (.stageDiscard .pf 1) committing (fun t => (t.stagedKeys ⟨.pwr, 0⟩).isEmpty && (t.commitOf ⟨.pwr, 0⟩).last == 3) = true := by
  decide +kernel

theorem hyp_PlainWrite :
    opens ready 0x3048 5 (fun x r => r.acc == .rw && !heldLow x r && x.page.kind == .age && decide (0x40 ≤ x.off)) = true := by
  decide +kernel
theorem hyp_StagedWrite :
    opens ready 0x1044 0x5A5A (fun x r => r.acc == .rws && !heldLow x r && !stagedHigh x r && ready.stageOpen x) = true := by
  decide +kernel
theorem hyp_StatusWrite :
    opens ready 0x6010 1 (fun x r => decide (x.off = 0x10) && x.page.kind != .msixTable && !heldLow x r) = true := by
  decide +kernel
theorem hyp_RejectedWrite :
    ready.served .pf (0x6040 : BitVec 26).toNat = true ∧ ready.resolve .pf (0x6040 : BitVec 26).toNat = some ⟨⟨.err, 0⟩, 0x40⟩ ∧
    ∃ r, writeCheck .pf ⟨⟨.err, 0⟩, 0x40⟩ 0 = .error r := ⟨by decide +kernel, by decide +kernel, ⟨_, rfl⟩⟩
theorem hyp_IntForce : opens ready 0x6018 1 (fun x _ => x.page.kind != .msixTable) = true := by decide +kernel
theorem test_registerWrite : after (.registerWrite .pf 0x3048 .w32 5) ready (fun t => t.pr .age 0 0x48 == 5) = true := by
  decide +kernel
theorem test_stagedWrite :
    after (.registerWrite .pf 0x1044 .w32 0x5A5A) ready
      (fun t => t.stagedOf (rk .pwr 0 0x44) == some 0x5A5A && t.pr .pwr 0 0x44 == 0x645F) = true := by decide +kernel
theorem test_intForce : after (.intForce .pf 6 1) ready (fun t => t.pr .err 0 0x10 == 1) = true := by decide +kernel

/-- The high half of the time base, latched for the physical function. -/
def latched : State := { ready with bus := { ready.bus with latches := [(bufKey .pf ⟨.clk, 0⟩, some ⟨0x44, 5⟩)] } }

theorem hyp_PairRead :
    ready.served .pf (0x40 : BitVec 26).toNat = true ∧ ready.resolve .pf (0x40 : BitVec 26).toNat = some ⟨⟨.glb, 0⟩, 0x40⟩ ∧
    (0x40 : BitVec 26).toNat % 8 = 0 ∧ pairLow .glb 0x40 = true := by decide +kernel
theorem hyp_LatchedRead :
    latched.resolve .pf (0x2048 : BitVec 26).toNat = some ⟨⟨.clk, 0⟩, 0x48⟩ ∧ pairLow .clk 0x48 = false ∧
    pairLow .clk (0x48 - 4) = true ∧ latched.latchOf .pf ⟨.clk, 0⟩ = some ⟨0x44, 5⟩ := by decide +kernel
theorem hyp_ErrLogRead :
    ready.served .pf ((1 : BitVec 14).toNat * 0x1000 + 0x1C) = true ∧
    ready.resolve .pf ((1 : BitVec 14).toNat * 0x1000 + 0x1C) = some ⟨⟨.pwr, 0⟩, 0x1C⟩ := by decide +kernel
theorem test_latchedRead :
    after (.registerPairRead .pf 0x2048 .w32) latched (fun t => t.bus.readData == 5) = true := by decide +kernel

/-- One staged register of a page of each kind of fate: AGE applies, PWR waits, STG is refused. -/
def stagedOn (k : PageKind) (off : Nat) (v : Word) : State :=
  { ready with bus := { ready.bus with staged := [(rk k 0 off, some v)] } }

/-- Whether STAGE_COMMIT of a page opens and finds one staged group of the given fate. -/
def commits (s : State) (off : BitVec 26) (fate : GroupFate) : Bool :=
  opens s off 1 fun x _ => !(s.commitOf x.page).waiting && s.commitGroups x.page == [1] && s.groupFate false x.page 1 == fate

theorem hyp_CommitNothing :
    opens ready 0x3020 1 (fun x _ => !(ready.commitOf x.page).waiting && (ready.commitGroups x.page).isEmpty) = true := by
  decide +kernel
theorem hyp_CommitApplies : commits (stagedOn .err 0x40 0x02010000) 0x6020 .apply = true := by decide +kernel
theorem hyp_CommitWaits : commits (stagedOn .pwr 0x44 0x5A5A) 0x1020 .wait = true := by decide +kernel
theorem hyp_CommitRefused : commits (stagedOn .stg 0x40 0x1001) 0x9020 .refuse = true := by decide +kernel
theorem test_commitApplies :
    after (.stageCommit .pf 6) (stagedOn .err 0x40 0x02010000) (fun t => t.pr .err 0 0x40 == 0x02010000) = true := by
  decide +kernel
theorem test_commitWaits :
    after (.stageCommit .pf 1) (stagedOn .pwr 0x44 0x5A5A)
      (fun t => t.pr .pwr 0 0x44 == 0x645F && (t.commitOf ⟨.pwr, 0⟩).waiting) = true := by decide +kernel

/-- Group 1 of the PART page of partition 3 waits, with a staged PARTIAL. -/
def partWaits : State :=
  let s := ready.setCommit ⟨.part, 3⟩ { waiting := true, last := 0, applied := 0, groups := [1], anyApplied := false, anyRejected := false }
  { s with bus := { s.bus with staged := [(rk .part 3 0x3C4, some 0x80000001)] } }

theorem hyp_CommitApply :
    pageAt (BitVec.ofNat 14 ((PageId.mk .part 3).base / 0x1000)).toNat = some ⟨.part, 3⟩ ∧
    (partWaits.commitOf ⟨.part, 3⟩).waiting = true ∧ 1 ∈ (partWaits.commitOf ⟨.part, 3⟩).groups ∧ partWaits.gangOf 3 = none := by
  decide +kernel
theorem test_commitApply :
    after (.commitApply (BitVec.ofNat 14 ((PageId.mk .part 3).base / 0x1000)) 1) partWaits
      (fun t => t.pr .part 3 0x3C4 == 0x80000001) = true := by decide +kernel

end Sys2Proof.Tests
end

