-- ==== Sys2Proof/Tests/Front.lean ====
section
/-! SUPPORT. Witnesses for the statements about the command front end, and small tests of its commands. -/

namespace Sys2Proof.Tests

set_option Elab.async false

open Sys2Proof Sys2Proof.Machine

/-- Partition 3 runs its context 0, which owns every queue; its virtual function may master the bus; handle 1 names host
memory for rings, handle 2 host memory for command buffers; and all its tokens are there. -/
def hostMem : Handle := { base := 0, dev := 0x8000000000010000, size := 0x10000, rights := 0xF8, fmt := 0, scale := 0 }
def fronted : State :=
  let s := (banked.setHandle 3 1 hostMem).setHandle 3 2 hostMem
  let s := (s.setPart 3 { Part.init with st := .active, runCtx := some 0 }).setCtx 3 0 { Ctx.init 0 with st := .running }
  { s with
    parts := { s.parts with cluster := [(5, some 3)], tokens := [(15, 1000), (17, 1000), (19, 1000)] }
    host := { s.host with
      config := [(4, { FnConfig.init with busMaster := true })], vfEnable := true, numVFs := 64 } }

/-- Queue 2 is configured with a ring and a completion ring of 16 entries each in handle 1, and holds the given
state. -/
def ringed (x : SwQueue) : State :=
  let s := [(0x184, 0x00040001), (0x190, 0x00040001), (0x194, 0x1000)].foldl
    (fun s (e : Nat × Word) => s.setPr .fe 3 e.1 e.2) fronted
  s.setQueue 3 2 { x with gid := 2 }

/-- An entry of one record in handle 2. -/
def entry : BitVec 512 := BitVec.ofNat 512 (2 + 2 ^ 80)

/-- Queue 2 READY with one entry started, and with one not yet started. -/
def started : SwQueue :=
  { SwQueue.init with st := .ready, tail := 1, started := 1, entries := [⟨0, entry, 0, [], false⟩] }
def unstarted : SwQueue := { SwQueue.init with st := .ready, tail := 1 }

/-! ## Front-end commands (R468–R475) -/

/-- An operand of the given kind at a device address. -/
def opnd (kind : BitVec 2) (h : BitVec 12) (a : BitVec 64) : ROpnd := ⟨h, 0, kind, a, a, a + 7, none⟩

/-- A queued record with that operand. -/
def operated (op : BitVec 512) (o : ROpnd) (s : State) : State :=
  { s with fe := { s.fe with flights := [⟨{ rec op with opnds := [some o] }, .queued, false, 77⟩] } }

theorem hyp_Nop : ((flying 0 .queued fronted).flight? cmdRef).map
    (fun f => (f.st == .queued, f.lrec.pwEn, f.lrec.opcode)) = some (true, false, 0) := by decide +kernel
theorem hyp_TimestampPad :
    (rec 2).opcode = 0x02 ∧ ({ rec 2 with opnds := [some (opnd 0 3 0x28000000)] }).opnd 0 = some (opnd 0 3 0x28000000) ∧
    fronted.padOwned 3 0x28000000 8 = true ∧ fronted.scopeHit 3 0x28000000 8 = false := by decide +kernel
theorem hyp_TimestampView :
    ((fronted.setPte 3 1 0xF000000000C00000).viewWritable 3 (0x4000200000 % 0x1000000000) 8 = none) ∧
    (opnd 1 3 0x4000200000).kind = 1 ∧ fronted.scopeHit 3 0x4000200000 8 = false := by decide +kernel
theorem hyp_TimestampHost : fronted.mayRequest (fnOf 3) = true ∧ (opnd 2 3 0x8000000000010000).kind = 2 := by
  decide +kernel
theorem test_nop : after (.nop cmdRef) (flying 0 .queued fronted)
    (fun t => (t.flight? cmdRef).map (fun f => f.st == .completed) == some true) = true := by decide +kernel
theorem test_timestamp :
    after (.timestamp cmdRef) (operated 2 (opnd 0 3 0x28000000) fronted)
      (fun t => t.padRead 0x28000000 8 == [77, 0, 0, 0, 0, 0, 0, 0]) = true := by decide +kernel

/-- A self-fed ring of 16 entries in bank 5120 for queue 4, with the given TAIL; the record submits one entry to it. -/
def selfFed (tail : BitVec 17) : State :=
  let s := [(0x200, 0x80000000), (0x204, 0x00040005)].foldl (fun s (e : Nat × Word) => s.setPr .fe 3 e.1 e.2)
    (fronted.setHandle 3 5 { handle 0 0x28000000 0x20000 with rights := 0xF0 })
  operated (BitVec.ofNat 512 (0x01 + 4 * 65536 + 65536 * 2 ^ 192)) (opnd 2 2 0)
    (s.setQueue 3 4 { SwQueue.init with st := .ready, tail := tail })

theorem hyp_SelfSubmit :
    (selfFed 0).stageFed 3 4 = false ∧ ((selfFed 0).qReg 3 4 0).getLsbD 31 = true ∧
    ((selfFed 0).queueOf 3 4).st = .ready ∧ ptrDist ((selfFed 0).ringLog2 3 4) 0 0 < 2 ^ (selfFed 0).ringLog2 3 4 ∧
    (((selfFed 0).setFlight cmdRef .running).handleWrite 3 (((selfFed 0).qReg 3 4 0x04).toNat % 4096) 0
      (List.replicate 64 0)).isSome = true := by decide +kernel
theorem hyp_SelfSubmitFull : 2 ^ (selfFed 16).ringLog2 3 4 ≤ ptrDist ((selfFed 16).ringLog2 3 4) 0 16 := by decide +kernel
theorem test_selfSubmit :
    after (.selfSubmit cmdRef) (selfFed 0) (fun t => (t.queueOf 3 4).tail == 1 && t.padByte 0x28000000 == 2) = true := by
  decide +kernel
theorem test_selfSubmitFull :
    after (.selfSubmit cmdRef) (selfFed 16) (fun t => (t.queueOf 3 4).tail == 16) = true := by decide +kernel

/-! ## Fetching and dispatching (R476–R485) -/

theorem hyp_RingEntryFetch :
    ((ringed started).halfOf (slotOf 3 false) false).recs = [] ∧ (ringed started).hasTokens 3 4 = true ∧
    (ringed started).pwr.trip = false ∧
    (ringed started).chooseQueue (slotOf 3 false) 3 false ((ringed started).halfOf (slotOf 3 false) true) = some 2 ∧
    ((ringed started).queueOf 3 2).entries.find? (fun e => !e.faulted && ((ringed started).nextIndex (slotOf 3 false) 2 e).isSome) =
      some ⟨0, entry, 0, [], false⟩ ∧
    (ringed started).entryOk 3 2 entry = true := by decide +kernel
theorem hyp_RingEntryRead :
    (match (ringed started).feRead 3 ((ringed started).handleOf 3 (entHandle entry)) (entOffset entry)
        (64 * (entRecords entry + entPrecords entry)) [] with
      | some (.ok _) => true
      | _ => false) = true := by decide +kernel
theorem hyp_RingEntryStart :
    (ringed unstarted).chooseQueue (slotOf 3 false) 3 false ((ringed unstarted).halfOf (slotOf 3 false) true) = some 2 ∧
    ((ringed unstarted).queueOf 3 2).entries.find?
      (fun e => !e.faulted && ((ringed unstarted).nextIndex (slotOf 3 false) 2 e).isSome) = none := by decide +kernel
theorem test_ringEntryFetch :
    after (.ringEntryFetch 3 false false entry [0]) (ringed unstarted)
      (fun t => ((t.halfOf (slotOf 3 false) false).recs.map (·.ref)) == [cmdRef] && (t.queueOf 3 2).started == 1) = true := by
  decide +kernel

/-- A NOP at the head of the first half of the warm slot. -/
def fetched (fault : Option FaultInfo) : State :=
  (ringed started).setHalf (slotOf 3 false) false { Half.init with recs := [{ rec 0 with fault := fault }] }

/-- A fault found at fetch. -/
def aFault : FaultInfo := ⟨0x000E, 7, none, true, 0, 0, []⟩

theorem hyp_DispatchRecord :
    ((fetched none).halfOf (slotOf (3 : Fin 65).val false) false).recs = [rec 0] ∧ (fetched none).mayDispatch (rec 0) = true ∧
    (fetched none).pwr.trip = false ∧ (fetched none).stg.skipping = false ∧ (rec 0).isGang = false ∧
    (fetched none).engineCredit (rec 0) false = true ∧
    (fetched none).yieldsHead (slotOf (3 : Fin 65).val false) false false = false := by decide +kernel
theorem hyp_DispatchFaulted :
    ((fetched (some aFault)).halfOf (slotOf (3 : Fin 65).val false) false).recs = [{ rec 0 with fault := some aFault }] ∧
    (fetched (some aFault)).mayDispatch { rec 0 with fault := some aFault } = true := by decide +kernel
theorem test_dispatchRecord :
    after (.dispatchRecord 3 false false) (fetched none)
      (fun t => t.fe.flights.map (fun f => (f.lrec.ref, f.st)) == [(cmdRef, .queued)]) = true := by decide +kernel

/-- Both halves hold a record of a faulted queue for longer than FE.SWITCH, and queue 2 has an entry to start. -/
def blocked : State :=
  let s := (ringed unstarted).setQueue 3 6 { SwQueue.init with st := .faulted }
  let s := s.setQueue 3 7 { SwQueue.init with st := .faulted }
  let l (q : Fin 16) : LRec := { rec 0 with ref := { cmdRef with queue := q } }
  (s.setHalf (slotOf 3 false) false { Half.init with recs := [l 6], since := some 100 }).setHalf (slotOf 3 false) true
    { Half.init with recs := [l 7], since := some 200 }

theorem hyp_HalfRelease :
    (blocked.pr .fe 3 0x50).toNat % 256 * 1000 ≤ (blocked.sys.time - (200 : BitVec 64)).toNat ∧
    (blocked.halfOf (slotOf 3 false) false).recs.map (blocked.canDispatch · false) = [false] ∧
    (blocked.halfOf (slotOf 3 false) true).recs.map (blocked.canDispatch · false) = [false] ∧
    ((2 : Nat) < 16 ∧ blocked.bound 3 2 = true ∧ blocked.isHot 3 2 = false ∧
      (blocked.queueOf 3 2).started ≠ (blocked.queueOf 3 2).tail) := by decide +kernel
theorem test_halfRelease :
    after (.halfRelease 3 false) blocked (fun t => (t.halfOf (slotOf 3 false) false).recs.isEmpty &&
      !(t.halfOf (slotOf 3 false) true).recs.isEmpty) = true := by decide +kernel

/-! ## Ends of records (R486–R492) -/

/-- The only record of the only started entry is in flight in the given standing; `two` gives the entry two records. -/
def ending (st : FlightSt) (two : Bool) : State :=
  let e : BitVec 512 := if two then BitVec.ofNat 512 (2 + 2 * 2 ^ 80) else entry
  flying 0 st (ringed { started with entries := [⟨0, e, 1, [], false⟩] })

theorem hyp_RecordComplete :
    ((ending .completed true).flight? cmdRef).map (fun f => (f.st == .completed, f.lrec.sigEn)) = some (true, false) ∧
    ((ending .completed true).queueOf 3 2).entries.map (fun e => (e.faulted, entRecords e.raw)) = [(false, 2)] ∧
    ((ending .completed true).queueOf 3 2).st ≠ .zombie := by decide +kernel
theorem hyp_RecordCompleteLast :
    ((ending .completed false).queueOf 3 2).entries.map (fun e => (e.num, entRecords e.raw)) = [(cmdRef.entry, 1)] ∧
    ((ending .completed false).queueOf 3 2).st = .ready ∧ (ending .completed false).hasTokens 3 4 = true ∧
    entDeadlineV entry = false ∧ entIrq entry = false ∧ hostMem.v = true ∧ hostMem.wr = true ∧
    hostMem.covers 0x1000 16 = true ∧ hostMem.kind = 2 ∧ (ending .completed false).mayRequest (fnOf 3) = true ∧
    (ending .completed false).scopeHit 3 (hostMem.dev.toNat + 0x1000) 16 = false := by decide +kernel
theorem hyp_CommandFault :
    ((ending (.faulted aFault) true).flight? cmdRef).map (fun f => f.st == .faulted aFault) = some true ∧
    ((ending (.faulted aFault) true).queueOf cmdRef.part.val cmdRef.queue.val).st ≠ .zombie := by decide +kernel
theorem test_recordComplete :
    after (.recordComplete cmdRef) (ending .completed false) (fun t => (t.queueOf 3 2).head == 1 && t.host.outbox.length == 1) = true := by
  decide +kernel
theorem test_commandFault :
    after (.commandFault cmdRef) (ending (.faulted aFault) true) (fun t => (t.queueOf 3 2).st == .faulted) = true := by
  decide +kernel

/-! ## Queues (R495–R501) -/

/-- Queue 2 is free, with a staged configuration. -/
def creating : State :=
  { fronted with bus := { fronted.bus with
      staged := [(rk .fe 3 0x184, some 0x00040001), (rk .fe 3 0x190, some 0x00040002), (rk .fe 3 0x194, some 0x1000)] } }

theorem hyp_QueueCreate :
    (∃ x, creating.openCtrl .pf 3 2 1 = .ok x) ∧ (creating.queueOf 3 2).st = .free ∧ creating.queueOwned 3 2 = true ∧
    ringOk (creating.handleOf 3 1) 0 (64 * 2 ^ 4) true false = true ∧
    ringOk (creating.handleOf 3 2) 0x1000 (16 * 2 ^ 4) false true = true ∧ creating.freeGid = some 0 :=
  ⟨⟨_, rfl⟩, by decide +kernel⟩
theorem hyp_QueueCreateTwice :
    (∃ x, (ringed started).openCtrl .pf 3 2 1 = .ok x) ∧ ((ringed started).queueOf 3 2).st ≠ .free :=
  ⟨⟨_, rfl⟩, by decide +kernel⟩
theorem hyp_Doorbell :
    (∃ x, (ringed { started with head := 1 }).openAt .pf ⟨.fe, 3⟩ (0x100 + 64 * (2 : Fin 16).val + 0x1C) 17 = .ok x) ∧
    ((ringed { started with head := 1 }).queueOf 3 2).st = .ready ∧ ((ringed { started with head := 1 }).qReg 3 2 0).getLsbD 31 = false ∧
    ((17 : Word).extractLsb' 0 17).toNat < 2 ^ ((ringed { started with head := 1 }).ringLog2 3 2 + 1) ∧
    ptrDist ((ringed { started with head := 1 }).ringLog2 3 2) 1 17 ≤ 2 ^ (ringed { started with head := 1 }).ringLog2 3 2 ∧
    ptrDist ((ringed { started with head := 1 }).ringLog2 3 2) 1 17 ≤ 2 ^ (ringed { started with head := 1 }).ringLog2 3 2 :=
  ⟨⟨_, rfl⟩, by decide +kernel⟩
theorem hyp_QueueResume :
    (∃ x, (ringed { started with st := .faulted, faultCpl := true }).openCtrl .pf 3 2 3 = .ok x) ∧
    ((ringed { started with st := .faulted, faultCpl := true }).queueOf 3 2).st = .faulted ∧
    ((ringed { started with st := .faulted, faultCpl := true }).queueOf 3 2).faultCpl = true := ⟨⟨_, rfl⟩, by decide +kernel⟩
theorem hyp_QueueResumeReady :
    (∃ x, (ringed started).openCtrl .pf 3 2 3 = .ok x) ∧ ((ringed started).queueOf 3 2).st ≠ .faulted :=
  ⟨⟨_, rfl⟩, by decide +kernel⟩
theorem hyp_QueueDestroy :
    (∃ x, (ringed started).openCtrl .pf 3 2 2 = .ok x) ∧ ((ringed started).queueOf 3 2).st = .ready :=
  ⟨⟨_, rfl⟩, by decide +kernel⟩
theorem test_queueCreate : after (.queueCreate .pf 3 2) creating (fun t => (t.queueOf 3 2).st == .ready && t.useOf 3 1 == 1) = true := by
  decide +kernel
theorem test_doorbell : after (.doorbell .pf 3 2 17) (ringed { started with head := 1 }) (fun t => (t.queueOf 3 2).tail == 17) = true := by
  decide +kernel
theorem test_queueDestroy :
    after (.queueDestroy .pf 3 2) (ringed started) (fun t => (t.queueOf 3 2).entries.isEmpty) = true := by decide +kernel

end Sys2Proof.Tests
end

