-- ==== Sys2Proof/Tests/Stage.lean ====
section
/-! SUPPORT. Witnesses for the statements about the stage engine, and small tests of its commands. -/

namespace Sys2Proof.Tests

set_option Elab.async false

open Sys2Proof Sys2Proof.Machine

/-- Stage mode with `p` stages, this the first, `m` micro-batches, three SRAM slots of which one is to stay spare, and one
cellar slot, whose page is mapped; bank 0 belongs to partition 0; queue 0 is READY with a ring in host memory; the
neighbours are this device itself. -/
def pipe (p m : Nat) (x : Stg) : State :=
  let s := [(0x40, BitVec.ofNat 32 (p * 4096)), (0x44, BitVec.ofNat 32 m), (0x48, 0x11030001), (0x60, 0x80008000)].foldl
    (fun s (e : Nat × Word) => s.setPr .stg 0 e.1 e.2) staged
  let s := (s.setHandle 0 0 (handle 1 0x4000000000 0x40000)).setPte 0 0 0xF000000000000000
  let s := (s.setBank 0 { Bank.init with owner := some 0 }).setHandle 0 10 hostMem
  let s := (s.setPr .fe 0 0x104 0x0004000A).setQueue 0 0 { SwQueue.init with st := .ready }
  { s with
    stg := x
    lk := { s.lk with map := [(0, 0x80000000)] }
    host := { s.host with
      config := [(1, { FnConfig.init with busMaster := true })], vfEnable := true, numVFs := 64 } }

/-- A step in progress. -/
def inStep : Stg := { Stg.reset with st := 2, stepsLeft := 1 }

/-! ## Steps (R311, R315, R340–R347) -/

theorem hyp_StepGo : ∃ x, staged.openAt .pf ⟨.stg, 0⟩ 0x6C 0xFFFF = .ok x := ⟨_, rfl⟩
theorem hyp_StgFaultClr :
    (∃ x, staged.openAt .pf ⟨.stg, 0⟩ 0x08 1 = .ok x) ∧ (∃ x, staged.openAt .pf ⟨.stg, 0⟩ 0x08 2 = .ok x) ∧
    (1 : Word).getLsbD 0 = true ∧ (2 : Word).getLsbD 0 = false ∧ (pipe 1 1 { inStep with st := 5 }).stg.st = 5 ∧
    (∃ x, (pipe 1 1 { inStep with st := 5 }).openAt .pf ⟨.stg, 0⟩ 0x08 1 = .ok x) ∧ staged.stg.st ≠ 5 :=
  ⟨⟨_, rfl⟩, ⟨_, rfl⟩, by decide, by decide, by decide +kernel, ⟨_, rfl⟩, by decide +kernel⟩
theorem hyp_StepBegin :
    (pipe 1 1 { inStep with st := 1 }).stg.st = 1 ∧ (pipe 1 1 { inStep with st := 1 }).stg.stepsLeft ≠ 0 ∧
    ((pipe 1 1 { inStep with st := 1 }).stgReg 0x08).getLsbD 1 = false ∧ staged.stg.stepsLeft = 0 := by decide +kernel
theorem test_stepGo :
    after (.stepGo .pf 0xFFFF) (pipe 1 1 { inStep with st := 1 }) (fun t => t.stg.stepsLeft == 0xFFFF) = true := by
  decide +kernel
theorem test_stepBegin :
    after .stepBegin (pipe 1 1 { inStep with st := 1 }) (fun t => t.stg.st == 2 && t.stg.credits == [(0, 64), (1, 64)]) = true := by
  decide +kernel
theorem test_faultClr :
    after (.stgFaultClr .pf 1) (pipe 1 1 { inStep with st := 5 }) (fun t => t.stg.st == 1 && t.ckpt.afterRestore) = true := by
  decide +kernel

/-- Every backward of the step is done. -/
def allBack : State := pipe 1 1 { inStep with fwd := 1, bwd := 1, bwdDone := 1 }

theorem hyp_UpdateInvoke :
    allBack.stg.st = 2 ∧ allBack.stg.pendingFault = none ∧ allBack.stg.inv = none ∧ allBack.stg.bwdDone = allBack.seqLen ∧
    allBack.ledgerUsed = 0 ∧ allBack.stg.send = [] ∧ (allBack.queueOf 0 0).st = .ready ∧
    (allBack.handleWrite 0 ((allBack.qReg 0 0 0x04).toNat % 4096) allBack.invokeAt
      (allBack.invokeEntry 3 (allBack.stgField 0x5C 0 12) 0 (allBack.ledger 0))).isSome = true := by decide +kernel
theorem test_updateInvoke : after .updateInvoke allBack (fun t => t.stg.st == 3 && (t.queueOf 0 0).tail == 1) = true := by
  decide +kernel

/-- An invocation of a program from entry 0 of queue 0 has ended. -/
def invoked (p : Nat) (x : Stg) : State := (pipe p 1 x).setQueue 0 0 { SwQueue.init with st := .ready, head := 1, tail := 1 }
def updated : State := invoked 1 { inStep with st := 3, inv := some ⟨3, 0, 0⟩ }

theorem hyp_StepBoundary :
    updated.stg.inv = some ⟨3, 0, 0⟩ ∧ updated.invEnded = true ∧ updated.stg.st = 3 ∧ updated.stg.pendingFault = none ∧
    (updated.commitOf ⟨.stg, 0⟩).waiting = false := by decide +kernel
theorem hyp_JobFault :
    (pipe 1 1 { inStep with pendingFault := some ⟨5, 3, false, false⟩ }).stg.pendingFault = some ⟨5, 3, false, false⟩ ∧
    (pipe 1 1 { inStep with pendingFault := some ⟨5, 3, false, false⟩ }).stg.st ≠ 0 := by decide +kernel
theorem test_stepBoundary :
    after .stepBoundary updated (fun t => t.stg.st == 1 && t.stg.stepsLeft == 0 && t.stepNo == 1) = true := by decide +kernel
theorem test_jobFault :
    after .jobFault (pipe 1 1 { inStep with pendingFault := some ⟨5, 3, false, false⟩ })
      (fun t => t.stg.st == 5 && t.stg.fault == ⟨5, 3, false, false⟩) = true := by decide +kernel

/-- CRIT_ENTER, or CRIT_EXIT, is the first record of the update program's entry. -/
def crit (op : BitVec 512) (skip : Bool) : State :=
  let s := (pipe 1 1 { inStep with st := if op = 0x61 then 3 else 4, inv := some ⟨3, 0, 0⟩ }).setQueue 0 0
    { SwQueue.init with st := .ready, tail := 1, started := 1, entries := [⟨0, entry, 1, [], false⟩] }
  { s with
    fe := { s.fe with flights := [⟨{ rec op with ref := ⟨0, 0, 0, 0⟩ }, .queued, false, 0⟩] }
    coll := { s.coll with lastSkip := skip } }

theorem hyp_CritEnter : ∀ skip : Bool,
    (crit 0x61 skip).stg.st = 3 ∧ (crit 0x61 skip).earlierDone { rec 0x61 with ref := ⟨0, 0, 0, 0⟩ } = true ∧
    (crit 0x61 skip).ckpt.st ≠ 1 ∧ (crit 0x61 skip).ckpt.uncommitted = false ∧ (crit 0x61 skip).coll.lastSkip = skip := by
  decide +kernel
theorem hyp_CritEnterWaits : (crit 0x62 false).stg.st ≠ 3 ∧ (rec 0x61).opcode = 0x61 ∧ (rec 0x62).opcode = 0x62 := by
  decide +kernel
theorem hyp_CritExit :
    (crit 0x62 false).earlierDone { rec 0x62 with ref := ⟨0, 0, 0, 0⟩ } = true ∧ (crit 0x62 false).writesLanded = true := by
  decide +kernel
theorem hyp_CritExitWaits : (crit 0x62 false).earlierDone { rec 0x62 with ref := ⟨0, 0, 5, 0⟩ } = false := by decide +kernel
theorem test_critEnter : after (.critEnter ⟨0, 0, 0, 0⟩) (crit 0x61 false) (fun t => t.stg.st == 4) = true := by decide +kernel
theorem test_critSkips : after (.critEnter ⟨0, 0, 0, 0⟩) (crit 0x61 true) (fun t => t.stg.skipping && t.stg.st == 3) = true := by
  decide +kernel
theorem test_critExit : after (.critExit ⟨0, 0, 0, 0⟩) (crit 0x62 false) (fun t => t.stg.st == 3) = true := by decide +kernel

/-! ## The stash (R313–R338) -/

/-- One whole item of one word waits in FWD_IN. -/
def waitingItem (x : Stg) : State :=
  (pipe 1 2 { x with tags := [(0, [0])] }).setQue (.stg 0)
    { QueueSt.init with words := [⟨List.replicate 4096 1, true, false, false, false⟩], w := 1, used := 1 }

/-- Three stashed items, filling every slot. -/
def fullLedger : SMap LedgerEnt :=
  [(0, { LedgerEnt.init with st := 4, slot := 0 }), (1, { LedgerEnt.init with tag := 1, st := 4, slot := 1 }),
    (2, { LedgerEnt.init with tag := 2, st := 4, slot := 2 })]

theorem hyp_Admission :
    (waitingItem inStep).itemWaits = true ∧ (waitingItem inStep).freeSlots = [0, 1, 2] ∧ (waitingItem inStep).canAlloc = true ∧
    (waitingItem inStep).stg.admitted + 1 - (waitingItem inStep).stg.bwd ≤ (waitingItem inStep).stgW ∧
    (waitingItem inStep).stashesHeld + 2 ≤ (waitingItem inStep).sramSlots + (waitingItem inStep).cellarSlots := by
  decide +kernel
theorem hyp_AdmissionThrottled :
    (waitingItem { inStep with ledger := fullLedger.take 2, alloc := 2, cstash := [(0, 0x80000005)] }).freeSlots = [2] ∧
    (waitingItem { inStep with ledger := fullLedger.take 2, alloc := 2, cstash := [(0, 0x80000005)] }).sramSlots +
      (waitingItem { inStep with ledger := fullLedger.take 2, alloc := 2, cstash := [(0, 0x80000005)] }).cellarSlots <
      (waitingItem { inStep with ledger := fullLedger.take 2, alloc := 2, cstash := [(0, 0x80000005)] }).stashesHeld + 2 := by
  decide +kernel
theorem test_admission :
    after .admission (waitingItem inStep) (fun t => (t.ledger 0).st == 1 && t.stg.capture == some (0, 0)) = true := by
  decide +kernel

/-- Entry 0 with slot 0 captures the item. -/
def capturing : State :=
  waitingItem { inStep with ledger := [(0, { LedgerEnt.init with st := 1, slot := 0 })], alloc := 1, capture := some (0, 0) }

theorem hyp_CaptureItem :
    capturing.stg.capture = some (0, 0) ∧ (capturing.takeWords (.stg 0) 32768).2.map (·.data.length) = [4096] ∧
    capturing.padOwned 0 (capturing.slotWord 0 0) 4096 = true ∧ capturing.scopeHit 0 (capturing.slotWord 0 0) 4096 = false := by
  decide +kernel
theorem test_captureItem :
    after (.captureItem 0) capturing (fun t => (t.ledger 0).inWords == 1 && t.stg.capture.isNone) = true := by
  decide +kernel

/-- Entry 0 has its item, and its first granule has been counted. -/
def ready1 : State :=
  { pipe 1 1 { inStep with ledger := [(0, { LedgerEnt.init with st := 1, slot := 0 })], alloc := 1, admitted := 1 } with
    syn := { staged.syn with count := [(192, 1)] } }

/-- The forward of entry 0 is over, and its backward may start. -/
def ready2 : State :=
  pipe 1 1 { inStep with ledger := [(0, { LedgerEnt.init with st := 7, slot := 0 })], alloc := 1, admitted := 1, fwd := 1 }

theorem hyp_StageForward :
    ready1.stg.inv = none ∧ ready1.backwardReady = none ∧ ready1.noteLate.forwardReady = some 0 ∧
    (ready1.queueOf 0 0).st = .ready ∧ (ready1.handleWrite 0 ((ready1.qReg 0 0 0x04).toNat % 4096) ready1.invokeAt
      (ready1.invokeEntry 0 (ready1.stgField 0x58 16 12) 0 (ready1.ledger 0))).isSome = true := by decide +kernel
theorem hyp_StageBackward :
    ready2.stg.inv = none ∧ ready2.stgSched ≠ 2 ∧ ready2.backwardReady = some 0 ∧
    (ready2.handleWrite 0 ((ready2.qReg 0 0 0x04).toNat % 4096) ready2.invokeAt
      (ready2.invokeEntry 2 (ready2.stgField 0x58 0 12) 0 (ready2.ledger 0))).isSome = true := by decide +kernel
theorem test_stageForward :
    after .stageDispatch ready1 (fun t => (t.ledger 0).st == 2 && t.stg.inv.map (·.prog) == some 0) = true := by decide +kernel
theorem test_stageBackward :
    after .stageDispatch ready2 (fun t => (t.ledger 0).st == 9 && t.stg.inv.map (·.prog) == some 2) = true := by decide +kernel

/-- The forward program of entry 0 has ended: at the last stage, or with an item to send. -/
def sending : Stg :=
  { inStep with
    ledger := [(0, { LedgerEnt.init with st := 2, slot := 0 })], alloc := 1, admitted := 1, fwd := 1
    inv := some ⟨0, 0, 0⟩, send := [(0, some ⟨0, 0, 0, false⟩)], credits := [(0, 2)] }

theorem hyp_InvocationDone :
    (invoked 1 sending).stg.inv = some ⟨0, 0, 0⟩ ∧ (invoked 1 sending).invEnded = true ∧
    (invoked 1 sending).lastLogical 0 = true ∧ (invoked 2 sending).lastLogical 0 = false ∧
    (invoked 2 sending).stg.send.get none 0 = some ⟨0, 0, 0, false⟩ ∧ 0 < (invoked 2 sending).itemWords ∧
    (invoked 1 { sending with inv := some ⟨2, 0, 0⟩ }).firstLogical 0 = true := by decide +kernel
theorem test_invocationDone :
    after .invocationDone (invoked 1 sending) (fun t => (t.ledger 0).st == 7 && t.pr .stg 0 0x80 == 1) = true := by
  decide +kernel
theorem test_invocationSends :
    after .invocationDone (invoked 2 sending) (fun t => (t.ledger 0).st == 3 && t.stg.inv.isNone) = true := by decide +kernel

/-- Two granules of one word are covered. -/
def covered : State := { pipe 2 1 sending with syn := { staged.syn with count := [(254, 2)] } }

theorem hyp_SendGranule :
    covered.stg.send.get none (0 : Fin 2).val = some ⟨0, 0, 0, false⟩ ∧ (covered.stgReg 0x60).getLsbD 15 = true ∧
    covered.reachable ((covered.stgReg 0x60).extractLsb' 0 14) = true := by decide +kernel
theorem test_sendGranule :
    after (.sendGranule 0) covered (fun t => (t.ledger 0).sentWords == 2 && t.stg.credits.get 0 0 == 0) = true := by
  decide +kernel

/-- Every slot holds a stash, the earliest of item 0. -/
def full : State := pipe 1 3 { inStep with ledger := fullLedger, alloc := 3, admitted := 3, fwd := 3 }
def spilling : State := pipe 1 3 { inStep with ledger := fullLedger, alloc := 3, spill := some ⟨0, 0, 0⟩ }

theorem hyp_SpillStart :
    full.victim.isSome = true ∧ (List.range full.cellarSlots).find? (fun j => !(full.cstash j).getLsbD 31) = some 0 ∧
    full.freeSlots.length < full.stgSpare ∧ full.stg.spill = none := by decide +kernel
theorem hyp_SpillDone :
    spilling.stg.spill = some ⟨0, 0, 0⟩ ∧ spilling.viewWritable 0 (spilling.cslotAddr 0) spilling.itemBytes = none ∧
    spilling.scopeHit 0 (0x4000000000 + spilling.cslotAddr 0) spilling.itemBytes = false := by decide +kernel
theorem test_spillStart : after .spillStart full (fun t => t.stg.spill.isSome) = true := by decide +kernel

/-- The stash of item 0 is in cellar slot 0, and then on its way back. -/
def away : State := pipe 1 1 { inStep with alloc := 1, admitted := 1, fwd := 1, cstash := [(0, 0x80000000)] }
def coming : State :=
  pipe 1 1 { inStep with
    ledger := [(0, { LedgerEnt.init with st := 6, slot := 0, cslot := 0 })], alloc := 1, admitted := 1, fwd := 1
    cstash := [(0, 0x80000000)], prefetch := [⟨0, 0, 64⟩] }

theorem hyp_PrefetchStart :
    away.nextPrefetch = some (0, 0) ∧ away.freeSlots = [0, 1, 2] ∧ away.canAlloc = true := by decide +kernel
theorem hyp_PrefetchDone : coming.stg.prefetch = [⟨0, 0, 64⟩] ∧ coming.itemWords ≤ 64 := by decide +kernel
theorem test_prefetchStart :
    after .prefetchStart away (fun t => (t.ledger 1).st == 6 && t.stg.prefetch == [⟨1, 0, 0⟩]) = true := by decide +kernel
theorem test_prefetchDone :
    after .prefetchDone coming (fun t => (t.ledger 0).st == 7 && t.stg.cstash.isEmpty) = true := by decide +kernel

end Sys2Proof.Tests
end

