-- ==== Sys2Proof/Tests/Link.lean ====
section
/-! SUPPORT. Witnesses for the statements about links, flits and packets, and small tests of their commands. -/

namespace Sys2Proof.Tests

set_option Elab.async false

open Sys2Proof Sys2Proof.Machine

/-! ## Training (R357–R371, R384–R396) -/

/-- Port 1 has links 2 and 3, both enabled with automatic retraining, one millisecond after reset; link 2 is in the given
state and link 3 ACTIVE; the port is up. Link 2 expects device serial 9, physical 1, logical 1, port 3 behind it. -/
def wired (x : LinkSt) : State :=
  let s := [(rk .port 1 0x40, 0x8000000C), (rk .lnk 2 0x40, 0xB0000000), (rk .lnk 3 0x40, 0xB0000000),
      (rk .lnk 2 0x58, 0x80010003), (rk .lnk 2 0x5C, 9)].foldl
    (fun s (e : Nat × Word) => s.setReg e.1 e.2) (fronted)
  let s := (s.setPort 1 { PortSt.init with st := 1 }).setLink 3 { LinkSt.init with st := 5 }
  s.setLink 2 x

/-- A link in a state, having entered it at time 0. -/
def linkIn (st : BitVec 4) : LinkSt := { LinkSt.init with st := st }

theorem hyp_LinkTrainStart :
    (wired (linkIn 0)).linkEnabled (2 : Fin 16).val = true ∧ ((wired (linkIn 0)).link 2).st = 0 ∧
    (wired (linkIn 6)).autoDue (2 : Fin 16).val = true ∧ (wired (linkIn 5)).autoDue 2 = false := by decide +kernel
theorem hyp_LnkRetrain :
    (∃ y, (wired (linkIn 6)).openAt .pf ⟨.lnk, 2⟩ 0x94 1 = .ok y) ∧ (1 : Word).getLsbD 0 = true ∧
    ((wired (linkIn 6)).link 2).st = 6 ∧ (∃ y, (wired (linkIn 5)).openAt .pf ⟨.lnk, 2⟩ 0x94 1 = .ok y) ∧
    ¬ (((wired (linkIn 5)).link 2).st = 6 ∨ ((wired (linkIn 5)).link 2).st = 7) :=
  ⟨⟨_, rfl⟩, by decide, by decide +kernel, ⟨_, rfl⟩, by decide +kernel⟩
theorem hyp_PhyTrainDone : ((wired (linkIn 1)).link (2 : Fin 16).val).st = 1 := by decide +kernel
theorem hyp_FecLock : ((wired (linkIn 2)).link 2).st = 2 ∧ (wired (linkIn 2)).lportOf (2 : Fin 16).val = some 1 := by
  decide +kernel
theorem hyp_Train : ((wired (linkIn 3)).link 2).st = 3 ∧ (0 : BitVec 8) = (wired (linkIn 3)).epoch ∧
    (1 : BitVec 8) ≠ (wired (linkIn 3)).epoch := by decide +kernel
theorem hyp_IdentSendTimer :
    ((wired (linkIn 4)).link 2).st = 4 ∧ ((wired (linkIn 4)).link 2).identSent = none ∧
    ((wired (linkIn 4)).link 2).ident = none := by decide +kernel
theorem test_fecLock : after (.fecLock 2) (wired (linkIn 2))
    (fun t => (t.link 2).st == 3 && t.lk.out.map (fun o => o.2.body.take 4) == [[2, 0, 2, 0]]) = true := by decide +kernel
theorem test_train : after (.train 2 0) (wired (linkIn 3)) (fun t => (t.link 2).st == 4) = true := by decide +kernel

/-- The identity that link 2 expects, and one of the device itself; a link in QUINCE with an identity. -/
def peer (serial : BitVec 64) : Ident := ⟨serial, 1, 3, 1, 0, 0, 0⟩
def judged (i : Option Ident) (epochTrain : Bool) : State :=
  (wired { linkIn 4 with ident := i, epochTrain := epochTrain }).setLink 3 LinkSt.init

theorem hyp_QuinceNone : (judged none false).identNow (2 : Fin 16).val = none ∧
    1000000 ≤ ((judged none false).sys.time - ((judged none false).link 2).quinceAt).toNat := by decide +kernel
theorem hyp_QuinceOwn : (judged (some (peer 0)) false).identNow 2 = some (peer 0) ∧
    (peer 0).serial = (judged (some (peer 0)) false).fuse.serial := by decide +kernel
theorem hyp_QuinceUnset :
    (((judged (some (peer 9)) false).setReg (rk .lnk 2 0x58) 0).pr .lnk (2 : Fin 16).val 0x58).getLsbD 31 = false ∧
    (peer 9).serial ≠ (judged (some (peer 9)) false).fuse.serial := by decide +kernel
theorem hyp_QuinceMatch : ∀ b : Bool,
    (judged (some (peer 9)) b).expects (2 : Fin 16).val (peer 9) = true ∧
    ((judged (some (peer 9)) b).verdictOf 2).1 = 0 ∧ ((judged (some (peer 9)) b).link 2).epochTrain = b := by decide +kernel
theorem test_quinceStandby : after (.quinceJudge 2) (judged (some (peer 9)) false) (fun t => (t.link 2).st == 8) = true := by
  decide +kernel
theorem test_quinceLoops : after (.quinceJudge 2) (judged (some (peer 0)) false)
    (fun t => (t.link 2).st == 7 && (t.link 2).result == 2) = true := by decide +kernel

/-- Link 2 is ACTIVE, and its port resynchronises. -/
def resyncing : State := (wired (linkIn 6)).setPort 1 { PortSt.init with st := 2, resyncAt := 0 }

theorem hyp_LinkLockLoss :
    ((wired (linkIn 8)).link 2).st = 8 ∧ ((wired (linkIn 5)).link 2).st = 5 ∧ ((wired (linkIn 5)).port 1).st = 1 ∧
    (3 ∈ (wired (linkIn 5)).liveMembers 1 ∧ (3 : Nat) ≠ (2 : Fin 16).val) := by decide +kernel
theorem hyp_Resync :
    (∀ vc, vc < 8 → ((wired (linkIn 5)).port 1).rx.get [] vc = []) ∧ resyncing.lportOf (3 : Fin 16).val = some 1 ∧
    (resyncing.port 1).st = 2 ∧ resyncing.unackedFlits 1 = [] ∧ (resyncing.port 1).txq = [] ∧
    ((wired (linkIn 5)).port 1).st ≠ 2 ∧ 10000 ≤ (resyncing.sys.time - (resyncing.port 1).resyncAt).toNat := by
  decide +kernel
theorem test_lockLoss : after (.linkLockLoss 2) (wired (linkIn 5))
    (fun t => (t.link 2).st == 6 && (t.port 1).st == 2) = true := by decide +kernel
theorem test_resyncTimeout : after (.resyncTimeout 1) resyncing (fun t => (t.port 1).st == 0) = true := by decide +kernel

/-! ## Flits and floods (R356, R360–R367, R378–R382) -/

/-- The first flit of epoch 0, of virtual channel 0. -/
def flit : Flit :=
  let h := mkHeader 0 1 true true false 0 0
  ⟨h, List.replicate 244 0, flitCrc h (List.replicate 244 0)⟩

theorem hyp_FlitReceive :
    flitLegal flit = true ∧ hdrKind flit.header = 1 ∧ hdrEpoch flit.header = (wired (linkIn 5)).epoch ∧
    ((wired (linkIn 5)).link 2).discard = false ∧ ((wired (linkIn 5)).link 3).held = [] ∧
    (wired (linkIn 5)).membersOf 1 = [2, 3] ∧
    hdrSeq flit.header = ((wired (linkIn 5)).port 1).delivered.getD 0xFFF + 1 := by decide +kernel
theorem hyp_FlitNothing : ((wired (linkIn 6)).link 2).st = 6 := by decide +kernel
theorem test_flitBad : after (.flitReceive 2 flit 0 true) (wired (linkIn 5))
    (fun t => (t.link 2).discard && t.lk.out.map (fun o => o.2.body.take 4) == [[1, 0, 0xFF, 0x0F]]) = true := by
  decide +kernel

/-- Two flits of link 2 are not acknowledged. -/
def unacked : State := wired { linkIn 5 with buf := [⟨4, flit, 0⟩, ⟨5, flit, 0⟩] }

theorem hyp_Nak :
    (unacked.link 2).replay = none ∧ ((unacked.link 2).buf.filter fun f => seqAfter f.seq 4).map (·.seq) = [5] ∧
    flit.body.length = 244 ∧ ((wired (linkIn 4)).link 2).st ≠ 5 := by decide +kernel
theorem hyp_ReplayTimeout :
    unacked.replayTo (2 : Fin 16).val ≤ (unacked.sys.time - (unacked.link 2).ackAt).toNat ∧ (unacked.link 2).buf ≠ [] ∧
    ((wired { linkIn 5 with ackAt := 1000000 }).sys.time - ((wired { linkIn 5 with ackAt := 1000000 }).link 2).ackAt).toNat <
      (wired { linkIn 5 with ackAt := 1000000 }).replayTo (2 : Fin 16).val := by decide +kernel
theorem test_nak : after (.nakReceive 2 4) unacked (fun t => (t.link 2).replay == some ⟨5, 5⟩ && t.lk.out.length == 1) = true := by
  decide +kernel

/-- A flood is known; floods may reset. -/
def flooded : State :=
  let s := ready.setPr .route 0 0x5C 0x80000000
  { s with lk := { s.lk with floods := [⟨7, 8, 0⟩] } }

theorem hyp_Floods :
    flooded.floodSeen 7 8 = true ∧ flooded.floodSeen 7 9 = false ∧ (flooded.pr .route 0 0x5C).getLsbD 31 = true ∧
    flooded.warmable = true ∧ flooded.sys.warm = none ∧ (ready.pr .route 0 0x5C).getLsbD 31 = false ∧
    ready.sys.stageMode = false := by decide +kernel
theorem hyp_FloodJobFault :
    staged.sys.stageMode = true ∧ (0 : BitVec 64) = staged.stepNo ∧ staged.stg.st ≠ 0 ∧ staged.stg.pendingFault = none := by
  decide +kernel
theorem test_floodReset : after (.floodReset 2 7 9 0) flooded (fun t => t.sys.warm == some ⟨.flood, false⟩) = true := by
  decide +kernel
theorem test_floodJobFault :
    after (.floodJobFault 2 7 9 0) staged (fun t => t.stg.pendingFault.map (·.cause) == some 6) = true := by decide +kernel

/-! ## Packets (R378–R383, R397–R401) -/

/-- A packet is alone on virtual channel 0 of the loop. -/
def packetOf (h : BitVec 128) (data : List Byte) : Packet :=
  { hdr := h, data := data, broken := false, flits := [⟨0, 0, true, true, leBytes 16 h.toNat ++ data, 0, false, false⟩] }
def carrying (h : BitVec 128) (data : List Byte) (s : State) : State :=
  s.setPort loopPort { PortSt.init with rx := [(0, (packetOf h data).flits)] }

/-- Partition 3 takes remote writes and adds, and its own coordinate is 0. -/
def remote : State :=
  let s := (counted.setPr .route 0 0x6C 0x40000000)
  { s with
    syn := { s.syn with vmap := [(3 * 4096, 0xA0000509), (3 * 4096 + 1, 0x8000050A)] }
    lk := { s.lk with map := [(0, 0x80000000)] } }

/-- A packet of a kind for partition 3. -/
def toPart3 (kind : Nat) (addr : BitVec 48) (vid : BitVec 12) : BitVec 128 := mkPkt addr vid 5 2 3 kind 0 0

/-- Whether that packet opens with the given kinds, in a state that it leaves as it was. -/
def opensIn (s : State) (h : BitVec 128) (data : List Byte) (kinds : List Nat) : Bool :=
  ((carrying h data s).openPacket loopPort 0 kinds).2 == some (packetOf h data) &&
  ((carrying h data s).openPacket loopPort 0 kinds).1 == carrying h data s

theorem hyp_PacketOpens :
    opensIn remote (toPart3 1 0x28000000 0) [1, 2] [1] = true ∧ opensIn remote (toPart3 2 0x28000000 0) [1, 2] [2] = true ∧
    (remote.peerPart 3).getLsbD 30 = true ∧ (counted.peerPart 3).getLsbD 30 = false := by decide +kernel
theorem hyp_PacketRoom :
    remote.scopeHit 3 0x28000000 2 = false ∧
    remote.bankGate ⟨.part (Fin.ofNat 64 3), none, 7, 0x28000000⟩ (padBank 0x28000000) = .ok := by decide +kernel
theorem hyp_WriteInc :
    remote.vid 3 0 = some (padCluster 0x28000000, 9) ∧ remote.bankLent (padBank 0x28000000) = false ∧
    vmapRemote (remote.vmapOf 3 0) = true ∧ remote.frozen 3 = false := by decide +kernel
theorem hyp_ArrivePacket :
    opensIn remote (toPart3 3 5 0) [] [3] = true ∧ remote.vid 3 0 = some (5, 9) ∧ remote.inputRoom 5 = true ∧
    remote.vid 3 1 = some (5, 10) ∧ vmapRemote (remote.vmapOf 3 1) = false ∧ remote.sys.stageMode = false := by
  decide +kernel
theorem test_writePacket :
    after (.writePacket 6 0 0) (carrying (toPart3 1 0x28000000 0) [1, 2] remote)
      (fun t => t.padRead 0x28000000 2 == [1, 2]) = true := by decide +kernel
theorem test_writeIncPacket :
    after (.writeIncPacket 6 0 0) (carrying (toPart3 2 0x28000000 0) [1, 2] remote)
      (fun t => t.padRead 0x28000000 2 == [1, 2] && t.countOf 5 9 == 5) = true := by decide +kernel
theorem test_arrivePacket :
    after (.arrivePacket 6 0) (carrying (toPart3 3 7 0) [] remote) (fun t => t.inputOf 5 == [.add 3 9 7 none]) = true := by
  decide +kernel

/-- The answer with the given status to the only write that channel 40 waits for, of two or of one. -/
def answered (status : Nat) (tags : List (BitVec 40)) : State :=
  carrying (toPart3 4 (BitVec.ofNat 48 (status * 2 ^ 40 + 6)) 0) []
    ((flying 0x40 .running remote).setChan 40 (some { chan 0 with sent := true, awaits := tags }))

theorem hyp_CmplPacket :
    (answered 0 [6, 7]).awaiting (pktSrc (toPart3 4 6 0)) 6 = some (40, { chan 0 with sent := true, awaits := [6, 7] }) ∧
    (((answered 0 [6, 7]).popPacket 6 0 (packetOf (toPart3 4 6 0) [])).awaiting 0 6).isSome = true ∧
    ([6, 7] : List (BitVec 40)).erase 6 ≠ [] ∧
    ((answered 0 [6, 7]).flight? cmdRef).map (fun f => f.st.ended) = some false ∧
    (remote.popPacket 6 0 (packetOf (toPart3 4 6 0) [])).awaiting 0 6 = none := by decide +kernel
theorem test_cmplPacket :
    after (.cmplPacket 6 0) (answered 0 [6, 7]) (fun t => (t.chanOf 40).map (·.awaits) == some [7]) = true := by decide +kernel
theorem test_cmplRefused :
    after (.cmplPacket 6 0) (answered 1 [6]) (fun t => (t.flight? cmdRef).map (fun f => f.st.ended) == some true) = true := by
  decide +kernel

theorem hyp_StagePacket :
    opensIn (pipe 1 1 inStep) (mkPkt 0 0 0 1 0 5 0 0) [1] [5] = true ∧ (pipe 1 1 inStep).stg.st = 2 ∧
    (pipe 1 1 inStep).stg.pendingFault = none ∧ (pipe 1 1 inStep).stg.asm.get none 0 = none ∧
    0 < (pipe 1 1 inStep).credits (.stg (Fin.ofNat 5 0)) ∧ 4095 < (pipe 1 1 inStep).itemBytes ∧
    (pipe 1 1 inStep).arbitrate 0 = .take := by decide +kernel
theorem hyp_CreditPacket : opensIn (pipe 1 1 inStep) (mkPkt 9 0 0 1 0 6 0 0) [0] [6] = true := by decide +kernel
theorem test_stagePacket :
    after (.stagePacket 6 0) (carrying (mkPkt 0 0 0 1 0 5 0 0) [1] (pipe 1 1 inStep)) (fun t => t.stgTags 0 == [0]) = true := by
  decide +kernel
theorem test_creditPacket :
    after (.creditPacket 6 0) (carrying (mkPkt 9 0 0 1 0 6 0 0) [0] (pipe 1 1 inStep)) (fun t => t.stg.credits == [(0, 9)]) = true := by
  decide +kernel

/-- A packet for the device one step up dimension 0 of a line of two, reached through port 1. -/
def passing : State :=
  let s := ((wired (linkIn 5)).setPr .route 0 0x44 0x200).setPr .route 0 0x40 0
  carrying (mkPkt 0x28000000 0 0 1 3 1 0 1) [1] { s with lk := { s.lk with map := [(1, 0x80000200)] } }

theorem hyp_TransitForward :
    (passing.headPacket loopPort 0).map (·.hdr) = some (mkPkt 0x28000000 0 0 1 3 1 0 1) ∧
    (passing.openPacket loopPort 0 []).2 = none ∧
    (match passing.routeTo 1 (some (passing.dirOf loopPort / 2, false)) with | .out _ _ => true | _ => false) = true := by
  decide +kernel

end Sys2Proof.Tests
end

