-- ==== Sys2Proof/Tests/Coll.lean ====
section
/-! SUPPORT. Witnesses for the statements about collectives and training, and small tests of their commands. -/

namespace Sys2Proof.Tests

set_option Elab.async false

open Sys2Proof Sys2Proof.Machine

/-! ## Commands (R397–R431) -/

/-- Context 2 is a member of partition 3, of rank 0, in a group of one whose tree 0 has the given ROUTE word. The first
eight FP32 words of bank 5120 are 1.0 in the first and 0 in the others. -/
def grouped (tree : Word) : State :=
  let s := ((remote.setPr .coll 0 0x108 0xA0000003).setPr .coll 0 0x148 0).setPr .route 0 0x54 tree
  s.bankWrite 0x28000000 [0, 0, 0x80, 0x3F]

/-- A record on context 2 with FP32 everywhere, 32 bytes and no timeout, which reads 0x28000000 and writes
0x28000100. -/
def collRec (op : Nat) : LRec :=
  { rec (BitVec.ofNat 512 (op + 0x2BBB * 2 ^ 16 + (2 ^ 36 + 31) * 2 ^ 192)) with
    opnds := [some (opnd 0 3 0x28000000), some (opnd 0 3 0x28000100)] }

/-- That record is queued, its context being in the given state. -/
def asked (op : Nat) (tree : Word) (x : CollCtx) : State :=
  let s := grouped tree
  { s.setCctx 2 x with fe := { s.fe with flights := [⟨collRec op, .queued, false, 0⟩] } }

/-- The context runs that record since time 0. -/
def run0 : CollRun :=
  { ref := cmdRef, start := 0, ready := 0, pip := false, carried := 0, fixed := false, sentUp := false, landed := false
    groupPip := false, groupContrib := 0, lossSum := 0, lossCount := 0, refused := false, carry := none }
def inRun : CollCtx := { CollCtx.init with run := some run0 }

/-- The premises that the statements call free. -/
def collFree (op : Nat) (tree : Word) (x : CollCtx) : Bool :=
  let s := asked op tree x
  let l := collRec op
  (s.flight? cmdRef).map (fun f => (f.st == .queued, f.lrec.pwEn, f.lrec.opcode.toNat, f.lrec.cCtx)) ==
    some (true, false, op, 2) && (s.cctx 2).run == none && !(s.cctx 2).attempt && l.cDeadline == 0 && !l.cVerdict &&
    !(s.commitOf ⟨.coll, 0⟩).waiting && !(s.treeReg 1).getLsbD 31

/-- One child, behind port 1, that is done with rank 1; with no child the root, with port 1 as child the root, and
below port 0 a leaf. -/
def aloneTree : Word := 0x40000000
def childTree : Word := 0x40000002
def leafTree : Word := 0

theorem hyp_CollBusy : ((asked 0x70 aloneTree inRun).cctx 2).run.isSome = true := by decide +kernel
theorem hyp_AllReduce :
    collFree 0x70 aloneTree CollCtx.init = true ∧
    (let s := asked 0x70 aloneTree CollCtx.init
     s.kidsDone 2 0 false = true ∧
     s.ranksOk 2 (s.subtree 2 (some ⟨1, BitVec.ofNat 16 (s.ctxRank 2), 1, false, 0, 0⟩)) = true ∧
     s.treeRoot (s.ctxTree 2) = true ∧ s.collPartial 2 (collRec 0x70) = some (0x3F800000 :: List.replicate 7 0)) ∧
    (asked 0x70 childTree CollCtx.init).kidsDone 2 0 false = false ∧
    (asked 0x70 leafTree CollCtx.init).treeRoot 0 = false ∧ ((asked 0x70 leafTree CollCtx.init).cctx 2).refuse = false := by
  decide +kernel
theorem hyp_CollDone :
    (collRec 0x70).opnd 1 = some (opnd 0 3 0x28000100) ∧
    ((asked 0x70 aloneTree CollCtx.init).partWrite 3 0 0x28000100 (List.replicate 32 1)).isSome = true := by decide +kernel
theorem hyp_ReduceScatter :
    collFree 0x71 aloneTree CollCtx.init = true ∧
    (asked 0x71 aloneTree CollCtx.init).shardRange 2 (collRec 0x71) 0 1 = (0, 32) ∧
    ((asked 0x71 aloneTree CollCtx.init).collPartial 2 (collRec 0x71)).isSome = true ∧
    (asked 0x71 childTree CollCtx.init).kidsDone 2 0 false = false := by decide +kernel
theorem hyp_AllGather :
    collFree 0x72 aloneTree CollCtx.init = true ∧ (asked 0x72 aloneTree CollCtx.init).ctxSize 2 = 1 ∧
    ((asked 0x72 aloneTree CollCtx.init).collRead (collRec 0x72) 0 0 32).isSome = true ∧
    (asked 0x72 childTree CollCtx.init).kidsDone 2 0 false = false := by decide +kernel
theorem hyp_Broadcast :
    collFree 0x73 aloneTree CollCtx.init = true ∧ (asked 0x73 aloneTree CollCtx.init).treeRoot 0 = true ∧
    ((asked 0x73 aloneTree CollCtx.init).collRead (collRec 0x73) 0 0 32).isSome = true ∧
    collFree 0x73 leafTree CollCtx.init = true ∧ ((asked 0x73 leafTree CollCtx.init).cctx 2).downEnd = none := by
  decide +kernel
theorem hyp_Barrier :
    collFree 0x74 aloneTree CollCtx.init = true ∧ ((asked 0x74 aloneTree CollCtx.init).cctx 2).barSent = false ∧
    ((asked 0x74 aloneTree CollCtx.init).treeDown 0).all
      (fun p => ((asked 0x74 aloneTree CollCtx.init).cctx 2).barUps.contains p) = true ∧
    ((asked 0x74 childTree CollCtx.init).treeDown 0).all
      (fun p => ((asked 0x74 childTree CollCtx.init).cctx 2).barUps.contains p) = false := by decide +kernel
theorem hyp_Snapshot :
    collFree 0x75 aloneTree { CollCtx.init with snap := some ⟨7, [], []⟩ } = true ∧
    (asked 0x75 aloneTree CollCtx.init).livePorts = [] ∧
    collFree 0x75 leafTree CollCtx.init = true ∧ ((asked 0x75 leafTree CollCtx.init).cctx 2).snap = none := by decide +kernel

theorem test_allReduce :
    after (.allReduce cmdRef) (asked 0x70 aloneTree CollCtx.init)
      (fun t => t.padRead 0x28000100 8 == [0, 0, 0x80, 0x3F, 0, 0, 0, 0] && (t.cctx 2).seq == 1) = true := by decide +kernel
theorem test_allReduceWaits :
    after (.allReduce cmdRef) (asked 0x70 childTree CollCtx.init)
      (fun t => (t.cctx 2).run.isSome && t.padByte 0x28000102 == 0) = true := by decide +kernel
theorem test_reduceScatter :
    after (.reduceScatter cmdRef) (asked 0x71 aloneTree CollCtx.init)
      (fun t => t.padRead 0x28000100 4 == [0, 0, 0x80, 0x3F]) = true := by decide +kernel
theorem test_allGather :
    after (.allGather cmdRef) (asked 0x72 aloneTree CollCtx.init)
      (fun t => t.padRead 0x28000100 4 == [0, 0, 0x80, 0x3F]) = true := by decide +kernel
theorem test_broadcast :
    after (.broadcast cmdRef) (asked 0x73 aloneTree CollCtx.init)
      (fun t => t.padRead 0x28000100 4 == [0, 0, 0x80, 0x3F]) = true := by decide +kernel
theorem test_barrier :
    after (.barrier cmdRef) (asked 0x74 aloneTree CollCtx.init) (fun t => (t.cctx 2).seq == 1) = true := by decide +kernel
theorem test_snapshot :
    after (.snapshot cmdRef) (asked 0x75 aloneTree { CollCtx.init with snap := some ⟨7, [], []⟩ })
      (fun t => t.padByte 0x28000100 == 7 && (t.cctx 2).seq == 1) = true := by decide +kernel

/-! ## Packets (R399–R417) -/

/-- A COLL packet of context 2 in the given phase, sequence number 0 and offset 0, a TORN of attempt 1, all others of
attempt 0. -/
def collHdr (ph : Nat) : BitVec 128 :=
  mkPkt (BitVec.ofNat 48 (2 * 2 ^ 44 + ph * 2 ^ 40 + if ph = 9 then 2 ^ 39 else 0)) 0 0 8 0 7 0 0

/-- It arrives on the loop while the context runs a command or not. -/
def collIn (ph : Nat) (data : List Byte) (x : CollCtx) : State :=
  carrying (collHdr ph) data (asked 0x70 childTree x)

/-- Whether it opens, leaving the state without the packet. -/
def collOpens (ph : Nat) (data : List Byte) (x : CollCtx) : Bool :=
  ((collIn ph data x).openColl loopPort 0 (BitVec.ofNat 4 ph) seqNow).2.map (fun e => (e.1, e.2.2)) ==
    some (2, packetOf (collHdr ph) data) &&
  ((collIn ph data x).openColl loopPort 0 (BitVec.ofNat 4 ph) seqNow).1.ctxMember 2

theorem hyp_CollOpens :
    collOpens 1 [1] CollCtx.init = true ∧ collOpens 2 [1] CollCtx.init = true ∧ collOpens 3 [1] CollCtx.init = true ∧
    collOpens 4 [1] CollCtx.init = true ∧ collOpens 5 [] CollCtx.init = true ∧ collOpens 7 [1] CollCtx.init = true ∧
    collOpens 0xA [1] CollCtx.init = true ∧ collOpens 0xB [1] CollCtx.init = true ∧
    collOpens 0xC [] CollCtx.init = true ∧ collOpens 0xD [] inRun = true ∧ collOpens 0xE [] CollCtx.init = true := by
  decide +kernel
theorem hyp_CollRefusedKid :
    collOpens 1 [1] { CollCtx.init with kids := [(6, { CollChild.init with refused := true })] } = true ∧
    ((collIn 1 [1] { CollCtx.init with kids := [(6, { CollChild.init with refused := true })] }).kid 2 6).refused = true := by
  decide +kernel
theorem hyp_LateReq :
    ((collIn 6 [] CollCtx.init).openColl loopPort 0 6 seqLate).2.isSome = true ∧
    ((collIn 6 [] CollCtx.init).cctx 2).last = none := by decide +kernel
theorem hyp_CollFaults :
    collOpens 8 [] inRun = true ∧ collOpens 9 [] { inRun with attempt := true } = true ∧
    (collIn 9 [] inRun).ctxOn 2 = true ∧ ((collIn 9 [] inRun).cctx 2).run.map (·.ref) = some cmdRef ∧
    ((collIn 9 [] inRun).flight? cmdRef).map (fun f => f.st.ended) = some false ∧
    (collIn 9 [] inRun).stageFed 3 2 = false ∧ ((collIn 0xD [] inRun).commitOf ⟨.coll, 0⟩).waiting = false := by
  decide +kernel
theorem hyp_VerdictUp : ((collIn 0xA [1] CollCtx.init).treeReg 1).getLsbD 31 = false := by decide +kernel

/-- The detector is off; growth after the given number of good steps, with the loss scale at 2 and its ceiling at 8. -/
def scaled (pip : Byte) (growth : Word) : State :=
  let s := (collIn 0xB [pip] CollCtx.init).setPr .coll 0 0x40 growth
  (s.setPr .coll 0 0x44 0x40000000).setPr .coll 0 0x4C 0x41000000

theorem hyp_VerdictDown :
    (scaled 0 1).trainCfg.getLsbD 31 = false ∧ (scaled 0 1).trainCfg.toNat % 65536 = 1 ∧
    (scaled 0 1).pr .coll 0 0x64 = 0 ∧ (scaled 0 0).trainCfg = 0 := by decide +kernel
theorem test_verdictGrows :
    after (.verdictDown 6 0) (scaled 0 1)
      (fun t => t.pr .coll 0 0x44 == 0x40800000 && t.pr .coll 0 0x64 == 0) = true := by decide +kernel
theorem test_verdictSkips :
    after (.verdictDown 6 0) (scaled 1 1) (fun t => t.coll.lastSkip && t.pr .coll 0 0xA0 == 1) = true := by decide +kernel
theorem test_upData :
    after (.upData 6 0) (collIn 1 [1] CollCtx.init) (fun t => (t.kid 2 6).pieces == [(0, [1])]) = true := by decide +kernel
theorem test_marker :
    after (.marker 6 0) (collIn 0xE [] CollCtx.init)
      (fun t => (t.cctx 2).snap == some ⟨1000000, [], [(6, 0xFFF)]⟩) = true := by decide +kernel
theorem test_torn :
    after (.torn 6 0) (collIn 9 [] { inRun with attempt := true })
      (fun t => (t.flight? cmdRef).map (fun f => f.st.ended) == some true) = true := by decide +kernel

/-- The record has a deadline of 1 us and a timeout of 1 us, and the child behind port 1 has not arrived. -/
def closing : State :=
  let s := asked 0x70 childTree { inRun with kids := [(1, { CollChild.init with pieces := [(0, [1])] })] }
  let raw := (collRec 0x70).raw - BitVec.ofNat 512 (31 * 2 ^ 192) + BitVec.ofNat 512 (2 ^ 20 * 2 ^ 192)
  { s with fe := { s.fe with flights := [⟨{ collRec 0x70 with raw := raw }, .running, false, 0⟩] } }

theorem hyp_CloseTime :
    (closing.cctx 2).run = some run0 ∧
    (closing.flight? cmdRef).map (fun f => (f.lrec.opcode.toNat, f.lrec.cDeadline, f.lrec.cTimeout, f.st.ended)) =
      some (0x70, 1, 0, false) ∧
    closing.treeDown (closing.ctxTree 2) = [1] ∧ (closing.kid 2 1).arrived = true ∧ (closing.kid 2 1).fin = none ∧
    (closing.kid 2 1).refused = false ∧ closing.stageFed 3 2 = false := by decide +kernel
theorem test_collectiveTimeout :
    after (.collectiveTimeout 2) closing
      (fun t => (t.flight? cmdRef).map (fun f => f.st.ended) == some true) = true := by decide +kernel

end Sys2Proof.Tests
end

