-- ==== Sys2Proof/Tests/Ckpt.lean ====
section
/-! SUPPORT. Witnesses for the statements about checkpoints and restore, and small tests of their commands. -/

namespace Sys2Proof.Tests

set_option Elab.async false

open Sys2Proof Sys2Proof.Machine

/-! ## The sender (R432–R445) -/

/-- A scope of one bank, region 5, whose shard goes to the device at coordinate 1; that device is also the partner A; the
time is 10 ms after reset, and the engine sends the capture set of that one shard. -/
def inScope (x : Ckpt) : State :=
  let s := ((staged.setHandle 0 9 (handle 0 0x28000000 0x20000)).setPr .ckpt 0 0x4C 0x80010000).setPr .ckpt 0 0x50 0x80010000
  { s with
    sys := { s.sys with time := 10000000 }
    lk := { s.lk with map := [(0, 0x80000000)] }
    ckpt := { x with scope := [(0, 0x80005009)], capture := [0], st := 1 } }

/-- The shard of that scope. -/
def shard0 : CkptShard := ⟨0, 5, false, 0x28000000, 0, 0x20000⟩

/-- The shard has been sent, once or twice. -/
def shardSent (resent : Bool) : State := inScope { staged.ckpt with tx := [(0, ⟨true, false, resent, 0⟩)] }

/-- With no poisoned word every shard in the scratchpad can be read. -/
theorem shardRead_clean (s : State) (x : CkptShard) (hc : x.cel = false) (hp : s.pad.poison = []) :
    s.shardRead x = some (s.padRead x.addr x.len) := by
  simp [State.shardRead, hc, State.poisoned, hp, SMap.get]

theorem hyp_ShardSend :
    (inScope staged.ckpt).ckpt.st = 1 ∧
    (inScope staged.ckpt).ckpt.capture.find? (fun i => !((inScope staged.ckpt).txOf i).sent) = some 0 ∧
    (inScope staged.ckpt).scopeShards.find? (fun x => x.index == 0) = some shard0 ∧
    (inScope staged.ckpt).buddyOf 0 = some (0, 0) ∧ abField (inScope staged.ckpt).ckptBuddy 0 = some 1 := by decide +kernel
theorem hyp_ShardRead : ∃ bs, (inScope staged.ckpt).shardRead shard0 = some bs :=
  ⟨_, shardRead_clean _ _ rfl (by decide +kernel)⟩
theorem hyp_ShardAckTimeout : ∀ b : Bool,
    ((shardSent b).txOf (0 : Fin 131072).val).sent = true ∧ ((shardSent b).txOf 0).acked = false ∧
    10000000 ≤ ((shardSent b).sys.time - ((shardSent b).txOf 0).endAt).toNat ∧ ((shardSent b).txOf 0).resent = b ∧
    (shardSent b).sys.stageMode = true ∧ (shardSent b).stg.st ≠ 5 := by decide +kernel
theorem test_shardAckTimeout : after (.shardAckTimeout 0) (shardSent false) (fun t => t.ckpt.tx == [(0, ⟨false, false, true, 0⟩)]) = true := by
  decide +kernel
theorem test_shardAckTimeoutTwice :
    after (.shardAckTimeout 0) (shardSent true) (fun t => t.ckpt.cseq == 1 && t.ckpt.err == 3 && t.ckpt.tx == []) = true := by
  decide +kernel

/-- A CKPT packet of device 1 for the sender's shard 0 in the current checkpoint. -/
def ckptHdr (op : BitVec 4) (off len : Nat) : BitVec 128 := mkPkt (ckptAddr op 0 0 off) 0 0 len 0 8 1 0

/-- Whether it opens, leaving the state as it was. -/
def ckptOpens (op : BitVec 4) (off : Nat) (data : List Byte) (s : State) : Bool :=
  ((carrying (ckptHdr op off data.length) data s).openCkpt loopPort 0 op).2 ==
      some (packetOf (ckptHdr op off data.length) data) &&
    ((carrying (ckptHdr op off data.length) data s).openCkpt loopPort 0 op).1 ==
      carrying (ckptHdr op off data.length) data s

theorem hyp_CkptAnswers :
    ckptOpens 3 0 [] (shardSent false) = true ∧ ckptOpens 4 0 [] (shardSent false) = true ∧
    ckptOpens 4 1 [] (shardSent false) = true ∧ whichAb (shardSent false).ckptBuddy 1 = some 0 ∧
    (shardSent false).shardOfHalf 0 0 = 0 ∧ (shardSent false).ckpt.cseq = 0 ∧
    (∀ j, j ∈ (shardSent false).ckpt.capture → j ≠ 0 → ((shardSent false).txOf j).acked = true) := by
  refine ⟨by decide +kernel, by decide +kernel, by decide +kernel, by decide +kernel, by decide +kernel, by decide +kernel, ?_⟩
  intro j hj hn
  exact absurd (List.mem_singleton.mp hj) hn
theorem hyp_CkptAckMore :
    let s := { shardSent false with ckpt := { (shardSent false).ckpt with capture := [0, 1] } }
    ckptOpens 3 0 [] s = true ∧ 1 ∈ s.ckpt.capture ∧ (s.txOf 1).acked = false := by decide +kernel
theorem test_ckptAck :
    after (.ckptAck 6 0) (carrying (ckptHdr 3 0 0) [] (shardSent false))
      (fun t => t.ckpt.st == 2 && t.ckpt.capture == []) = true := by decide +kernel
theorem test_ckptNakFull :
    after (.ckptNak 6 0) (carrying (ckptHdr 4 1 0) [] (shardSent false))
      (fun t => t.ckpt.err == 1 && t.ckpt.cseq == 1) = true := by decide +kernel

/-! ## CKPT.CTRL (R436, R438, R448) -/

theorem hyp_CkptCtrl :
    (∃ x, staged.openAt .pf ⟨.ckpt, 0⟩ 0x08 ((0 : Word) ||| 1) = .ok x) ∧
    (∃ x, staged.openAt .pf ⟨.ckpt, 0⟩ 0x08 ((0 : Word) ||| 2) = .ok x) ∧
    (∃ x, staged.openAt .pf ⟨.ckpt, 0⟩ 0x08 ((0 : Word) ||| 4) = .ok x) ∧ (0 : Word).getLsbD 2 = false ∧
    staged.sys.stageMode = true ∧ staged.stg.st = 1 ∧ staged.ckpt.st ≠ 3 ∧ staged.stagedKeys ⟨.ckpt, 0⟩ = [] ∧
    ready.sys.stageMode = false ∧ (∃ x, ready.openAt .pf ⟨.ckpt, 0⟩ 0x08 ((0 : Word) ||| 4) = .ok x) :=
  ⟨⟨_, rfl⟩, ⟨_, rfl⟩, ⟨_, rfl⟩, by decide +kernel, by decide +kernel, by decide +kernel, by decide +kernel,
    by decide +kernel, by decide +kernel, ⟨_, rfl⟩⟩
theorem test_ckptTake : after (.ckptTake .pf 0) staged (fun t => t.ckpt.take && !t.ckpt.full) = true := by decide +kernel
theorem test_ckptRestore :
    after (.ckptRestore .pf 0) (staged.setPr .ckpt 0 0x4C 0x80010000)
      (fun t => t.ckpt.st == 3 && t.ckpt.pull.map (·.1) == [0]) = true := by decide +kernel
theorem test_ckptRestoreRefused : after (.ckptRestore .pf 0) ready (fun t => t.ckpt.st != 3) = true := by decide +kernel

/-! ## The buddy (R440–R446, R448–R450) -/

/-- A buddy with halves of 15.5 GiB and a device key, whose half A is the given one. -/
def buddy (b : BuddyHalf) : State :=
  let s := ((inScope staged.ckpt).setPr .cel 0 0x40 31).setBuddyHalf 0 b
  { s with cel := { s.cel with keys := [(64, 1)] } }

/-- The same with no partner. -/
def stranger : State := (buddy BuddyHalf.init).setPr .ckpt 0 0x50 0

/-- One byte of shard 0 has arrived. -/
def oneByte : BuddyHalf := { BuddyHalf.init with rx := [(0, [(0, [1])])] }

/-- A committed manifest of no entries. -/
def manifest : Manifest := ⟨1, 0, 0, 9, 0, []⟩

theorem hyp_CkptStale :
    stranger.halfFor 1 = none ∧ ckptOpens 1 0 [1] stranger = true ∧ ckptOpens 2 0 [1] stranger = true ∧
    ckptOpens 8 0 [] stranger = true ∧ ckptOpens 5 0 [1] stranger = true := by decide +kernel
theorem hyp_Buddy :
    (buddy oneByte).halfFor 1 = some 0 ∧ ckptOpens 1 1 [1] (buddy oneByte) = true ∧
    ((buddy oneByte).halfOfBuddy 0).cseq = ckptCseq (ckptAddr 1 0 0 1) ∧ ckptOpens 8 0 [] (buddy oneByte) = true := by
  decide +kernel
theorem hyp_PullReq :
    ckptOpens 5 0 [1] (buddy BuddyHalf.init) = true ∧ ((buddy BuddyHalf.init).halfOfBuddy 0).committed = none ∧
    ckptOpens 5 0 [9] (buddy { BuddyHalf.init with committed := some manifest }) = true ∧
    manifest.scope = BitVec.ofNat 256 (leVal [9]) ∧ manifest.scope ≠ BitVec.ofNat 256 (leVal [1]) ∧
    (buddy { BuddyHalf.init with committed := some manifest }).cel.poison = [] ∧ (buddy oneByte).keyOf 64 ≠ 0 := by decide +kernel
theorem test_shardData :
    after (.shardData 6 0) (carrying (ckptHdr 1 1 1) [7] (buddy oneByte))
      (fun t => (t.halfOfBuddy 0).rx == [(0, [(0, [1]), (32, [7])])]) = true := by decide +kernel
theorem test_abandon :
    after (.abandon 6 0) (carrying (ckptHdr 8 0 0) [] (buddy oneByte)) (fun t => (t.halfOfBuddy 0).rx == []) = true := by
  decide +kernel
theorem test_shardEndFull :
    after (.shardEnd 6 0) (carrying (ckptHdr 2 0 1) [0] ((buddy BuddyHalf.init).setPr .cel 0 0x40 0))
      (fun t => (t.halfOfBuddy 0).refuse == some 0) = true := by decide +kernel

/-! ## Restoring (R448, R449) -/

/-- A restore from buddy A is in progress. -/
def pulling (y : PullSt) : State :=
  let s := inScope staged.ckpt
  { s with ckpt := { s.ckpt with st := 3, pull := [(0, some y)] } }

def pull0 : PullSt := ⟨false, 0, [], [], []⟩

theorem hyp_Pull :
    (pulling pull0).pullOf 1 = some (0, pull0) ∧ (pulling pull0).shardOfHalf 0 0 = 0 ∧
    (pulling pull0).scopeShards.find? (fun x => x.index == 0) = some shard0 ∧ ckptOpens 6 4095 [5] (pulling pull0) = true ∧
    32 * 4095 + 1 ≤ shard0.len := by decide +kernel
theorem hyp_RestoreTimeout :
    (pulling pull0).ckpt.pull.get none (false : Bool).toNat = some pull0 ∧ (pulling pull0).ckpt.st = 3 ∧
    pull0.answered = false ∧ 10000000 ≤ ((pulling pull0).sys.time - pull0.at_).toNat := by decide +kernel
theorem hyp_RestoreEnds :
    ((pulling pull0).setPull 0 { pull0 with matched := [0] }).restoreDone = true ∧
    ((pulling pull0).setPull 0 pull0).restoreDone = false ∧ pull0.matched.contains 0 = false := by decide +kernel
/-- A digest has 32 bytes. -/
theorem shaRounds_length (ks ws v : List (BitVec 32)) (h : v.length = 8) : (shaRounds ks ws v).length = 8 := by
  induction ks generalizing ws v with
  | nil => exact h
  | cons k ks ih => exact ih _ _ rfl
theorem shaBlocks_length (n : Nat) (bs : List Byte) (h : List (BitVec 32)) (hl : h.length = 8) :
    (shaBlocks n bs h).length = 8 := by
  induction n generalizing bs h with
  | zero => exact hl
  | succ n ih => exact ih _ _ (by simp [shaRounds_length, hl])
theorem sum_fours (l : List (BitVec 32)) : (l.map fun _ => 4).sum = 4 * l.length := by
  induction l with
  | nil => rfl
  | cons x l ih => simp only [List.map_cons, List.sum_cons, List.length_cons, ih]; omega
theorem sha256_length (bs : List Byte) : (sha256 bs).length = 32 := by
  rw [sha256, List.length_flatMap]
  exact (sum_fours _).trans (by rw [shaBlocks_length _ _ _ (by decide)])

/-- A packet of 32 bytes is at the head whatever they are. -/
theorem carrying_head (h : BitVec 128) (d : List Byte) (s : State) (h1 : (leBytes 16 h.toNat).length = 16)
    (h2 : BitVec.ofNat 128 (leVal (leBytes 16 h.toNat)) = h) (h3 : pktLen h = 32) (hd : d.length = 32) :
    (carrying h d s).headPacket loopPort 0 = some (packetOf h d) := by
  have hg : (carrying h d s).port loopPort = { PortSt.init with rx := [(0, (packetOf h d).flits)] } := by
    simp only [carrying, State.port, State.setPort, SMap.get_put_self]
  rw [State.headPacket, hg]
  simp [SMap.get, headFlits, packetOf, List.take_append_of_le_length (Nat.le_of_eq h1.symm), h1, h2, h3,
    List.take_of_length_le (Nat.le_of_eq h1), List.take_of_length_le (Nat.le_of_eq hd)]

/-- A CKPT packet for this device opens whatever its 32 bytes are. -/
theorem carrying_opens (h : BitVec 128) (op : BitVec 4) (d : List Byte) (s : State)
    (hp : (carrying h d s).headPacket loopPort 0 = some (packetOf h d)) (hk : (kindClass (pktKind h)).isNone = false)
    (hh : s.packetHere h = true) (hs : pktDst h = s.selfLogical) (hc : [8].contains (pktKind h) = true)
    (ho : ckptOp (pktAddr h) = op) (h0 : ¬ (op = 0 ∨ 8 < op.toNat)) :
    (carrying h d s).openCkpt loopPort 0 op = (carrying h d s, some (packetOf h d)) := by
  have e1 : (carrying h d s).packetHere h = s.packetHere h := rfl
  have e2 : (carrying h d s).selfLogical = s.selfLogical := rfl
  have e3 : (packetOf h d).hdr = h := rfl
  have e4 : (packetOf h d).broken = false := rfl
  simp only [State.openCkpt, State.openPacket, hp, e1, e2, e3, e4, hk, hh, hs, hc, ho, h0, ne_eq, not_true_eq_false,
    if_true, if_false, Bool.false_eq_true]

theorem hyp_ShardEnd :
    (carrying (ckptHdr 2 0 32) (sha256 []) (buddy BuddyHalf.init)).openCkpt loopPort 0 2 =
      (carrying (ckptHdr 2 0 32) (sha256 []) (buddy BuddyHalf.init), some (packetOf (ckptHdr 2 0 32) (sha256 []))) :=
  carrying_opens _ _ _ _
    (carrying_head _ _ _ (by decide +kernel) (by decide +kernel) (by decide +kernel) (sha256_length _))
    (by decide +kernel) (by decide +kernel) (by decide +kernel) (by decide +kernel) (by decide +kernel)
    (by decide +kernel)
theorem hyp_ShardEndRoom :
    ckptOpens 2 0 [0] (buddy BuddyHalf.init) = true ∧ ((buddy BuddyHalf.init).halfOfBuddy 0).refuse = none ∧
    assemble (((buddy BuddyHalf.init).halfOfBuddy 0).rx.get [] 0) = [] ∧ ((buddy BuddyHalf.init).halfOfBuddy 0).slots.get none 0 = none ∧
    0x400000 + 1 * 0x200000 + ((buddy BuddyHalf.init).halfOfBuddy 0).journalBytes + 4 + (codeShard []).length ≤
      (buddy BuddyHalf.init).halfBytes := by decide +kernel
theorem hyp_ShardEndMismatch : sha256 [] ≠ [0] :=
  fun h => absurd ((congrArg List.length h).symm.trans (sha256_length _)) (by decide)

theorem pullEnd_opens (d : List Byte) (hd : d.length = 32) :
    (carrying (ckptHdr 7 0 32) d (pulling pull0)).openCkpt loopPort 0 7 =
      (carrying (ckptHdr 7 0 32) d (pulling pull0), some (packetOf (ckptHdr 7 0 32) d)) :=
  carrying_opens _ _ _ _
    (carrying_head _ d _ (by decide +kernel) (by decide +kernel) (by decide +kernel) hd)
    (by decide +kernel) (by decide +kernel) (by decide +kernel) (by decide +kernel) (by decide +kernel)
    (by decide +kernel)
theorem carrying_padRead (h : BitVec 128) (d : List Byte) (s : State) (a n : Nat) :
    (carrying h d s).padRead a n = s.padRead a n := by
  induction n generalizing a with
  | zero => rfl
  | succ n ih => rw [State.padRead, State.padRead, ih]; rfl
theorem hyp_PullEnd : ∃ d : List Byte,
    (carrying (ckptHdr 7 0 32) d (pulling pull0)).openCkpt loopPort 0 7 =
      (carrying (ckptHdr 7 0 32) d (pulling pull0), some (packetOf (ckptHdr 7 0 32) d)) ∧
    ((carrying (ckptHdr 7 0 32) d (pulling pull0)).shardRead shard0).map sha256 = some d := by
  refine ⟨_, pullEnd_opens _ (sha256_length ((pulling pull0).padRead shard0.addr shard0.len)), ?_⟩
  rw [shardRead_clean _ shard0 rfl (by exact (by decide +kernel : (pulling pull0).pad.poison = [])), Option.map_some,
    carrying_padRead]
theorem hyp_PullEndFails :
    ckptOpens 7 0 [5] (pulling { pull0 with failed := [0] }) = true ∧
    ((pulling { pull0 with failed := [0] }).shardRead shard0).map sha256 ≠ some [5] := by
  refine ⟨by decide +kernel, ?_⟩
  rw [shardRead_clean _ _ rfl (by decide +kernel)]
  intro h
  exact absurd ((congrArg List.length (Option.some.inj h)).symm.trans (sha256_length _)) (by decide)
theorem test_pullData :
    after (.pullData 6 0) (carrying (ckptHdr 6 4095 1) [5] (pulling pull0)) (fun t => t.padByte 0x2801FFE0 == 5) = true := by
  decide +kernel
theorem test_restoreTimeout : after (.restoreTimeout false) (pulling pull0) (fun t => t.ckpt.st == 4 && t.ckpt.err == 3) = true := by
  decide +kernel

end Sys2Proof.Tests
end

