-- ==== Sys2Proof/Tests/Gang.lean ====
section
/-! SUPPORT. Witnesses for the statements about gang operations, and small tests of their commands. The operation is a
product of one vector of three INT8 values with three rows of two INT8 weights, on the first tile of cluster 5. -/

namespace Sys2Proof.Tests

set_option Elab.async false

open Sys2Proof Sys2Proof.Machine

/-- The record: INT8 by INT8 into FP32, no epilogue, one shard; A, B and C lie in bank 5120, the area in bank 5121. -/
def product : LRec :=
  { rec (BitVec.ofNat 512 (0x10 + 0xB000 * 65536 + 0x02020000 * 2 ^ 192)) with
    params := [0x0001000100010000, 0x100002, 0x0001000000000000, 0, 0, 0]
    opnds := [some (opnd 0 3 0x28000000), some (opnd 0 6 0x28010000), some (opnd 0 3 0x28008000)]
    area := 0x28020000 }

/-- The vector is (2, 0, 0) and the first row of weights (5, 3). -/
def loaded : State :=
  let s := (fronted.setHandle 3 6 (handle 0 0x28010000 0x10000)).setBank 5121 { Bank.init with owner := some 3 }
  { s with
    pad := { s.pad with mem := [(0x28000000, 2), (0x28010000, 5), (0x28010081, 3)] }
    fe := { s.fe with flights := [⟨product, .queued, false, 0⟩] } }

theorem hyp_GangIssue :
    product.opcode = 0x10 ∧ product.pwEn = false ∧ loaded.gangFree product = true ∧ product.isArray = true ∧
    loaded.overHole product = false := by decide +kernel

/-- The same record with the opcode of each other gang operation. -/
def gangOpcode (op : BitVec 512) : Bool := (rec op).opcode == op.truncate 8 && loaded.gangFree (rec op)
theorem hyp_GangOpcodes :
    gangOpcode 0x11 = true ∧ gangOpcode 0x12 = true ∧ gangOpcode 0x13 = true ∧ gangOpcode 0x20 = true ∧
    gangOpcode 0x21 = true ∧ gangOpcode 0x22 = true ∧ gangOpcode 0x23 = true ∧ gangOpcode 0x24 = true ∧
    gangOpcode 0x25 = true ∧ gangOpcode 0x30 = true := by decide +kernel
theorem hyp_GangHole :
    { loaded with fuse := { loaded.fuse with tileOut := [(80, true)] } }.overHole product = true := by decide +kernel
theorem test_matmul :
    after (.matmul cmdRef) loaded (fun t => (t.gangOf 3).map (·.lrec.ref) == some cmdRef) = true := by decide +kernel

/-- The operation, with the given progress of its only tile. -/
def gang (r : TileRun) : GangOp :=
  { lrec := product, hot := false, since := 0, tiles := [(80, r)], vecs := [], cmps := [], results := [], arrived := []
    firstArrival := none, stop := none, parkAt := 0 }

/-- It runs, with the tile at activity 8. -/
def running (g : GangOp) : State :=
  let s := { loaded with fe := { loaded.fe with flights := [⟨product, .running, false, 0⟩] } }
  (s.setGang 3 (some g)).setAct 5 0 ⟨8, false⟩

theorem hyp_GangBusy : (running (gang TileRun.init)).gangFree product = false := by decide +kernel

/-- Its only shard and place. -/
def shard : Shard := ⟨0, 1, 0, 2, 0, 1, 0⟩
def place : Place := ⟨⟨0, 0, 1, 0, 2⟩, false, 0, 1, true, true, false⟩

theorem hyp_PassIssue :
    (running (gang TileRun.init)).clusterGang (5 : Fin 64).val = some (3, gang TileRun.init) ∧
    (running (gang TileRun.init)).tileShard product (5 : Fin 64).val (0 : Fin 16).val = some shard ∧
    ((running (gang TileRun.init)).actOf 5 0).level = 8 ∧ (running (gang TileRun.init)).tileLive 5 0 = true ∧
    (running (gang TileRun.init)).clkStopped 5 = false ∧ product.place shard 0 = some place ∧
    product.convOut place = false := by decide +kernel
theorem hyp_PassReads :
    ((running (gang TileRun.init)).passReads product ((running (gang TileRun.init)).ringOf product) place).all
      (fun a => !(running (gang TileRun.init)).poisoned a.1 a.2) = true := by decide +kernel
theorem test_passIssue :
    after (.passIssue 5 0 ⟨0, 0, 0, 0, 0⟩) (running (gang TileRun.init)) (fun t =>
      ((t.gangOf 3).map fun g => (g.tile 5 0).ends.map fun e => (e.acc.get 0 0, e.acc.get 0 1)) ==
        some [(10, 6)]) = true := by decide +kernel

/-- The tile's step has ended with accumulators 10 and 6. -/
def ended : TileRun :=
  { TileRun.init with issued := 1, ends := [⟨1, false, [(0, 10), (1, 6)], TileRun.init.shadow⟩] }

theorem hyp_StepCommit :
    (running (gang ended)).clkStopped 5 = false ∧ product.place shard (1 - 1) = some place ∧
    (running (gang ended)).gangBarred product ((running (gang ended)).commitWrites 3 (gang ended) 5 0 place false) =
      none := by decide +kernel
theorem test_stepCommit :
    after (.stepCommit 5 (.tile 0)) (running (gang ended))
      (fun t => t.padRead 0x28008000 8 == [0, 0, 0x20, 0x41, 0, 0, 0xC0, 0x40]) = true := by decide +kernel

/-- The tile's step is open, after the given number of reissues. -/
def open_ (n : Nat) : TileRun := { TileRun.init with issued := 1, reissues := n }

theorem hyp_StepRestart :
    (open_ 2).stepOpen = true ∧ 2 < (((running (gang (open_ 2))).pr .part 3 0x3C0).extractLsb' 4 3).toNat ∧
    (((running (gang (open_ 3))).pr .part 3 0x3C0).extractLsb' 4 3).toNat ≤ 3 ∧
    ((running (gang (open_ 3))).flight? product.ref).map (fun f => f.st.ended) = some false := by decide +kernel
theorem test_stepRestart :
    after (.stepRestart 5 (.tile 0) false) (running (gang (open_ 2)))
      (fun t => (t.gangOf 3).map (fun g => ((g.tile 5 0).issued, (g.tile 5 0).reissues)) == some (0, 3)) = true := by
  decide +kernel
theorem test_stepRestartFault :
    after (.stepRestart 5 (.tile 0) false) (running (gang (open_ 3))) (fun t => (t.gangOf 3).isNone) = true := by
  decide +kernel

theorem hyp_ActivityStep :
    (running (gang TileRun.init)).passPending 5 0 = true ∧ ready.passPending (5 : Fin 64).val (0 : Fin 16).val = false ∧
    (ready.setAct 5 0 ⟨bandLo (ready.pr .clu 5 0x304), false⟩).passPending 5 0 = false := by decide +kernel
theorem test_activityRises :
    after (.activityStep 5 0) ((running (gang TileRun.init)).setAct 5 0 ⟨3, true⟩)
      (fun t => t.actOf 5 0 == ⟨4, false⟩) = true := by decide +kernel

/-! ## The barrier, parking and the watchdog (R112–R118, R161–R166) -/

/-- The tile's share is done. -/
def done : TileRun := { TileRun.init with issued := 1, committed := 1, steps := 1 }

/-- The operation with cluster 5 arrived. -/
def arrived (r : TileRun) (stop : Option GangStop) : GangOp := { gang r with arrived := [5], firstArrival := some 0, stop := stop }

theorem hyp_BarrierArrive :
    (running (gang done)).clusterOwner (5 : Fin 64).val = some 3 ∧ (5 : Fin 64).val ∉ (gang done).arrived ∧
    (running (gang done)).clusterDone (gang done) (5 : Fin 64).val = true := by decide +kernel
theorem hyp_BarrierClose :
    (running (arrived done none)).allArrived 3 (arrived done none) = true ∧ (running (arrived done none)).clustersOf 3 = [5] ∧
    (running (arrived done none)).gangBarred product product.atClose = none ∧ product.kS = 1 ∧
    product.elementwise = true := by decide +kernel
theorem hyp_BarrierStop :
    (running (arrived (open_ 0) (some .park))).clusterDone (arrived (open_ 0) (some .park)) 5 = false := by decide +kernel
theorem hyp_GangTimeout :
    (arrived (open_ 0) none).firstArrival = some 0 ∧
    (0 : BitVec 64).toNat + (running (arrived (open_ 0) none)).wdogNs ≤ (10000000 : BitVec 64).toNat := by decide +kernel
theorem test_barrierArrive :
    after (.barrierArrive 5) (running (gang done)) (fun t => (t.gangOf 3).map (·.arrived) == some [5]) = true := by
  decide +kernel
theorem test_barrierClose :
    after (.barrierClose 3 0) (running (arrived done none)) (fun t => (t.gangOf 3).isNone &&
      (t.flight? cmdRef).map (fun f => f.st == .completed) == some true) = true := by decide +kernel
theorem test_barrierPark :
    after (.barrierClose 3 0) (running (arrived (open_ 0) (some .park)))
      (fun t => (t.gangOf 3).isNone && (t.parkedOf 3).isSome) = true := by decide +kernel

/-- CMP_COUNT over one INT8 value at the start of bank 5120, counted as 1. -/
def compare : GangOp :=
  { arrived TileRun.init none with
    lrec := { rec 0x30 with
      params := [0, 0, 0], opnds := [some (opnd 0 3 0x28000000), none, some (opnd 0 3 0x28008000)] }
    cmps := [(5120, { UnitRun.init with done := 1, counts := [(0, 1)] })] }

theorem hyp_CmpClose :
    compare.lrec.opcode = 0x30 ∧ compare.lrec.cPerRow = false ∧ (running compare).allArrived 3 compare = true ∧
    (running compare).clusterDone compare 5 = true ∧ (running compare).gangBarred compare.lrec compare.lrec.atClose = none := by
  decide +kernel
theorem test_cmpClose :
    after (.barrierClose 3 0) (running compare) (fun t => t.padRead 0x28008000 8 == [1, 0, 0, 0, 0, 0, 0, 0]) = true := by
  decide +kernel

/-- A hot operation of queue 6 is ready beside the warm one. -/
def contended : State :=
  let s := (running (gang (open_ 0))).setPr .fe 3 0x280 0x40000000
  { s with fe := { s.fe with
      flights := s.fe.flights ++ [⟨{ product with ref := { cmdRef with queue := 6 } }, .queued, false, 0⟩] } }

theorem hyp_Park :
    (contended.pr .part (3 : Fin 64).val 0x3C0).getLsbD 0 = true ∧ contended.hotReady (3 : Fin 64).val = true ∧
    ((contended.pr .part (3 : Fin 64).val 0x3C0).extractLsb' 16 8).toNat * 1000 ≤
      (contended.sys.time - (gang (open_ 0)).since).toNat := by decide +kernel
theorem hyp_ParkedResume :
    (loaded.setParked 3 (some (gang (open_ 0)))).parkedOf (3 : Fin 64).val = some (gang (open_ 0)) ∧
    loaded.gangOf (3 : Fin 64).val = none ∧ loaded.hotReady (3 : Fin 64).val = false := by decide +kernel
theorem hyp_CommitApplyBusy : (running (gang done)).gangOf 3 ≠ none := by decide +kernel
theorem test_park : after (.park 3) contended (fun t => (t.gangOf 3).map (·.stop) == some (some .park)) = true := by
  decide +kernel
theorem test_parkedResume :
    after (.parkedResume 3 0) (loaded.setParked 3 (some (gang (open_ 0)))) (fun t => (t.gangOf 3).isSome) = true := by
  decide +kernel

end Sys2Proof.Tests
end

