-- ==== Sys2Proof/Tests/Machine.lean ====
section
/-! SUPPORT. Witnesses for the statements about the whole block, boot, resets and modes: for each, a concrete state and
operands that meet its hypotheses, clause by clause; and small tests of one command each. -/

namespace Sys2Proof.Tests

set_option Elab.async false

open Sys2Proof Sys2Proof.Machine

/-! ## Steps and invariants -/

theorem hyp_StepRunsFrontCommand : { ready with pending := [.tickSource] }.pending = Instr.tickSource :: [] := rfl

theorem hyp_IdleStepIsOneNanosecond :
    State.reset.pending = [] ∧ State.reset.sys.started = false ∧ ready.pending = [] ∧ ready.sys.started = true := by
  decide

theorem hyp_ExecLeavesQueue : ∃ t, exec .coldReset { ready with pending := [.tickSource] } = .next t := ⟨_, rfl⟩

/-- One listed byte in each memory, and one record in the error ring. -/
def written : State :=
  { ready with
    pad := { ready.pad with mem := [(0x20000, 7)] }
    cel := { ready.cel with mem := [(0xBFFFFFFFF, ⟨0, 9⟩)] }
    err := { ready.err with ring := [ErrRec.mk0 1 0 0] }
    pending := [.errPop .pf] }

theorem hyp_StepKeepsMemoryForm : MemInv written ∧ ∃ t, step written = .next t :=
  ⟨⟨by decide, by decide, by decide⟩, ⟨_, rfl⟩⟩

/-- A device whose last floor lowering is being blown. -/
def blowing : State :=
  { ready with fuse := { Fuse.reset with lowerings := 7, op := some (2, 0) }, pending := [.fuseBlowDone true] }

theorem hyp_StepKeepsFuseLimits : FuseInv blowing ∧ ∃ t, step blowing = .next t :=
  ⟨⟨by decide, by decide, by decide, by decide, by decide, by decide⟩, ⟨_, rfl⟩⟩

/-- A locked device whose next command is a cold reset. -/
def locked : State := { ready with sys := { ready.sys with tenancyLock := true }, pending := [.coldReset] }

theorem hyp_TenancyLockHeld :
    LockInv locked ∧ locked.sys.tenancyLock = true ∧ ∃ t, step locked = .next t ∧ t.sys.tenancyLock = false := by
  refine ⟨⟨by decide, by decide⟩, by decide, ⟨_, rfl, by decide⟩⟩

/-! ## Cold start, warm resets (R580, R584, R587) -/

/-- An image that verifies. -/
def goodImage : ImageRead := ⟨0x54363453, 7, 0, 0x10000, true, true⟩

/-- An image with a wrong magic number. -/
def badImage : ImageRead := ⟨0, 7, 0, 0x10000, true, true⟩

/-- A start that has reached a phase. -/
def startAt (p : BitVec 4) : State := { State.reset with sys := { Sys.reset with started := true, phase := p } }

theorem hyp_ColdStart : State.reset.sys.started = false ∧ (2 : BitVec 2) ≠ 3 := by decide
theorem hyp_BootPhases :
    (startAt 1).sys.started = true ∧ (startAt 1).sys.warm = none ∧ (startAt 1).sys.phase = 1 ∧
    (startAt 3).sys.phase = 3 ∧ (startAt 4).sys.phase = 4 ∧ (startAt 5).sys.phase = 5 := by decide
theorem hyp_BootImages :
    (startAt 3).imageOk goodImage = true ∧ (startAt 3).imageOk badImage = false := by decide

theorem test_coldStart : after (.coldStart 1 9) State.reset (fun t => t.sys.started && t.sys.slotId == 9) = true := by
  decide
theorem test_bootImageB :
    after (.bootPhaseDone (.image badImage goodImage)) (startAt 3) (fun t => t.sys.imageB && t.sys.phase == 4) = true := by
  decide
theorem test_bootNoImage :
    after (.bootPhaseDone (.image badImage badImage)) (startAt 3) (fun t => t.sys.phase == 0xF) = true := by decide

/-- READY with the tenancy lock set, a written byte and a partition key. -/
def beforeReset : State :=
  { written with sys := { ready.sys with tenancyLock := true }, cel := { written.cel with keys := [(3, 1)] } }

theorem hyp_WarmResetSources : ready.sys.phase = 7 ∧ ready.pwr.trip = false ∧ ready.sys.warm = none := by decide
theorem hyp_GlbWarmReset : ∃ x, ready.openAt .pf ⟨.glb, 0⟩ 0x08 0x80005A00 = .ok x := ⟨_, rfl⟩
theorem test_warmResetPin :
    after .warmResetPin beforeReset (fun t => t.sys.tenancyLock && t.keyOf 3 == 0 && t.pad.mem.isEmpty &&
      t.cel.mem == beforeReset.cel.mem && t.sys.lastReset == 1) = true := by decide
theorem test_coldReset : after .coldReset beforeReset (fun t => !t.sys.tenancyLock && t.cel.mem.isEmpty) = true := by
  decide

/-- A warm reset in progress. -/
def resetting : State := { ready with sys := { ready.sys with phase := 3, warm := some ⟨.pin, false⟩ } }

theorem hyp_WarmResetEnds :
    resetting.sys.warm.isSome = true ∧ resetting.fuse.op = none ∧ resetting.imageOk goodImage = true ∧
    resetting.imageOk badImage = false := by decide
theorem test_warmResetCopy :
    after (.warmReset goodImage badImage badImage false) resetting
      (fun t => t.sys.phase == 7 && t.sys.cellarCopy && t.sys.warmResets == 1) = true := by decide

/-! ## Modes and the tenancy lock (R308–R310, R532) -/

theorem hyp_StageModeRequest :
    (∃ x, stageFree.openAt .pf ⟨.glb, 0⟩ 0x08 1 = .ok x) ∧ stageFree.sys.stageMode = false ∧ stageFree.entryCheck = 0 :=
  ⟨⟨_, rfl⟩, by decide, by decide +kernel⟩
theorem hyp_StageModeRefused : (∃ x, ready.openAt .pf ⟨.glb, 0⟩ 0x08 1 = .ok x) ∧ ready.entryCheck ≠ 0 :=
  ⟨⟨_, rfl⟩, by decide⟩
theorem hyp_PartitionedModeRequest :
    (∃ x, staged.openAt .pf ⟨.glb, 0⟩ 0x08 2 = .ok x) ∧ staged.sys.stageMode = true ∧ staged.stg.st = 1 :=
  ⟨⟨_, rfl⟩, by decide, by decide⟩
theorem hyp_TenancyLock : (∃ x, ready.openAt .pf ⟨.glb, 0⟩ 0xC0 1 = .ok x) ∧ ready.sys.stageMode = false ∧
    ready.sys.tenancyLock = false ∧ ready.fuse.audit.length < 64 := ⟨⟨_, rfl⟩, by decide, by decide, by decide⟩
theorem hyp_TenancyLockSet : (∃ x, beforeReset.openAt .pf ⟨.glb, 0⟩ 0xC0 1 = .ok x) ∧ beforeReset.sys.tenancyLock = true :=
  ⟨⟨_, rfl⟩, by decide⟩
theorem hyp_TenancyLockStage : (∃ x, staged.openAt .pf ⟨.glb, 0⟩ 0xC0 1 = .ok x) := ⟨_, rfl⟩

theorem test_stageModeRequest : after (.stageModeRequest .pf) stageFree (fun t => t.sys.stageMode && t.stg.st == 1) = true := by
  decide +kernel
theorem test_stageModeRefused : after (.stageModeRequest .pf) ready (fun t => t.stg.entryErr == 2) = true := by
  decide +kernel
theorem test_partitionedMode : after (.partitionedModeRequest .pf) staged (fun t => !t.sys.stageMode) = true := by
  decide +kernel
theorem test_tenancyLock :
    after (.tenancyLock .pf) ready (fun t => t.sys.tenancyLock && t.fuse.audit.map (·.kind) == [4]) = true := by decide

/-! ## Configuration space (R566, R572) -/

theorem hyp_ConfigurationWrite :
    ready.sys.pcieUp = true ∧ ready.sys.warm = none ∧ ready.pwr.trip = false ∧ ready.sys.phase = 7 ∧
    ready.fnExists (0 : Fin 65).val = true := by decide
theorem test_configurationWrite :
    after (.configurationWrite 0 true false true false) ready (fun t => (t.configOf 0).busMaster) = true := by
  decide +kernel

end Sys2Proof.Tests
end

