-- ==== Sys2Proof/Tests/Part.lean ====
section
/-! SUPPORT. Witnesses for the statements about partitions, clusters, budgets, ingest and contexts, and small tests of
their commands. -/

namespace Sys2Proof.Tests

set_option Elab.async false

open Sys2Proof Sys2Proof.Machine

/-! ## Partitions (R495–R503, R566) -/

/-- Partition 3 is active and owns nothing; its function exists. -/
def emptyPart : State :=
  { ready.setPart 3 { Part.init with st := .active } with host := { ready.host with vfEnable := true, numVFs := 64 } }

/-- Cluster 7 is passing to partition 3. -/
def inMove : State := fronted.setPart 3 { Part.init with st := .active, cluOp := some ⟨1, 7, 0⟩ }

theorem hyp_PartConfigure :
    (∃ x, emptyPart.openAt .pf ⟨.part, 4⟩ 0x08 4 = .ok x) ∧ (emptyPart.partOf (4 : Fin 64).val).st = .free ∧
    emptyPart.fnExists (4 + 1) = true ∧ (∃ x, emptyPart.openAt .pf ⟨.part, 3⟩ 0x08 4 = .ok x) ∧
    (emptyPart.partOf 3).st ≠ .free := ⟨⟨_, rfl⟩, by decide +kernel, by decide +kernel, ⟨_, rfl⟩, by decide +kernel⟩
theorem hyp_PartUnconfigure :
    (∃ x, emptyPart.openAt .pf ⟨.part, 3⟩ 0x08 2 = .ok x) ∧ (emptyPart.partOf (3 : Fin 64).val).st = .active ∧
    emptyPart.clustersOf 3 = [] ∧ emptyPart.banksOwned 3 = 0 ∧ emptyPart.pagesMapped 3 = 0 ∧
    emptyPart.collBound 3 = false ∧ emptyPart.moving 3 = false ∧
    (∃ x, fronted.openAt .pf ⟨.part, 3⟩ 0x08 2 = .ok x) ∧ fronted.clustersOf 3 = [5] :=
  ⟨⟨_, rfl⟩, by decide +kernel, by decide +kernel, by decide +kernel, by decide +kernel, by decide +kernel,
    by decide +kernel, ⟨_, rfl⟩, by decide +kernel⟩
theorem hyp_PartReset :
    (∃ x, fronted.openAt .pf ⟨.part, 3⟩ 0x08 1 = .ok x) ∧ (fronted.partOf (3 : Fin 64).val).st = .active ∧
    fronted.moving 3 = false ∧ fronted.sys.stageMode = false ∧
    (∃ x, emptyPart.openAt .pf ⟨.part, 4⟩ 0x08 1 = .ok x) ∧
    (∃ x, inMove.openAt .pf ⟨.part, 3⟩ 0x08 1 = .ok x) ∧ (inMove.partOf 3).st = .active ∧ inMove.moving 3 = true :=
  ⟨⟨_, rfl⟩, by decide +kernel, by decide +kernel, by decide +kernel, ⟨_, rfl⟩, ⟨_, rfl⟩, by decide +kernel,
    by decide +kernel⟩
theorem hyp_VfFlr : fronted.fnExists ((3 : Fin 64).val + 1) = true ∧ fronted.sys.phase = 7 ∧ fronted.sys.warm = none ∧
    fronted.pwr.trip = false := by decide +kernel
theorem hyp_VfEnableChange : (64 : BitVec 16).toNat ≤ 64 ∧
    (∀ q, q < 64 → fronted.fnExists (q + 1) = true → true = true ∧ q + 1 ≤ (64 : BitVec 16).toNat) := by
  refine ⟨by decide, fun q hq _ => ⟨rfl, ?_⟩⟩
  have : (64 : BitVec 16).toNat = 64 := rfl
  omega
theorem test_partConfigure :
    after (.partConfigure .pf 4) emptyPart (fun t => (t.partOf 4).st == .active && (t.ctxOf 4 0).st == .running) = true := by
  decide +kernel
theorem test_partUnconfigure :
    after (.partUnconfigure .pf 3) emptyPart (fun t => (t.partOf 3).st == .free) = true := by decide +kernel
theorem test_partReset :
    after (.partReset .pf 3) fronted (fun t => (t.bankOf 5120).st == .wiping && t.clusterOwner 5 == some 3) = true := by
  decide +kernel
theorem test_partResetWaits :
    after (.partReset .pf 3) inMove (fun t => (t.partOf 3).resetDue) = true := by decide +kernel
theorem test_vfEnableChange :
    after (.vfEnableChange true 65) emptyPart (fun t => t.host.numVFs == 64) = true := by decide +kernel

/-! ## Clusters, budgets and ingest (R500–R513, R524–R528) -/

/-- Partition 3 may own 4,096 banks; partition 4 is active and owns nothing; cluster 7 is free. -/
def movable : State := (fronted.setPart 4 { Part.init with st := .active }).setPr .part 3 0x50 0x1000

/-- Cluster 9 of partition 4, which owns no bank in it. -/
def movable2 : State := { movable with parts := { movable.parts with cluster := [(5, some 3), (9, some 4)] } }

theorem hyp_ClusterTake :
    (∃ x, movable.openAt .pf ⟨.part, 3⟩ 0x48 (cluWord 1 7 0) = .ok x) ∧ movable.cluCheck 7 none (some 3) = 0 ∧
    movable.cluCheck 5 none (some 3) = 1 := ⟨⟨_, rfl⟩, by decide +kernel, by decide +kernel⟩
theorem hyp_ClusterReturn :
    (∃ x, movable2.openAt .pf ⟨.part, 4⟩ 0x48 (cluWord 2 9 0) = .ok x) ∧ movable2.cluCheck 9 (some 4) none = 0 ∧
    movable.cluCheck 7 (some 3) none = 1 := ⟨⟨_, rfl⟩, by decide +kernel, by decide +kernel⟩
theorem hyp_ClusterMove :
    (∃ x, movable2.openAt .pf ⟨.part, 3⟩ 0x48 (cluWord 3 9 4) = .ok x) ∧
    movable2.cluCheck 9 (some 4) (some 3) = 0 := ⟨⟨_, rfl⟩, by decide +kernel⟩
theorem hyp_ClusterOpDone :
    (inMove.partOf (3 : Fin 64).val).cluOp = some ⟨1, 7, 0⟩ ∧ inMove.clusterWipes 7 = false ∧
    (inMove.setBank 7168 { Bank.init with st := .wiping }).clusterWipes 7 = true := by decide +kernel
theorem hyp_ClusterOpDoneNoReset : ∀ q, (inMove.partOf q).resetDue = false := by
  intro q
  have e : inMove.parts.part = [(3, { Part.init with st := .active, cluOp := some ⟨1, 7, 0⟩ })] := by decide +kernel
  by_cases h : 3 = q
  · subst h; decide +kernel
  · simp [State.partOf, e, SMap.get, h, Part.init]
theorem test_clusterTakeRefused :
    after (.clusterTake .pf 3 5) movable (fun t => (t.partOf 3).cluErr == 1 && (t.partOf 3).cluOp.isNone) = true := by
  decide +kernel
theorem test_clusterMoveRefused :
    after (.clusterMove .pf 3 7 4) movable2 (fun t => (t.partOf 3).cluErr == 1 && t.clusterOwner 7 == none) = true := by
  decide +kernel
theorem test_clusterReturnRefused :
    after (.clusterReturn .pf 3 7) movable (fun t => (t.partOf 3).cluErr == 1) = true := by decide +kernel

/-- The last refill was at 998 us. -/
def refilling : State := { emptyPart with sys := { ready.sys with time := 1000500 }, parts := { emptyPart.parts with refill := 998 } }

theorem hyp_RegulatorRefill :
    refilling.sys.time.toNat / 1000 ≠ refilling.parts.refill ∧
    (emptyPart.sys.time.toNat / 1000 = emptyPart.parts.refill) := by decide +kernel
theorem hyp_RefillQuiet : ∀ p, p < 64 → refilling.moving p = false ∧ (refilling.commitOf ⟨.budget, p⟩).waiting = false ∧
    (refilling.partOf p).posts = [] ∧ ∀ q, q < 16 → (refilling.queueOf p q).entries = [] := by decide +kernel

/-- Partition 3 has an ingest ring in bank 5120 through handle 7 and a source in handle 1; a post's low half is held. -/
def ingesting : State :=
  let s := ((fronted.setPr .part 3 0xD0 0x80000007).setPr .part 3 0xD4 0x20).setHandle 3 7 (handle 0 0x28000000 0x20000)
  { s with bus := { s.bus with wbufs := [(bufKey .pf ⟨.part, 3⟩, some ⟨0xD8, 0⟩)] } }

/-- A post of one word from handle 1. -/
def post1 : Word := 0x00100000

theorem hyp_IngestPost :
    (∃ x, ingesting.openAt .pf ⟨.part, 3⟩ 0xDC post1 = .ok x) ∧
    ingesting.wbufOf .pf ⟨.part, 3⟩ = some ⟨0xD8, 0⟩ ∧ (ingesting.ingestCfg 3).getLsbD 31 = true ∧
    postHandle post1 = 1 ∧ postWords post1 = 1 ∧ (ingesting.handleOf 3 1).kind = 2 ∧ (ingesting.handleOf 3 1).v = true ∧
    (ingesting.handleOf 3 1).rd = true ∧ (ingesting.handleOf 3 1).covers 0 4096 = true ∧
    1 + ingesting.unlanded 3 ≤ ingesting.credits (.ingest 3) := ⟨⟨_, rfl⟩, by decide +kernel⟩
theorem hyp_IngestRefused :
    (ingesting.setPr .part 3 0xD0 7).ingestCfg 3 = 7 ∧
    ∃ x, (ingesting.setPr .part 3 0xD0 7).openAt .pf ⟨.part, 3⟩ 0xDC post1 = .ok x := ⟨by decide +kernel, ⟨_, rfl⟩⟩

/-- A word of that post has arrived. -/
def landing : State :=
  ingesting.setPart 3 { Part.init with st := .active, posts := [⟨0, 1, 0, 8, true⟩], arrived := some ([1, 2], false) }

theorem hyp_IngestLanded :
    (landing.partOf (3 : Fin 64).val).posts = [⟨0, 1, 0, 8, true⟩] ∧ (landing.partOf 3).arrived = some ([1, 2], false) ∧
    (landing.ingestHandle 3).v = true ∧ (landing.ingestHandle 3).kind = 0 ∧
    (landing.partWrite 3 0 ((landing.ingestHandle 3).dev.toNat + (landing.que1 (.ingest 3)).w % landing.depth (.ingest 3) * 4096)
      [1, 2]).isSome = true := by decide +kernel
theorem test_ingestPost :
    after (.ingestPost .pf 3 post1) ingesting (fun t => (t.partOf 3).posts.map (·.words) == [1]) = true := by
  decide +kernel
theorem test_ingestLanded :
    after (.ingestLanded 3) landing (fun t => t.padRead 0x28000000 2 == [1, 2] && (t.partOf 3).posts.isEmpty) = true := by
  decide +kernel

/-! ## Contexts (R514–R523) -/

/-- Handle 6 names a save area of 512 KiB in the cellar. Context 1 of partition 3 is as given and has that area; the
partition selects the given context; context 0 is in the given state, with or without that area. -/
def contexts (sel : Word) (st : CtxSt) (area : Bool) (x : Ctx) : State :=
  let s := (fronted.setHandle 3 6 (handle 1 0x4000000000 0x80000)).setPte 3 0 0xF000000000C00000
  let s := s.setPr .part 3 0x60 sel
  let s := s.setCtx 3 0 { Ctx.init 0 with st := st, areas := if area then 0x40060000 else 0 }
  let run : Option (BitVec 4) := if st = .running ∨ st = .saving ∨ st = .restoring then some 0 else none
  (s.setCtx 3 1 { x with areas := 0x40060000 }).setPart 3 { Part.init with st := .active, runCtx := run }

/-- Context 1 SAVED with a queued record. -/
def worker : Ctx := { Ctx.init 1 with st := .saved, flights := [⟨rec 0, .queued, false, 0⟩] }

theorem hyp_CtxCreate :
    (∃ x, (contexts 1 .running true (Ctx.init 1)).openAt .pf ⟨.part, 3⟩ 0x74 1 = .ok x) ∧
    (contexts 1 .running true (Ctx.init 1)).ctxSel (3 : Fin 64).val = 1 ∧
    ((contexts 1 .running true (Ctx.init 1)).ctxOf 3 1).st = .free ∧
    (contexts 1 .running true (Ctx.init 1)).ctxCheck 3 1 = 0 ∧
    (contexts 1 .running false (Ctx.init 1)).ctxCheck 3 1 = 2 ∧
    (contexts 0 .free false (Ctx.init 1)).ctxCheck 3 0 = 0 ∧
    ((contexts 0 .free false (Ctx.init 1)).partOf 3).runCtx = none :=
  ⟨⟨_, rfl⟩, by decide +kernel⟩
theorem hyp_CtxDestroy :
    (∃ x, (contexts 0 .running true worker).openAt .pf ⟨.part, 3⟩ 0x74 2 = .ok x) ∧
    ((contexts 0 .running true worker).ctxOf 3 0).st = .running ∧
    (∀ q, q < 16 → ((contexts 0 .running true worker).queueOf 3 q).st = .free) ∧
    ((contexts 0 .saving true worker).ctxOf 3 0).st = .saving := ⟨⟨_, rfl⟩, by decide +kernel⟩
theorem hyp_CtxSuspend :
    (∃ x, (contexts 1 .running true worker).openAt .pf ⟨.part, 3⟩ 0x74 3 = .ok x) ∧
    ((contexts 1 .running true worker).ctxOf 3 1).st = .saved ∧
    ((contexts 0 .running false worker).ctxOf 3 0).areas.getLsbD 30 = false ∧
    ((contexts 0 .running true worker).ctxOf 3 0).areas.getLsbD 30 = true ∧
    (contexts 0 .running true worker).ctxCollective 3 0 = false ∧
    ((contexts 0 .running true worker).setCctx 2 inRun).ctxCollective 3 0 = true ∧
    ((contexts 0 .running true worker).partOf 3).deferred = false ∧
    ((contexts 0 .saving true worker).ctxOf 3 0).st = .saving := ⟨⟨_, rfl⟩, by decide +kernel⟩
theorem hyp_CtxResume :
    (∃ x, (contexts 1 .running true { worker with st := .suspended }).openAt .pf ⟨.part, 3⟩ 0x74 4 = .ok x) ∧
    ((contexts 1 .running true { worker with st := .suspended }).ctxOf 3 1).st = .suspended :=
  ⟨⟨_, rfl⟩, by decide +kernel⟩
theorem hyp_QuantumExpiry :
    ((contexts 0 .running true worker).partOf (3 : Fin 64).val).runCtx = some 0 ∧
    ((contexts 0 .running true worker).partOf 3).quantumEnd.toNat ≤ (contexts 0 .running true worker).sys.time.toNat ∧
    ((contexts 0 .running true worker).ctxOf 3 0).suspendAfter = false ∧
    (contexts 0 .running true worker).nextCtx 3 0 = some 1 ∧
    (contexts 0 .running true (Ctx.init 1)).nextCtx 3 0 = none ∧
    (contexts 0 .running true worker).sys.time.toNat <
      (((contexts 0 .running true worker).setPart 3 { Part.init with st := .active, runCtx := some 0, quantumEnd := 2000000 }
        ).partOf 3).quantumEnd.toNat := by decide +kernel
theorem hyp_ContextYield :
    ((contexts 0 .saved true worker).partOf 3).runCtx = none ∧ (contexts 0 .saved true worker).nextCtx 3 15 = some 1 := by
  decide +kernel
theorem hyp_CtxSaveDone :
    (List.range 16).find? (fun c => ((contexts 0 .saving true worker).ctxOf 3 c).st == .saving) = some 0 ∧
    (contexts 0 .saving true worker).gangOf 3 = none ∧
    (contexts 0 .saving true worker).saveGate 3 0 = some true ∧ (contexts 0 .saving false worker).saveGate 3 0 = some false ∧
    ((contexts 0 .saving true worker).setPte 3 0 0xF800000000C00000).saveGate 3 0 = none ∧
    saveSet ((contexts 0 .saving true worker).ctxOf 3 0).set0 ((contexts 0 .saving true worker).ctxOf 3 0).set1 = [] := by
  decide +kernel
theorem hyp_CtxSaveSuspends :
    let s := (contexts 0 .saving true (Ctx.init 1)).setCtx 3 0
      { Ctx.init 0 with st := .saving, areas := 0x40060000, suspendAfter := true }
    s.saveGate 3 0 = some true ∧ (s.ctxOf 3 0).suspendAfter = true ∧ (s.ctxOf 3 0).st = .saving := by decide +kernel
theorem hyp_NoneRunnable : ∀ d, (contexts 0 .saving true (Ctx.init 1)).ctxRunnable 3 d = false := by
  intro d
  have e : (contexts 0 .saving true (Ctx.init 1)).parts.ctx =
      [(48, { Ctx.init 0 with st := .saving, areas := 0x40060000 }), (49, { Ctx.init 1 with areas := 0x40060000 })] := by
    decide +kernel
  have h : ((contexts 0 .saving true (Ctx.init 1)).ctxOf 3 d).st ≠ .saved := by
    rw [State.ctxOf, e]
    by_cases h0 : d = 0
    · subst h0; decide
    · by_cases h1 : d = 1
      · subst h1; decide
      · simp [SMap.get, Ctx.init, h0, show ¬ 49 = 48 + d by omega]
  rw [State.ctxRunnable, show (_ == CtxSt.saved) = false from beq_eq_false_iff_ne.mpr h, Bool.false_and]
theorem hyp_CtxRestoreDone :
    (List.range 16).find? (fun c => ((contexts 0 .restoring true worker).ctxOf 3 c).st == .restoring) = some 0 ∧
    ((contexts 0 .restoring true worker).ctxOf 3 0).written = false ∧
    ((contexts 0 .restoring true worker).ctxOf 3 0).tags = [] := by decide +kernel
theorem test_ctxCreate :
    after (.ctxCreate .pf 3) (contexts 1 .running true (Ctx.init 1)) (fun t => (t.ctxOf 3 1).st == .saved) = true := by
  decide +kernel
theorem test_ctxSuspend :
    after (.ctxSuspend .pf 3) (contexts 0 .running false worker) (fun t => (t.ctxOf 3 0).err == 2) = true := by
  decide +kernel
theorem test_quantumExpiry :
    after (.quantumExpiry 3) (contexts 0 .running true worker) (fun t => (t.ctxOf 3 0).st == .saving) = true := by
  decide +kernel
theorem test_contextYield :
    after (.contextYield 3) (contexts 0 .saved true worker)
      (fun t => (t.ctxOf 3 1).st == .restoring && (t.partOf 3).runCtx == some 1) = true := by decide +kernel
theorem test_ctxRestoreDone :
    after (.ctxRestoreDone 3) (contexts 0 .restoring true worker) (fun t => (t.ctxOf 3 0).st == .running) = true := by
  decide +kernel

end Sys2Proof.Tests
end

