-- ==== Sys2Proof/Tests/Power.lean ====
section
/-! SUPPORT. Witnesses for the statements about sensors, power, clocks, the management block, Sloe, the planner and the
fuses, and small tests of their commands. -/

namespace Sys2Proof.Tests

set_option Elab.async false

open Sys2Proof Sys2Proof.Machine

/-! ## Temperatures and capping (R553, R602) -/

/-- Twenty readings of 110 °C. -/
def hotReadings : List (BitVec 16) := List.replicate 20 880

/-- Sensor 0 has read 110 °C twice over its threshold; sensor 1 has discarded two readings; sensor 2 has failed. -/
def sensed : State :=
  ((ready.setSensor 0 ⟨880, true, 0, false, 2⟩).setSensor 1 ⟨0, true, 2, false, 0⟩).setSensor 2 ⟨0, true, 3, true, 0⟩

theorem hyp_TemperatureSampling :
    sensed.sys.started = true ∧ sensed.pwr.trip = false ∧ hotReadings.length = 20 ∧
    (sensed.sensorOf 2).failed = true ∧ hotReadings[2]? = some 880 := by decide
theorem hyp_TemperaturePlausible :
    (sensed.sensorOf 0).failed = false ∧ hotReadings[0]? = some 880 ∧ (-320 : Int) ≤ (880 : BitVec 16).toInt ∧
    (880 : BitVec 16).toInt ≤ 1200 ∧ ((880 : BitVec 16).toInt - (sensed.sensorOf 0).raw.toInt).natAbs ≤ 160 := by decide
theorem hyp_TemperatureImplausible :
    (sensed.sensorOf 1).failed = false ∧ (sensed.sensorOf 1).valid = true ∧ hotReadings[1]? = some 880 ∧
    ¬ ((880 : BitVec 16).toInt - (sensed.sensorOf 1).raw.toInt).natAbs ≤ 160 := by decide
theorem test_tempTrip :
    after (.tempSample hotReadings) sensed (fun t => t.pwr.trip && (t.sensorOf 1).failed) = true := by decide +kernel

/-- The controller at its bound. -/
def capped : State := { ready with pwr := { ready.pwr with k := 24 } }

theorem hyp_CappingControl : capped.sys.started = true ∧ capped.pwr.trip = false ∧ capped.pwr.k ≤ 24 := by decide
theorem test_capSaturates : after (.capEval 0xFFFF 0 0 []) capped (fun t => t.pwr.k == 24 && t.pwr.sat) = true := by
  decide +kernel
theorem test_capRises : after (.capEval 0xFFFF 0 0 []) ready (fun t => t.pwr.k == 1) = true := by decide +kernel

/-! ## Rails (R593, R595) -/

/-- A pending request for 800 mV made one second ago, with a plan of region 2 waiting for it. -/
def requested : State :=
  let s := readyAt 1000000000
  { s.setRegion 2 { RegionPt.init with railWait := true, pending := some (1500, 800) } with
    pwr := { s.pwr with reqPending := true, req := 800, reqAt := 0 } }

theorem hyp_RailExcursion : (0 : Fin 9).val ≠ 8 := by decide
theorem hyp_RailReturn : { ready with pwr := { ready.pwr with railOk := 0x0FF } }.pwr.railOk.getLsbD (8 : Fin 9).val = false := by
  decide
theorem hyp_ArrayRailSettled :
    requested.pwr.reqPending = true ∧ (((805 : BitVec 10).toNat : Int) - requested.pwr.req.toNat).natAbs ≤ 5 ∧
    5 < (((806 : BitVec 10).toNat : Int) - requested.pwr.req.toNat).natAbs := by decide
theorem hyp_ArrayReqTimeout :
    requested.pwr.reqPending = true ∧ 1000000000 ≤ (requested.sys.time - requested.pwr.reqAt).toNat ∧
    (requested.regionOf (2 : Fin 16).val).railWait = true := by decide
theorem test_railExcursion : after (.railExcursion 1) ready (fun t => t.err.device && t.pwr.railFault == 2) = true := by
  decide +kernel
theorem test_arrayReqTimeout :
    after .arrayReqTimeout requested (fun t => !t.pwr.reqPending && (t.regionOf 2).pending == none) = true := by
  decide +kernel

/-! ## Clocks and the time base (R610–R612, R620) -/

theorem hyp_RefclkLoss : ready.clk.lost.getLsbD (1 : Fin 3).val = false := by decide
theorem hyp_RefclkReturn : { ready with clk := { ready.clk with lost := 2 } }.clk.lost.getLsbD (1 : Fin 3).val = true := by
  decide
theorem test_refclkLoss : after (.refclkLoss 1) ready (fun t => !t.sys.pcieUp && t.clk.lost == 2) = true := by
  decide +kernel

/-- Follow mode, 1 ms after the last accepted edge and 20 ns late, with three small errors behind it. -/
def following : State :=
  let s := (readyAt 2000020).setPr .clk 0 0x40 1
  { s with clk := { s.clk with lastEdge := some 1000020, good := 3 } }

/-- The same, 1.2 ms after the last edge. -/
def followingLate : State := { following with sys := { following.sys with time := 2200020 } }

/-- The same with a time armed. -/
def followingArmed : State := { following with clk := { following.clk with armed := some 5000000 } }

theorem hyp_TickEdges : following.tickMode = 1 ∧ following.sys.started = true ∧ following.clk.armed = none := by decide
theorem hyp_TickTimely : ∀ a, following.clk.lastEdge = some a →
    900000 ≤ (following.sys.time - a).toNat ∧ (following.sys.time - a).toNat ≤ 1100000 := by
  rintro a ⟨⟩
  decide
theorem hyp_TickLate : followingLate.tickMode = 1 ∧ followingLate.clk.lastEdge = some 1000020 ∧
    ¬ (followingLate.sys.time - (1000020 : BitVec 64)).toNat ≤ 1100000 := by decide
theorem hyp_TickArmed : followingArmed.clk.armed = some 5000000 := by decide
theorem test_tickLocks : after .tickInEdge following (fun t => t.clk.locked && t.clk.slew == -20) = true := by
  decide +kernel
theorem test_tickIgnored : after .tickInEdge followingLate (fun t => t.clk.bad == 1 && t.clk.good == 0) = true := by
  decide +kernel

theorem hyp_TickEdgeMissing :
    followingLate.clk.lastEdge = some 1000020 ∧ followingLate.tickMode = 1 ∧
    ((followingLate.clk.missFrom.map (· + 1000000)).getD (1000020 + 1100000)).toNat ≤ followingLate.sys.time.toNat := by
  decide

/-- Source mode at a whole millisecond. -/
def sourcing : State := (readyAt 3000000).setPr .clk 0 0x40 2

theorem hyp_TickSource :
    sourcing.tickMode = 2 ∧ sourcing.sys.started = true ∧ sourcing.sys.time.toNat % 1000000 = 0 := by decide
theorem hyp_TimeSet :
    (∃ x, following.openAt .pf ⟨.clk, 0⟩ 0x48 ((0x100000005 : BitVec 64).extractLsb' 32 32) = .ok x) ∧
    (∀ p, p < 64 → following.configured p = false) ∧ following.sys.stageMode = false :=
  ⟨⟨_, rfl⟩, by decide +kernel, by decide⟩
theorem hyp_TimeSetConfigured :
    (∃ x, (tenant following).openAt .pf ⟨.clk, 0⟩ 0x48 0 = .ok x) ∧ ∃ p, p < 64 ∧ (tenant following).configured p = true :=
  ⟨⟨_, rfl⟩, ⟨3, by decide⟩⟩
theorem test_timeSet :
    after (.timeSet .pf true 0x100000005) sourcing (fun t => t.sys.time == 0x100000005) = true := by decide +kernel

/-! ## The management block (R615–R619, R623–R627) -/

/-- The management block, up, with the address of BOARD_CAP. -/
def managed : State :=
  { sensed with mgmt := { ready.mgmt with addr := 0x1078, pins := 0x0FA } }

theorem hyp_ManagementBus : managed.smbUp = true ∧ managed.mgmt.addr.toNat % 4 = 0 ∧ managed.mgmt.addr = 0x1078 := by
  decide
theorem hyp_SmbWrite : 150 ≤ (150 : Word).toNat ∧ (300 : Word).toNat ≤ 300 := by decide
theorem hyp_SmbReadTemp : hottest (managed.validTemps (List.range 20)) = some 880 := by decide +kernel
theorem hyp_SmbUnknown :
    managed.smbUp = true ∧ (0x13 : BitVec 8) ∉ ([0x10, 0x11, 0x12, 0x20, 0x21, 0x22] : List (BitVec 8)) := by decide
theorem hyp_Sideband : managed.sys.started = true := by decide
theorem hyp_TckEdge : managed.mgmt.pins.getLsbD 3 = true ∧
    { managed with mgmt := { managed.mgmt with tap := { managed.mgmt.tap with st := .drShift } } }.mgmt.tap.st = .drShift := by
  decide
theorem hyp_TckHeld : ready.mgmt.pins.getLsbD 3 = false := by decide
theorem test_smbWrite : after (.smbWrite 150 true) managed (fun t => t.pwr.boardCap == some 150) = true := by
  decide +kernel
theorem test_smbReadTemp : after .smbReadTemp managed (fun t => t.mgmt.data == [0x70, 0x03]) = true := by decide +kernel
theorem test_sideband :
    after (.sidebandPinChange (.stallN 2) false false) managed (fun t => t.que.stallSampled == 4) = true := by
  decide +kernel

/-! ## Sloe, the error ring (R540, R543–R549) -/

/-- Sloe enabled with the patrol, one second after its last row, and one record in the error ring. -/
def walking : State :=
  let s := (readyAt 1000000000).setPr .sloe 0 0x40 0xC0000001
  { s with sloe := { s.sloe with row := 1039 }, err := { s.err with ring := [ErrRec.mk0 1 0 0] } }

theorem hyp_ErrPop : (∃ x, walking.openAt .pf ⟨.err, 0⟩ 0x08 1 = .ok x) ∧ ∃ x, walking.openAt .pf ⟨.err, 0⟩ 0x08 2 = .ok x :=
  ⟨⟨_, rfl⟩, ⟨_, rfl⟩⟩
theorem hyp_SloeRowTest :
    walking.sloeOn = true ∧ walking.sys.phase = 7 ∧ walking.pad.poison = [] ∧
    walking.sloe.last.toNat + ((walking.pr .sloe 0 0x40).extractLsb' 0 16).toNat * 1000000000 ≤ walking.sys.time.toNat := by
  decide
theorem hyp_SloePatrol :
    walking.sloeOn = true ∧ (walking.pr .sloe 0 0x40).getLsbD 30 = true ∧ walking.sys.phase = 7 ∧
    walking.sloe.patrolUnit < 0xBE0000000 / 64 ∧ walking.cel.poison.get false walking.sloe.patrolUnit = false := by
  decide
theorem test_errPop : after (.errPop .pf) walking (fun t => t.err.ring.isEmpty) = true := by decide +kernel
theorem test_sloeRowTest : after (.sloeRowTest none []) walking (fun t => t.sloe.row == 0) = true := by decide +kernel
theorem test_sloePatrol : after (.sloePatrol .bad) walking (fun t => t.err.retired == [0]) = true := by decide +kernel

/-! ## The watchdog, regions and the planner (R19, R551–R560) -/

/-- A held request of that command, as old as the watchdog allows. -/
def heldLong : State :=
  let s := flying 0x40 .running (readyAt (BitVec.ofNat 64 ready.wdogNs))
  { s with pad := { s.pad with held := [⟨⟨.part 3, some cmdRef, 6, 0x20000⟩, .read 4, 0⟩] } }

theorem hyp_TransactionWatchdog :
    heldLong.pad.held[0]? = some ⟨⟨.part 3, some cmdRef, 6, 0x20000⟩, .read 4, 0⟩ ∧
    (0 : BitVec 64).toNat + heldLong.wdogNs ≤ heldLong.sys.time.toNat ∧
    (heldLong.flight? cmdRef).map (fun f => f.st.ended) = some false ∧ heldLong.err.expiries = [] := by decide +kernel
theorem test_transactionWatchdog :
    after (.transactionWatchdog (.held 0)) heldLong (fun t => t.pad.held.isEmpty) = true := by decide +kernel

/-- Region 2 due for a plan, with a measured slack of 150 ps at 1,400 MHz. -/
def planning : State :=
  ready.setRegion 2 { RegionPt.init with due := true, slack := 150, atMhz := 1400, atMv := 800 }

theorem hyp_Replan :
    planning.sys.phase = 7 ∧ (planning.regionOf (2 : Fin 16).val).due = true ∧
    (planning.planPoint { planning.regionOf 2 with due := false, planAt := planning.sys.time, kv := 0, guardPs := 0 }
      0 0).isSome = true := by decide +kernel
theorem hyp_RegionFreqApply :
    (planning.setRegion 2 { RegionPt.init with pending := some (1400, 750) }).sys.stageMode = false ∧
    (planning.setRegion 2 { RegionPt.init with pending := some (1400, 750) }).regionAtSteps (2 : Fin 16).val = true ∧
    ((planning.setRegion 2 { RegionPt.init with pending := some (1400, 750) }).regionOf 2).pending = some (1400, 750) ∧
    ((planning.setRegion 2 { RegionPt.init with pending := some (1400, 750) }).regionOf 2).railWait = false := by
  decide +kernel
theorem hyp_RegionFreqApplyStage : staged.sys.stageMode = true ∧ staged.stg.st = 1 := by decide +kernel
theorem hyp_CanaryMeasure :
    ready.sys.phase = 7 ∧ (∀ k, (ready.regionOf (2 : Fin 16).val).discards.get 0 k = 0) ∧
    min (min (49 : Nat) 60) (min 60 60) < ready.fuse.floorPs.toNat ∧
    ready.fuse.floorPs.toNat ≤ 2 * min (min (49 : Nat) 60) (min 60 60) := by
  refine ⟨by decide, fun k => rfl, by decide, by decide⟩
theorem test_canaryAlarm :
    after (.canaryMeasure 2 [some 49, some 60, some 60, some 60] (List.replicate 8 none)) ready
      (fun t => (t.regionOf 5).due && t.pr .age 0 0x54 == 1) = true := by decide +kernel
theorem test_replan :
    after (.replan 2 0 0) planning (fun t => !(t.regionOf 2).due) = true := by decide +kernel

/-! ## Fuses (R561–R563) -/

/-- A floor lowering, being blown. -/
def lowering : State :=
  { ready with fuse := { Fuse.reset with op := some (2, 0), audit := [⟨0, 2, 1, 0, 0, 0, 1, 0⟩] } }

theorem hyp_FuseOperation : lowering.fuse.op = some (2, 0) := by decide
theorem test_fuseLowered :
    after (.fuseBlowDone true) lowering (fun t => t.fuse.floorPs == 45 && t.fuse.audit.map (·.state) == [2]) = true := by
  decide +kernel
theorem test_fuseFailed :
    after (.fuseBlowDone false) lowering (fun t => t.fuse.floorPs == 50 && t.fuse.audit.map (·.state) == [3]) = true := by
  decide +kernel

end Sys2Proof.Tests
end

section

/-! ## The tenancy lock (R37, O6)

`LockInv` and the tenancy lock speak of four fields of the system controller: `Sys.lockView` is the four together.
Almost every function of the model leaves them as they were. The lemma `f_lockView` says so of the function `f`, once, in the
order and under the names of the model's files; a caller's lemma cites its callees' through `simp` and unfolds none of
them. Twelve commands may change one of the four. COLD_RESET alone may clear the lock; what each of the other eleven may
do is `LockStep`, below the frame lemmas. -/

namespace Sys2Proof.Machine

/-- The fields that `LockInv` speaks of: the device has started, the phase, the warm reset in progress, the lock. -/
def Sys.lockView (x : Sys) : Bool × BitVec 4 × Option WarmState × Bool :=
  (x.started, x.phase, x.warm, x.tenancyLock)

/-- The other fields of the system controller are not looked at. -/
@[simp] theorem Sys.lockView_frame (x : Sys) (e : BitVec 4) (sm ib cc : Bool) (bm : BitVec 2) (si : BitVec 6)
    (lr : BitVec 2) (fl sd : Bool) (wi : Nat) (ti : BitVec 64) (iv cr wr : Word) (dk ph pu : Bool) (fc : Nat) :
    (Sys.mk x.started x.phase e sm ib cc bm si lr fl sd x.warm wi ti iv cr wr x.tenancyLock dk ph pu fc).lockView =
      x.lockView := rfl

/-- The updates of a fold, and the continuation of a started record, that leave `lockView` as it was. -/
def KeepsView {α : Type} (f : State → α → State) : Prop := ∀ s a, (f s a).sys.lockView = s.sys.lockView

@[simp] theorem keepsView_iff {α : Type} (f : State → α → State) :
    KeepsView f ↔ ∀ s a, (f s a).sys.lockView = s.sys.lockView := Iff.rfl

@[simp] theorem foldl_lockView {α : Type} {f : State → α → State} (h : KeepsView f) (l : List α) (s : State) :
    (l.foldl f s).sys.lockView = s.sys.lockView := by
  induction l generalizing s with
  | nil => rfl
  | cons a l ih => rw [List.foldl_cons, ih, h]

@[simp] theorem ite_lockView {c : Prop} [Decidable c] (s t : State) :
    (if c then s else t).sys.lockView = if c then s.sys.lockView else t.sys.lockView := by split <;> rfl

/-- A write that may be refused, and what is done then. -/
theorem getD_lockView {o : Option State} {s d : State} (ho : ∀ t, o = some t → t.sys.lockView = s.sys.lockView)
    (hd : d.sys.lockView = s.sys.lockView) : (o.getD d).sys.lockView = s.sys.lockView := by
  cases o with
  | none => exact hd
  | some t => exact ho t rfl

/-- A fold of steps each of which may be refused. -/
theorem foldl_some_lockView {α : Type} {f : Option State → α → Option State} {s t : State}
    (hf : ∀ o a u, f o a = some u → ∃ r, o = some r ∧ u.sys.lockView = r.sys.lockView) {l : List α}
    {o : Option State} (ho : ∀ u, o = some u → u.sys.lockView = s.sys.lockView) (h : l.foldl f o = some t) :
    t.sys.lockView = s.sys.lockView := by
  induction l generalizing o with
  | nil => exact ho t h
  | cons a l ih =>
    refine ih (fun u hu => ?_) h
    obtain ⟨r, hr, hur⟩ := hf o a u hu
    rw [hur, ho r hr]

@[simp] theorem onward_next (s t : State) : onward s (.next t) = t := rfl

@[simp] theorem onward_ite {c : Prop} [Decidable c] (s : State) (a b : Out) :
    onward s (if c then a else b) = if c then onward s a else onward s b := by split <;> rfl

end Sys2Proof.Machine

end

section

/-! ## What each function leaves of `lockView` -/

namespace Sys2Proof.Machine

/-! ### `Machine/Ops` -/

@[simp] theorem State.free_lockView (s : State) : (s.free).2.sys.lockView = s.sys.lockView := rfl

@[simp] theorem State.sendMsix_lockView (s : State) (f : Nat) (v : BitVec 11) :
    (s.sendMsix f v).sys.lockView = s.sys.lockView := by simp [State.sendMsix]

@[simp] theorem State.announce_lockView (s : State) (p : PageId) (rising enabled : Word) :
    (s.announce p rising enabled).sys.lockView = s.sys.lockView := by simp [State.announce]

@[simp] theorem State.raise_lockView (s : State) (k : PageKind) (i : Nat) (bits : Word) :
    (s.raise k i bits).sys.lockView = s.sys.lockView := by simp [State.raise]

@[simp] theorem State.ckptWarn_lockView (s : State) (bit : Nat) (on : Bool) :
    (s.ckptWarn bit on).sys.lockView = s.sys.lockView := by simp [State.ckptWarn]

@[simp] theorem State.record_lockView (s : State) (r : ErrRec) : (s.record r).sys.lockView = s.sys.lockView := by
  rw [(Logs.record s r).sys]

@[simp] theorem State.rejectAt_lockView (s : State) (f : Fn) (p : PageId) (at_ loc : Nat) (reason : BitVec 3) :
    (s.rejectAt f p at_ loc reason).sys.lockView = s.sys.lockView := by simp [State.rejectAt]

@[simp] theorem State.reject_lockView (s : State) (f : Fn) (p : PageId) (off : Nat) (reason : BitVec 3) :
    (s.reject f p off reason).sys.lockView = s.sys.lockView := by simp [State.reject]

@[simp] theorem State.applyClears_lockView (s : State) (p : Nat) : (s.applyClears p).sys.lockView = s.sys.lockView := by
  unfold State.applyClears
  dsimp only
  split
  · rfl
  · rw [State.setPart_sys, foldl_lockView, foldl_lockView]
    · simp
    · intro t b
      dsimp only
      split <;> simp

/-! ### `Machine/Bus` -/

@[simp] theorem State.applyStaged_lockView (s : State) (p : PageId) (g : Nat) :
    (s.applyStaged p g).sys.lockView = s.sys.lockView := foldl_lockView (fun s k => by split <;> simp) _ s

@[simp] theorem State.settleGroup_lockView (s : State) (p : PageId) (g : Nat) (ok : Bool) :
    (s.settleGroup p g ok).sys.lockView = s.sys.lockView := by simp [State.settleGroup]

@[simp] theorem State.safePoint_lockView (s : State) (p : PageId) (g : Nat) :
    (s.safePoint p g).sys.lockView = s.sys.lockView := by simp [State.safePoint]

@[simp] theorem State.safePoints_lockView (s : State) (p : PageId) :
    (s.safePoints p).sys.lockView = s.sys.lockView := by simp [State.safePoints]

theorem State.openWrite_error_lockView {s : State} {f : Fn} {offset size : Nat} {v : Word} {t : State}
    (h : s.openWrite f offset size v = .error t) :
    t.sys.lockView = s.sys.lockView := by
  unfold State.openWrite at h
  grind [State.rejectAt_lockView, State.reject_lockView]

theorem State.openAt_error_lockView {s : State} {f : Fn} {p : PageId} {off : Nat} {v : Word} {t : State}
    (h : s.openAt f p off v = .error t) :
    t.sys.lockView = s.sys.lockView := by
  unfold State.openAt at h
  grind [State.rejectAt_lockView, State.reject_lockView]

@[simp] theorem State.stageWrite_lockView (s : State) (f : Fn) (t : Target) (v : Word) :
    (s.stageWrite f t v).sys.lockView = s.sys.lockView := by simp [State.stageWrite]

@[simp] theorem State.writeOneClear_lockView (s : State) (t : Target) (v : Word) :
    (s.writeOneClear t v).sys.lockView = s.sys.lockView := rfl

@[simp] theorem State.rejectState_lockView (s : State) (f : Fn) (t : Target) :
    (s.rejectState f t).sys.lockView = s.sys.lockView := by simp [State.rejectState]

/-! ### `Machine/Mem` -/

@[simp] theorem State.padWrite_lockView (s : State) (a : Nat) (data : List Byte) :
    (s.padWrite a data).sys.lockView = s.sys.lockView := rfl

@[simp] theorem State.countRows_lockView (s : State) (p : Option Nat) (a n : Nat) (wr : Bool) :
    (s.countRows p a n wr).sys.lockView = s.sys.lockView := by
  unfold State.countRows
  dsimp only
  split <;> simp

@[simp] theorem State.decideRow_lockView (s : State) (bank row : Nat) (zero : Bool) :
    (s.decideRow bank row zero).sys.lockView = s.sys.lockView := rfl

@[simp] theorem State.track_lockView (s : State) (bank row n : Nat) :
    (s.track bank row n).sys.lockView = s.sys.lockView := by simp [State.track]

@[simp] theorem State.foundUe_lockView (s : State) (a : Nat) :
    (s.foundUe a).sys.lockView = s.sys.lockView := by simp [State.foundUe]

@[simp] theorem State.notePoison_lockView (s : State) (a n : Nat) :
    (s.notePoison a n).sys.lockView = s.sys.lockView := by simp [State.notePoison]

@[simp] theorem State.bankWrite_lockView (s : State) (a : Nat) (data : List Byte) :
    (s.bankWrite a data).sys.lockView = s.sys.lockView := by simp [State.bankWrite]

@[simp] theorem State.celWrite_lockView (s : State) (key off : Nat) (data : List Byte) :
    (s.celWrite key off data).sys.lockView = s.sys.lockView := by simp [State.celWrite]

@[simp] theorem State.scrubPage_lockView (s : State) (key ppn : Nat) :
    (s.scrubPage key ppn).sys.lockView = s.sys.lockView := rfl

@[simp] theorem State.markDirty_lockView (s : State) (p v : Nat) :
    (s.markDirty p v).sys.lockView = s.sys.lockView := rfl

@[simp] theorem State.viewWrite_lockView (s : State) (p v : Nat) (data : List Byte) :
    (s.viewWrite p v data).sys.lockView = s.sys.lockView := by
  unfold State.viewWrite
  generalize pagePieces v data.length (data.length / 0x200000 + 2) = l
  induction l generalizing s data with
  | nil => rfl
  | cons piece l ih =>
    rw [List.foldl_cons]
    dsimp only
    split <;> simp [ih]

@[simp] theorem State.scopeRefuse_lockView (s : State) :
    (s.scopeRefuse).sys.lockView = s.sys.lockView := by simp [State.scopeRefuse]

@[simp] theorem State.scopeNote_lockView (s : State) (p a n : Nat) :
    (s.scopeNote p a n).sys.lockView = s.sys.lockView := by simp [State.scopeNote]

@[simp] theorem State.openPad_lockView (s : State) (p a n : Nat) :
    (s.openPad p a n).sys.lockView = s.sys.lockView := rfl

@[simp] theorem State.openDev_lockView (s : State) (p a n : Nat) : (s.openDev p a n).sys.lockView = s.sys.lockView := by
  unfold State.openDev
  split <;> simp

@[simp] theorem State.openOutputs_lockView (s : State) (p : Nat) (rs : List (Nat × Nat)) :
    (s.openOutputs p rs).sys.lockView = s.sys.lockView := by simp [State.openOutputs]

/-! ### `Machine/Queue` -/

@[simp] theorem State.queCount_lockView (s : State) (q : QInst) (off n : Nat) :
    (s.queCount q off n).sys.lockView = s.sys.lockView := by
  unfold State.queCount
  split <;> simp

@[simp] theorem State.updateStall_lockView (s : State) :
    (s.updateStall).sys.lockView = s.sys.lockView := by simp [State.updateStall]

@[simp] theorem State.evalWm_lockView (s : State) (q : QInst) : (s.evalWm q).sys.lockView = s.sys.lockView := by
  unfold State.evalWm
  split <;> simp

@[simp] theorem State.queWrite_lockView (s : State) (q : QInst) (data : List Byte) (eoi poison : Bool) :
    (s.queWrite q data eoi poison).sys.lockView = s.sys.lockView := by simp [State.queWrite]

@[simp] theorem State.queRead_lockView (s : State) (q : QInst) : (s.queRead q).sys.lockView = s.sys.lockView := by
  unfold State.queRead
  dsimp only
  repeat' split
  all_goals simp

@[simp] theorem State.queReset_lockView (s : State) (q : QInst) :
    (s.queReset q).sys.lockView = s.sys.lockView := by simp [State.queReset]

@[simp] theorem State.queFlush_lockView (s : State) (q : QInst) :
    (s.queFlush q).sys.lockView = s.sys.lockView := by simp [State.queFlush]

@[simp] theorem State.queRelease_lockView (s : State) (q : QInst) (n : Nat) :
    (s.queRelease q n).sys.lockView = s.sys.lockView := by simp [State.queRelease]

@[simp] theorem State.queClear_lockView (s : State) (q : QInst) : (s.queClear q).sys.lockView = s.sys.lockView := by
  unfold State.queClear
  split <;> simp

@[simp] theorem execQueueWrite_lockView (q : QInst) (data : List Byte) (eoi : Bool) (s : State) :
    (onward s (execQueueWrite q data eoi s)).sys.lockView = s.sys.lockView := by simp [execQueueWrite]

@[simp] theorem execQueueRead_lockView (q : QInst) (s : State) :
    (onward s (execQueueRead q s)).sys.lockView = s.sys.lockView := by simp [execQueueRead]

@[simp] theorem execQueueFlush_lockView (f : Fn) (q : QInst) (v : Word) (s : State) :
    (onward s (execQueueFlush f q v s)).sys.lockView = s.sys.lockView := by
  unfold execQueueFlush
  split
  · simp
  · split
    · next h => simp [State.openAt_error_lockView h]
    · simp

@[simp] theorem execStallNHoldExpiry_lockView (_n : Fin 4) (s : State) :
    (onward s (execStallNHoldExpiry _n s)).sys.lockView = s.sys.lockView := by simp [execStallNHoldExpiry]

/-! ### `Machine/Flight` -/

@[simp] theorem State.failFlight_lockView (s : State) (r : RecRef) (f : FaultInfo) :
    (s.failFlight r f).sys.lockView = s.sys.lockView := by
  unfold State.failFlight
  split <;> simp

@[simp] theorem State.failFlightAt_lockView (s : State) (r : RecRef) (f : FaultInfo) (a : Option (BitVec 64)) :
    (s.failFlightAt r f a).sys.lockView = s.sys.lockView := by
  unfold State.failFlightAt
  split <;> simp

@[simp] theorem State.failReq_lockView (s : State) (r : Option RecRef) (cause : BitVec 16) (a : BitVec 64) :
    (s.failReq r cause a).sys.lockView = s.sys.lockView := by
  unfold State.failReq
  split <;> simp

@[simp] theorem State.endFlight_lockView (s : State) (r : RecRef) (ok : Bool) :
    (s.endFlight r ok).sys.lockView = s.sys.lockView := by
  unfold State.endFlight
  split <;> simp

/-! ### `Machine/Sync` -/

@[simp] theorem State.quietRestart_lockView (s : State) (p : Nat) :
    (s.quietRestart p).sys.lockView = s.sys.lockView := rfl

@[simp] theorem State.ingestRelease_lockView (s : State) (p n : Nat) :
    (s.ingestRelease p n).sys.lockView = s.sys.lockView := by
  induction n generalizing s with
  | zero => rfl
  | succ n ih =>
    unfold State.ingestRelease
    dsimp only
    split
    · split <;> simp [ih]
    · rfl

@[simp] theorem State.releaseWait_lockView (s : State) (w : Wait) :
    (s.releaseWait w).sys.lockView = s.sys.lockView := by simp [State.releaseWait]

@[simp] theorem State.testWaits_lockView (s : State) (c n : Nat) :
    (s.testWaits c n).sys.lockView = s.sys.lockView := by simp [State.testWaits]

@[simp] theorem State.failWait_lockView (s : State) (w : Wait) (cause : BitVec 16) :
    (s.failWait w cause).sys.lockView = s.sys.lockView := by simp [State.failWait]

@[simp] theorem State.timeoutWait_lockView (s : State) (w : Wait) :
    (s.timeoutWait w).sys.lockView = s.sys.lockView := by simp [State.timeoutWait]

@[simp] theorem State.timeoutScan_lockView (s : State) (c : Nat) :
    (s.timeoutScan c).sys.lockView = s.sys.lockView := by simp [State.timeoutScan]

@[simp] theorem State.registerWait_lockView (s : State) (w : Wait) :
    (s.registerWait w).sys.lockView = s.sys.lockView := by simp [State.registerWait]

@[simp] theorem State.addCount_lockView (s : State) (p c n : Nat) (amount : BitVec 16) :
    (s.addCount p c n amount).sys.lockView = s.sys.lockView := by
  unfold State.addCount
  dsimp only
  repeat' split
  all_goals simp

@[simp] theorem State.setCounter_lockView (s : State) (p c n : Nat) (v : BitVec 32) :
    (s.setCounter p c n v).sys.lockView = s.sys.lockView := by simp [State.setCounter]

@[simp] theorem State.applyMsg_lockView (s : State) (c : Nat) (x : SyncMsg) :
    (s.applyMsg c x).sys.lockView = s.sys.lockView := by
  unfold State.applyMsg
  repeat' split
  all_goals simp

@[simp] theorem State.applyMsgs_lockView (s : State) (c : Nat) (ms : List SyncMsg) :
    (s.applyMsgs c ms).sys.lockView = s.sys.lockView := by
  unfold State.applyMsgs
  dsimp only
  split <;> simp

@[simp] theorem State.sendSync_lockView (s : State) (c : Nat) (m : SyncMsg) :
    (s.sendSync c m).sys.lockView = s.sys.lockView := rfl

@[simp] theorem State.directSignal_lockView (s : State) (p vid : Nat) (amount : BitVec 16) :
    (s.directSignal p vid amount).sys.lockView = s.sys.lockView := by
  unfold State.directSignal
  split <;> simp

@[simp] theorem State.preWait_lockView (s : State) (r : RecRef) : (s.preWait r).1.sys.lockView = s.sys.lockView := by
  unfold State.preWait
  repeat' split
  all_goals simp

theorem State.preWait_fst_lockView {s : State} {r : RecRef} {t : State} {o : Bool} (h : s.preWait r = (t, o)) :
    t.sys.lockView = s.sys.lockView := by
  have := State.preWait_lockView s r
  rwa [h] at this

@[simp] theorem State.start_lockView {k : LRec → State → State} (hk : KeepsView fun s l => k l s) (s : State)
    (r : RecRef) (op : BitVec 8) :
    (s.start r op k).sys.lockView = s.sys.lockView := by
  unfold State.start
  split
  · rfl
  · split
    · rfl
    · split
      next h => simp [hk _ _, State.preWait_fst_lockView h]

@[simp] theorem execSignal_lockView (r : RecRef) (s : State) :
    (onward s (execSignal r s)).sys.lockView = s.sys.lockView := by
  unfold execSignal
  rw [onward_next]
  refine State.start_lockView (fun t l => ?_) s r _
  dsimp only
  repeat' split
  all_goals simp

@[simp] theorem execWait_lockView (r : RecRef) (s : State) :
    (onward s (execWait r s)).sys.lockView = s.sys.lockView := by
  unfold execWait
  rw [onward_next]
  refine State.start_lockView (fun t l => ?_) s r _
  dsimp only
  split <;> simp

@[simp] theorem execSet_lockView (r : RecRef) (s : State) : (onward s (execSet r s)).sys.lockView = s.sys.lockView := by
  unfold execSet
  rw [onward_next]
  refine State.start_lockView (fun t l => ?_) s r _
  dsimp only
  repeat' split
  all_goals simp

@[simp] theorem execArrivalIncrement_lockView (id : Nat) (s : State) :
    (onward s (execArrivalIncrement id s)).sys.lockView = s.sys.lockView := by
  unfold execArrivalIncrement
  split <;> simp

@[simp] theorem execSyncAddApply_lockView (c : Fin 64) (s : State) :
    (onward s (execSyncAddApply c s)).sys.lockView = s.sys.lockView := by
  unfold execSyncAddApply
  split <;> simp

@[simp] theorem execWaitBusyRetry_lockView (r : RecRef) (s : State) :
    (onward s (execWaitBusyRetry r s)).sys.lockView = s.sys.lockView := by
  unfold execWaitBusyRetry
  split <;> simp

@[simp] theorem execWaitTimeout_lockView (r : RecRef) (s : State) :
    (onward s (execWaitTimeout r s)).sys.lockView = s.sys.lockView := by
  unfold execWaitTimeout
  split <;> simp

@[simp] theorem execSyncSignal_lockView (f : Fn) (p : Fin 64) (v : Word) (s : State) :
    (onward s (execSyncSignal f p v s)).sys.lockView = s.sys.lockView := by
  unfold execSyncSignal
  split
  · next h => simp [State.openAt_error_lockView h]
  · simp

@[simp] theorem execVmapWrite_lockView (f : Fn) (p : Fin 64) (v : Word) (s : State) :
    (onward s (execVmapWrite f p v s)).sys.lockView = s.sys.lockView := by
  unfold execVmapWrite
  split
  · next h => simp [State.openAt_error_lockView h]
  · simp

@[simp] theorem execBrambleWindow_lockView (p : Fin 64) (s : State) :
    (onward s (execBrambleWindow p s)).sys.lockView = s.sys.lockView := by simp [execBrambleWindow]

/-! ### `Machine/Front` -/

theorem State.partWrite_lockView {s : State} {p : Nat} {kind : BitVec 2} {addr : Nat} {data : List Byte} {t : State}
    (h : s.partWrite p kind addr data = some t) :
    t.sys.lockView = s.sys.lockView := by
  unfold State.partWrite at h
  grind [State.bankWrite_lockView, State.countRows_lockView, State.viewWrite_lockView, State.emit_sys]

@[simp] theorem State.partWrite_getD_lockView (s : State) (p : Nat) (acc : BitVec 2) (a : Nat) (data : List Byte)
    {d : State} (hd : d.sys.lockView = s.sys.lockView) :
    ((s.partWrite p acc a data).getD d).sys.lockView = s.sys.lockView :=
  getD_lockView (fun _ => State.partWrite_lockView) hd

theorem State.handleWrite_lockView {s : State} {p h off : Nat} {data : List Byte} {t : State}
    (h : s.handleWrite p h off data = some t) :
    t.sys.lockView = s.sys.lockView := by
  unfold State.handleWrite at h
  grind [State.partWrite_lockView]

@[simp] theorem State.handleWrite_getD_lockView (s : State) (p h off : Nat) (data : List Byte) {d : State}
    (hd : d.sys.lockView = s.sys.lockView) :
    ((s.handleWrite p h off data).getD d).sys.lockView = s.sys.lockView :=
  getD_lockView (fun _ => State.handleWrite_lockView) hd

@[simp] theorem State.handleNote_lockView (s : State) (p h off n : Nat) :
    (s.handleNote p h off n).sys.lockView = s.sys.lockView := by simp [State.handleNote]

@[simp] theorem State.charge_lockView (s : State) (p r n : Nat) :
    (s.charge p r n).sys.lockView = s.sys.lockView := by simp [State.charge]

@[simp] theorem State.writeCompletion_lockView (s : State) (p q : Nat) (tag : BitVec 32) (status : BitVec 8)
    (irq : Bool) :
    (s.writeCompletion p q tag status irq).sys.lockView = s.sys.lockView := by
  unfold State.writeCompletion
  dsimp only
  split <;> simp

@[simp] theorem State.tryCompletions_lockView (s : State) (p q n : Nat) :
    (s.tryCompletions p q n).sys.lockView = s.sys.lockView := by
  induction n generalizing s with
  | zero => rfl
  | succ n ih =>
    simp only [State.tryCompletions]
    repeat' split
    all_goals simp [ih]

@[simp] theorem State.completions_lockView (s : State) (p q : Nat) :
    (s.completions p q).sys.lockView = s.sys.lockView := by simp [State.completions]

@[simp] theorem State.useRec_lockView (s : State) (r : LRec) (up : Bool) :
    (s.useRec r up).sys.lockView = s.sys.lockView := foldl_lockView (fun s o => by split <;> simp) _ s

@[simp] theorem State.dropHalves_lockView (s : State) (p : Nat) (sel : LRec → Bool) :
    (s.dropHalves p sel).sys.lockView = s.sys.lockView := by simp [State.dropHalves]

@[simp] theorem State.abortEngines_lockView (s : State) (sel : RecRef → Bool) :
    (s.abortEngines sel).sys.lockView = s.sys.lockView := rfl

@[simp] theorem State.abortSaved_lockView (s : State) (sel : RecRef → Bool) :
    (s.abortSaved sel).sys.lockView = s.sys.lockView := by simp [State.abortSaved]

@[simp] theorem State.abortFlights_lockView (s : State) (sel : RecRef → Bool) :
    (s.abortFlights sel).sys.lockView = s.sys.lockView := by simp [State.abortFlights]

@[simp] theorem State.setFaultArea_lockView (s : State) (p : Nat) (a : FaultArea) :
    (s.setFaultArea p a).sys.lockView = s.sys.lockView := rfl

@[simp] theorem State.faultHeader_lockView (s : State) (p : Nat) :
    (s.faultHeader p).sys.lockView = s.sys.lockView := by simp [State.faultHeader]

@[simp] theorem State.faultLost_lockView (s : State) (p : Nat) : (s.faultLost p).sys.lockView = s.sys.lockView := rfl

@[simp] theorem State.writeFault_lockView (s : State) (p : Nat) (data : List Byte) :
    (s.writeFault p data).sys.lockView = s.sys.lockView := by
  unfold State.writeFault
  dsimp only
  repeat' split
  · rfl
  · simp
  · next h => simp [State.handleWrite_lockView h]
  · simp

@[simp] theorem State.finishZombie_lockView (s : State) (p q : Nat) :
    (s.finishZombie p q).sys.lockView = s.sys.lockView := by simp [State.finishZombie]

@[simp] theorem State.stopQueue_lockView (s : State) (p q : Nat) (num : BitVec 17) :
    (s.stopQueue p q num).sys.lockView = s.sys.lockView := by simp [State.stopQueue]

@[simp] theorem State.jobCause_lockView (s : State) (cause : BitVec 8) (mb : BitVec 12) (flood : Bool) :
    (s.jobCause cause mb flood).sys.lockView = s.sys.lockView := by simp [State.jobCause]

@[simp] theorem State.takeFault_lockView (s : State) (l : LRec) (f : FaultInfo) :
    (s.takeFault l f).sys.lockView = s.sys.lockView := by simp [State.takeFault]

@[simp] theorem State.unitFault_lockView (s : State) (p : Nat) (cause : BitVec 16) (offset : Nat) :
    (s.unitFault p cause offset).sys.lockView = s.sys.lockView := by simp [State.unitFault]

@[simp] theorem State.deviceFault_lockView (s : State) (cause : BitVec 16) :
    (s.deviceFault cause).sys.lockView = s.sys.lockView := by simp [State.deviceFault]

@[simp] theorem State.retirePage_lockView (s : State) (ppn : Nat) :
    (s.retirePage ppn).sys.lockView = s.sys.lockView := by simp [State.retirePage]

@[simp] theorem State.celUe_lockView (s : State) (off : Nat) :
    (s.celUe off).sys.lockView = s.sys.lockView := by simp [State.celUe]

@[simp] theorem State.noteCel_lockView (s : State) (off n : Nat) :
    (s.noteCel off n).sys.lockView = s.sys.lockView := by simp [State.noteCel]

@[simp] theorem State.noteView_lockView (s : State) (p v n : Nat) :
    (s.noteView p v n).sys.lockView = s.sys.lockView := foldl_lockView (fun s piece => by split <;> simp) _ s

@[simp] theorem State.wakeFor_lockView (s : State) (l : LRec) : (s.wakeFor l).sys.lockView = s.sys.lockView := by
  refine foldl_lockView (fun s o => ?_) _ s
  split
  · split
    · refine foldl_lockView (fun t i => ?_) _ _
      dsimp only
      split <;> rfl
    · rfl
  · rfl

@[simp] theorem State.takeHead_lockView (s : State) (slot : Nat) (half : Bool) (l : LRec) (st : FlightSt) :
    (s.takeHead slot half l st).sys.lockView = s.sys.lockView := by simp [State.takeHead]

@[simp] theorem execDispatchRecord_lockView (p : Fin 65) (hot half : Bool) (s : State) :
    (onward s (execDispatchRecord p hot half s)).sys.lockView = s.sys.lockView := by
  unfold execDispatchRecord
  dsimp only
  repeat' split
  all_goals simp

@[simp] theorem State.closeFlight_lockView (s : State) (l : LRec) :
    (s.closeFlight l).sys.lockView = s.sys.lockView := by simp [State.closeFlight]

@[simp] theorem execRecordComplete_lockView (r : RecRef) (s : State) :
    (onward s (execRecordComplete r s)).sys.lockView = s.sys.lockView := by
  unfold execRecordComplete
  repeat' split
  all_goals simp

@[simp] theorem execCommandFault_lockView (r : RecRef) (s : State) :
    (onward s (execCommandFault r s)).sys.lockView = s.sys.lockView := by
  unfold execCommandFault
  repeat' split
  all_goals simp

@[simp] theorem execNop_lockView (r : RecRef) (s : State) :
    (onward s (execNop r s)).sys.lockView = s.sys.lockView := by simp [execNop]

@[simp] theorem execTimestamp_lockView (r : RecRef) (s : State) :
    (onward s (execTimestamp r s)).sys.lockView = s.sys.lockView := by
  unfold execTimestamp
  rw [onward_next]
  refine State.start_lockView (fun t l => ?_) s r _
  dsimp only
  split
  · split
    · next h => simp [State.partWrite_lockView h]
    · split <;> simp
  · simp

@[simp] theorem execSelfSubmit_lockView (r : RecRef) (s : State) :
    (onward s (execSelfSubmit r s)).sys.lockView = s.sys.lockView := by
  unfold execSelfSubmit
  rw [onward_next]
  refine State.start_lockView (fun t l => ?_) s r _
  dsimp only
  split
  · rw [State.record_lockView, State.endFlight_lockView]
  · split
    · simp
    · split
      · simp
      · split
        · next h => simp [State.handleWrite_lockView h]
        · simp

@[simp] theorem execDoorbell_lockView (f : Fn) (p : Fin 65) (q : Fin 16) (v : Word) (s : State) :
    (onward s (execDoorbell f p q v s)).sys.lockView = s.sys.lockView := by
  unfold execDoorbell
  split
  · next h => simp [State.openAt_error_lockView h]
  · simp

theorem State.openCtrl_error_lockView {s : State} {f : Fn} {p : Fin 65} {q : Fin 16} {cmd : Word} {t : State}
    (h : s.openCtrl f p q cmd = .error t) :
    t.sys.lockView = s.sys.lockView := State.openAt_error_lockView h

@[simp] theorem State.refuseQueue_lockView (s : State) (f : Fn) (t : Target) (p q : Nat) (err : BitVec 4) :
    (s.refuseQueue f t p q err).sys.lockView = s.sys.lockView := by simp [State.refuseQueue]

@[simp] theorem execQueueCreate_lockView (f : Fn) (p : Fin 65) (q : Fin 16) (s : State) :
    (onward s (execQueueCreate f p q s)).sys.lockView = s.sys.lockView := by
  unfold execQueueCreate
  split
  · next h => simp [State.openCtrl_error_lockView h]
  · split <;> simp

@[simp] theorem State.destroyQueue_lockView (s : State) (p q : Nat) :
    (s.destroyQueue p q).sys.lockView = s.sys.lockView := by
  unfold State.destroyQueue
  dsimp only
  split <;> simp

@[simp] theorem execQueueDestroy_lockView (f : Fn) (p : Fin 65) (q : Fin 16) (s : State) :
    (onward s (execQueueDestroy f p q s)).sys.lockView = s.sys.lockView := by
  unfold execQueueDestroy
  split
  · next h => simp [State.openCtrl_error_lockView h]
  · simp

@[simp] theorem execQueueResume_lockView (f : Fn) (p : Fin 65) (q : Fin 16) (s : State) :
    (onward s (execQueueResume f p q s)).sys.lockView = s.sys.lockView := by
  unfold execQueueResume
  split
  · next h => simp [State.openCtrl_error_lockView h]
  · simp

@[simp] theorem execHalfRelease_lockView (p : Fin 65) (hot : Bool) (s : State) :
    (onward s (execHalfRelease p hot s)).sys.lockView = s.sys.lockView := by
  unfold execHalfRelease
  dsimp only
  split <;> simp

/-! ### `Machine/Tensor` -/

@[simp] theorem State.padPut_lockView (s : State) (addr bit w : Nat) (vals : List Nat) :
    (s.padPut addr bit w vals).sys.lockView = s.sys.lockView := by simp [State.padPut]

/-! ### `Machine/Epilogue` -/

@[simp] theorem State.commitShadow_lockView (s : State) (c : Nat) (tile : Option Nat) (x : Shadow) :
    (s.commitShadow c tile x).sys.lockView = s.sys.lockView := by
  unfold State.commitShadow
  dsimp only
  repeat' split
  all_goals simp

@[simp] theorem State.vecCount_lockView (s : State) (c cost epi rand : Nat) :
    (s.vecCount c cost epi rand).sys.lockView = s.sys.lockView := by simp [State.vecCount]

@[simp] theorem State.epiCount_lockView (s : State) (l : LRec) (c q n : Nat) :
    (s.epiCount l c q n).sys.lockView = s.sys.lockView := by simp [State.epiCount]

@[simp] theorem State.putRow_lockView (s : State) (l : LRec) (region o m n0 : Nat) (vals : List Conv) :
    (s.putRow l region o m n0 vals).sys.lockView = s.sys.lockView := by simp [State.putRow]

@[simp] theorem State.finishPiece_lockView (s : State) (l : LRec) (o m n0 : Nat) (accs : List (BitVec 64)) :
    (s.finishPiece l o m n0 accs).1.sys.lockView = s.sys.lockView := by simp [State.finishPiece]

@[simp] theorem State.countRow_lockView (s : State) (l : LRec) (v : Nat) (cs : List Conv) :
    (s.countRow l v cs).sys.lockView = s.sys.lockView := foldl_lockView (fun s n => by split <;> simp) _ s

@[simp] theorem State.epiRow_lockView (s : State) (l : LRec) (v n : Nat) (x : List Nat) :
    (s.epiRow l v n x).sys.lockView = s.sys.lockView := by
  induction x generalizing s n with
  | nil => rfl
  | cons k ks ih =>
    unfold State.epiRow
    rw [ih, State.epiCount_lockView]

@[simp] theorem State.finishRow_lockView (s : State) (l : LRec) (o m : Nat) (accs : List (BitVec 64)) :
    (s.finishRow l o m accs).sys.lockView = s.sys.lockView := by simp [State.finishRow]

/-! ### `Machine/Array` -/

@[simp] theorem State.setGang_lockView (s : State) (p : Nat) (g : Option GangOp) :
    (s.setGang p g).sys.lockView = s.sys.lockView := rfl

@[simp] theorem State.setParked_lockView (s : State) (p : Nat) (g : Option GangOp) :
    (s.setParked p g).sys.lockView = s.sys.lockView := rfl

@[simp] theorem State.gangFault_lockView (s : State) (p : Nat) (g : GangOp) (cause engine : BitVec 16)
    (image : BitVec 512) (at_ : Option (BitVec 64)) :
    (s.gangFault p g cause engine image at_).sys.lockView = s.sys.lockView := by simp [State.gangFault]

@[simp] theorem State.gangRefuse_lockView (s : State) (p : Nat) (g : GangOp) (engine : BitVec 16)
    (image : BitVec 512) (a : Nat) :
    (s.gangRefuse p g engine image a).sys.lockView = s.sys.lockView := by simp [State.gangRefuse]

@[simp] theorem State.issueGang_lockView (s : State) (l : LRec) :
    (s.issueGang l).sys.lockView = s.sys.lockView := by simp [State.issueGang]

@[simp] theorem execMatmul_lockView (r : RecRef) (s : State) :
    (onward s (execMatmul r s)).sys.lockView = s.sys.lockView := by simp [execMatmul]

@[simp] theorem execConv_lockView (r : RecRef) (s : State) :
    (onward s (execConv r s)).sys.lockView = s.sys.lockView := by simp [execConv]

@[simp] theorem execAttQk_lockView (r : RecRef) (s : State) :
    (onward s (execAttQk r s)).sys.lockView = s.sys.lockView := by simp [execAttQk]

@[simp] theorem execAttPv_lockView (r : RecRef) (s : State) :
    (onward s (execAttPv r s)).sys.lockView = s.sys.lockView := by simp [execAttPv]

@[simp] theorem State.pulp_lockView (s : State) (c n : Nat) :
    (s.pulp c n).sys.lockView = s.sys.lockView := by simp [State.pulp]

@[simp] theorem State.issuePass_lockView (s : State) (p : Nat) (g : GangOp) (c t : Nat) (sh : Shard) (pl : Place)
    (w : PassWaits) :
    (s.issuePass p g c t sh pl w).sys.lockView = s.sys.lockView := by
  unfold State.issuePass
  extract_lets l r elapsed iv next loads ends inside
  split
  · rfl
  · split
    · simp
    · split <;> simp

@[simp] theorem execPassIssue_lockView (c : Fin 64) (t : Fin 16) (w : PassWaits) (s : State) :
    (onward s (execPassIssue c t w s)).sys.lockView = s.sys.lockView := by
  unfold execPassIssue
  dsimp only
  repeat' split
  all_goals simp

@[simp] theorem execActivityStep_lockView (c : Fin 64) (t : Fin 16) (s : State) :
    (onward s (execActivityStep c t s)).sys.lockView = s.sys.lockView := by simp [execActivityStep]

@[simp] theorem execPulpHoldExpiry_lockView (c : Fin 64) (t : Fin 16) (s : State) :
    (onward s (execPulpHoldExpiry c t s)).sys.lockView = s.sys.lockView := by simp [execPulpHoldExpiry]

@[simp] theorem State.drainRaw_lockView (s : State) (l : LRec) (grp : Group) (addr : Nat) (acc : SMap (BitVec 64)) :
    (s.drainRaw l grp addr acc).sys.lockView = s.sys.lockView := by simp [State.drainRaw]

@[simp] theorem State.deliver_lockView (s : State) (l : LRec) (g : GangOp) (sh : Shard) (grp : Group)
    (acc : SMap (BitVec 64)) :
    (s.deliver l g sh grp acc).1.sys.lockView = s.sys.lockView := by
  have hrow (n : Nat) (f : Nat → List (BitVec 64)) (l' : List Nat) (st : State × Shadow) :
      (l'.foldl (fun st i =>
        let x := st.1.finishPiece l grp.o (grp.m0 + i) grp.n0 (f i)
        (x.1, st.2.add x.2)) st).1.sys.lockView = st.1.sys.lockView := by
    induction l' generalizing st with
    | nil => rfl
    | cons i l' ih => rw [List.foldl_cons, ih, State.finishPiece_lockView]
  unfold State.deliver
  dsimp only
  split
  · exact hrow 0 _ _ _
  · rfl

@[simp] theorem State.logicRec_lockView (s : State) (level : BitVec 4) (inst c : Nat) (sev : BitVec 2) :
    (s.logicRec level inst c sev).sys.lockView = s.sys.lockView := by simp [State.logicRec]

@[simp] theorem State.commitTile_lockView (s : State) (p : Nat) (g : GangOp) (c t : Nat) (sh : Shard) :
    (s.commitTile p g c t sh).sys.lockView = s.sys.lockView := by
  unfold State.commitTile
  dsimp only
  repeat' split
  all_goals simp

@[simp] theorem State.restartTile_lockView (s : State) (p : Nat) (g : GangOp) (c t : Nat) (sh : Shard) (drain : Bool) :
    (s.restartTile p g c t sh drain).sys.lockView = s.sys.lockView := by simp [State.restartTile]

@[simp] theorem State.finishResults_lockView (s : State) (g : GangOp) :
    (s.finishResults g).sys.lockView = s.sys.lockView := by simp [State.finishResults]

/-! ### `Machine/Vector` -/

@[simp] theorem State.putMxBlock_lockView (s : State) (l : LRec) (b : Nat) :
    (s.putMxBlock l b).1.sys.lockView = s.sys.lockView := by simp [State.putMxBlock]

@[simp] theorem State.vecWrite_lockView (s : State) (l : LRec) (q0 q1 : Nat) :
    (s.vecWrite l q0 q1).1.sys.lockView = s.sys.lockView := by
  unfold State.vecWrite
  repeat' split
  all_goals simp

@[simp] theorem State.vecClose_lockView (s : State) (l : LRec) (c : Nat) :
    (s.vecClose l c).sys.lockView = s.sys.lockView := by simp [State.vecClose]

@[simp] theorem execVecMap_lockView (r : RecRef) (s : State) :
    (onward s (execVecMap r s)).sys.lockView = s.sys.lockView := by simp [execVecMap]

@[simp] theorem execVecReduce_lockView (r : RecRef) (s : State) :
    (onward s (execVecReduce r s)).sys.lockView = s.sys.lockView := by simp [execVecReduce]

@[simp] theorem execVecNorm_lockView (r : RecRef) (s : State) :
    (onward s (execVecNorm r s)).sys.lockView = s.sys.lockView := by simp [execVecNorm]

@[simp] theorem execVecSoftmax_lockView (r : RecRef) (s : State) :
    (onward s (execVecSoftmax r s)).sys.lockView = s.sys.lockView := by simp [execVecSoftmax]

@[simp] theorem execVecConvert_lockView (r : RecRef) (s : State) :
    (onward s (execVecConvert r s)).sys.lockView = s.sys.lockView := by simp [execVecConvert]

@[simp] theorem execVecRandom_lockView (r : RecRef) (s : State) :
    (onward s (execVecRandom r s)).sys.lockView = s.sys.lockView := by simp [execVecRandom]

@[simp] theorem execCmpCount_lockView (r : RecRef) (s : State) :
    (onward s (execCmpCount r s)).sys.lockView = s.sys.lockView := by simp [execCmpCount]

@[simp] theorem State.writeOpen_lockView (s : State) (addr n : Nat) :
    (s.writeOpen addr n).sys.lockView = s.sys.lockView := by simp [State.writeOpen]

@[simp] theorem State.commitVec_lockView (s : State) (p : Nat) (g : GangOp) (c : Nat) :
    (s.commitVec p g c).sys.lockView = s.sys.lockView := by
  have hw (q0 q1 : Nat) : (if g.lrec.vAtClose then (s, Shadow.zero) else s.vecWrite g.lrec q0 q1).1.sys.lockView =
      s.sys.lockView := by split <;> simp
  unfold State.commitVec
  dsimp only
  split
  · rfl
  · split
    · simp
    · split
      · simp
      · simp only [State.applyClears_lockView, ite_lockView, State.logicRec_lockView, ite_self,
          State.vecCount_lockView, State.commitShadow_lockView, State.bump64_sys,
          State.setGang_lockView, State.writeOpen_lockView, hw]

@[simp] theorem State.commitCmp_lockView (s : State) (p : Nat) (g : GangOp) (c b : Nat) :
    (s.commitCmp p g c b).sys.lockView = s.sys.lockView := by
  unfold State.commitCmp
  dsimp only
  split
  · rfl
  · split
    · simp
    · split <;> simp

@[simp] theorem State.cmpClose_lockView (s : State) (g : GangOp) :
    (s.cmpClose g).sys.lockView = s.sys.lockView := by simp [State.cmpClose]

/-! ### `Machine/Gang` -/

@[simp] theorem execStepCommit_lockView (c : Fin 64) (u : GangUnit) (s : State) :
    (onward s (execStepCommit c u s)).sys.lockView = s.sys.lockView := by
  unfold execStepCommit
  repeat' split
  all_goals simp

@[simp] theorem State.restartUnit_lockView (s : State) (p : Nat) (g : GangOp) (c kind : Nat) (r : UnitRun)
    (put : UnitRun → GangOp) :
    (s.restartUnit p g c kind r put).sys.lockView = s.sys.lockView := by simp [State.restartUnit]

@[simp] theorem execStepRestart_lockView (c : Fin 64) (u : GangUnit) (drain : Bool) (s : State) :
    (onward s (execStepRestart c u drain s)).sys.lockView = s.sys.lockView := by
  unfold execStepRestart
  repeat' split
  all_goals simp

@[simp] theorem execBarrierArrive_lockView (c : Fin 64) (s : State) :
    (onward s (execBarrierArrive c s)).sys.lockView = s.sys.lockView := by
  unfold execBarrierArrive
  split <;> simp

@[simp] theorem State.closeGang_lockView (s : State) (p : Nat) (g : GangOp) (cycles : Nat) :
    (s.closeGang p g cycles).sys.lockView = s.sys.lockView := by simp [State.closeGang]

@[simp] theorem State.parkClose_lockView (s : State) (p : Nat) (g : GangOp) (why : GangStop) (cycles : Nat) :
    (s.parkClose p g why cycles).sys.lockView = s.sys.lockView := by
  unfold State.parkClose
  dsimp only
  repeat' split
  all_goals simp

@[simp] theorem execBarrierClose_lockView (p : Fin 64) (cycles : Nat) (s : State) :
    (onward s (execBarrierClose p cycles s)).sys.lockView = s.sys.lockView := by
  unfold execBarrierClose
  repeat' split
  all_goals simp

@[simp] theorem execGangTimeout_lockView (p : Fin 64) (s : State) :
    (onward s (execGangTimeout p s)).sys.lockView = s.sys.lockView := by
  unfold execGangTimeout
  repeat' split
  all_goals simp

@[simp] theorem execPark_lockView (p : Fin 64) (s : State) :
    (onward s (execPark p s)).sys.lockView = s.sys.lockView := by
  unfold execPark
  split <;> simp

@[simp] theorem execParkedResume_lockView (p : Fin 64) (cycles : Nat) (s : State) :
    (onward s (execParkedResume p cycles s)).sys.lockView = s.sys.lockView := by
  unfold execParkedResume
  split <;> simp

/-! ### `Machine/Scratch` -/

@[simp] theorem State.failNoc_lockView (s : State) (q : NocReq) (cause : BitVec 16) :
    (s.failNoc q cause).sys.lockView = s.sys.lockView := by
  unfold State.failNoc
  repeat' split
  all_goals simp

@[simp] theorem State.holdReq_lockView (s : State) (q : NocReq) (op : NocOp) (tier : Bool) :
    (s.holdReq q op tier).sys.lockView = s.sys.lockView := by
  unfold State.holdReq
  dsimp only
  repeat' split
  all_goals simp

@[simp] theorem State.countWait_lockView (s : State) (q : NocReq) (waited : Nat) :
    (s.countWait q waited).sys.lockView = s.sys.lockView := by
  unfold State.countWait
  split <;> simp

@[simp] theorem State.serveRead_lockView (s : State) (q : NocReq) (n : Nat) :
    (s.serveRead q n).sys.lockView = s.sys.lockView := by simp [State.serveRead]

@[simp] theorem State.serveWrite_lockView (s : State) (q : NocReq) (data : List Byte) (inc : Option ArrInc) :
    (s.serveWrite q data inc).sys.lockView = s.sys.lockView := by
  unfold State.serveWrite
  dsimp only
  repeat' split
  all_goals simp

@[simp] theorem State.collide_lockView (s : State) (id : Nat) (q : NocReq) (data : List Byte) (inc : Option ArrInc)
    (k : Nat) :
    (s.collide id q data inc k).sys.lockView = s.sys.lockView := by
  unfold State.collide
  split <;> simp

@[simp] theorem State.tryWrite_lockView (s : State) (id : Nat) (q : NocReq) (data : List Byte) (inc : Option ArrInc)
    (tierBusy : Bool) (k : Nat) :
    (s.tryWrite id q data inc tierBusy k).sys.lockView = s.sys.lockView := by
  unfold State.tryWrite
  split <;> simp

@[simp] theorem State.tryRead_lockView (s : State) (q : NocReq) (n : Nat) :
    (s.tryRead q n).sys.lockView = s.sys.lockView := by
  unfold State.tryRead
  split <;> simp

@[simp] theorem State.serveHeld_lockView (s : State) : (s.serveHeld).sys.lockView = s.sys.lockView := by
  refine foldl_lockView (fun t r => ?_) _ _
  dsimp only
  split
  · rfl
  · rfl
  · split <;> simp

@[simp] theorem State.nocCharge_lockView (s : State) (q : NocReq) : (s.nocCharge q).sys.lockView = s.sys.lockView := by
  unfold State.nocCharge
  split <;> simp

@[simp] theorem execNocRead_lockView (q : NocReq) (n waited : Nat) (s : State) :
    (onward s (execNocRead q n waited s)).sys.lockView = s.sys.lockView := by simp [execNocRead]

@[simp] theorem execNocWrite_lockView (q : NocReq) (data : List Byte) (inc : Option ArrInc) (tierBusy : Bool)
    (waited : Nat) (s : State) :
    (onward s (execNocWrite q data inc tierBusy waited s)).sys.lockView = s.sys.lockView := by simp [execNocWrite]

@[simp] theorem execCollideRetry_lockView (id : Nat) (tierBusy : Bool) (s : State) :
    (onward s (execCollideRetry id tierBusy s)).sys.lockView = s.sys.lockView := by
  unfold execCollideRetry
  dsimp only
  repeat' split
  all_goals simp

@[simp] theorem State.handover_lockView (s : State) (b : Nat) (new : Option (Fin 64)) :
    (s.handover b new).sys.lockView = s.sys.lockView := rfl

@[simp] theorem State.violation_lockView (s : State) (b : Nat) (kind : BitVec 2) (claim : Option (Fin 64)) :
    (s.violation b kind claim).sys.lockView = s.sys.lockView := by simp [State.violation]

@[simp] theorem State.botRefuse_lockView (s : State) (f : Fn) (b off : Nat) :
    (s.botRefuse f b off).sys.lockView = s.sys.lockView := by simp [State.botRefuse]

@[simp] theorem State.botHalf_lockView (s : State) (f : Fn) (b off : Nat) (h : BitVec 16) :
    (s.botHalf f b off h).sys.lockView = s.sys.lockView := by
  unfold State.botHalf
  repeat' split
  all_goals simp

@[simp] theorem State.botWord_lockView (s : State) (f : Fn) (c w : Nat) (v : Word) :
    (s.botWord f c w v).sys.lockView = s.sys.lockView := by simp [State.botWord]

@[simp] theorem execBotEntryWrite_lockView (f : Fn) (c : Fin 64) (w : Fin 512) (wide : Bool) (v : BitVec 64)
    (s : State) :
    (onward s (execBotEntryWrite f c w wide v s)).sys.lockView = s.sys.lockView := by
  unfold execBotEntryWrite
  dsimp only
  split
  · split
    · simp
    · split
      · next h => exact State.openAt_error_lockView h
      · split
        · next h => exact State.openAt_error_lockView h
        · simp
  · split
    · next h => exact State.openAt_error_lockView h
    · simp

@[simp] theorem execHandoverUnpend_lockView (b : Fin 65536) (s : State) :
    (onward s (execHandoverUnpend b s)).sys.lockView = s.sys.lockView := by simp [execHandoverUnpend]

@[simp] theorem execWipeStart_lockView (c : Fin 64) (t : Fin 16) (tier : Fin 4) (s : State) :
    (onward s (execWipeStart c t tier s)).sys.lockView = s.sys.lockView := by
  unfold execWipeStart
  dsimp only
  repeat' split
  all_goals simp

@[simp] theorem State.zeroBank_lockView (s : State) (b : Nat) : (s.zeroBank b).sys.lockView = s.sys.lockView := rfl

@[simp] theorem State.clearTags_lockView (s : State) (c : Nat) : (s.clearTags c).sys.lockView = s.sys.lockView := by
  refine foldl_lockView (fun t r => ?_) _ _
  dsimp only
  split <;> simp

@[simp] theorem State.finishReset_lockView (s : State) (p : Nat) :
    (s.finishReset p).sys.lockView = s.sys.lockView := by simp [State.finishReset]

@[simp] theorem State.settleBank_lockView (s : State) (b : Nat) : (s.settleBank b).sys.lockView = s.sys.lockView := by
  unfold State.settleBank
  dsimp only
  split <;> simp

@[simp] theorem execWipeDone_lockView (c : Fin 64) (t : Fin 16) (tier : Fin 4) (s : State) :
    (onward s (execWipeDone c t tier s)).sys.lockView = s.sys.lockView := by
  unfold execWipeDone
  dsimp only
  split <;> simp

@[simp] theorem State.releaseBank_lockView (s : State) (p : Fin 64) (b : Nat) :
    (s.releaseBank p b).sys.lockView = s.sys.lockView := by simp [State.releaseBank]

@[simp] theorem execBankRelease_lockView (f : Fn) (p : Fin 64) (v : Word) (s : State) :
    (onward s (execBankRelease f p v s)).sys.lockView = s.sys.lockView := by
  unfold execBankRelease
  split
  · next h => simp [State.openAt_error_lockView h]
  · simp

@[simp] theorem State.setRowEnt_lockView (s : State) (b i : Nat) (e : RowEnt) :
    (s.setRowEnt b i e).sys.lockView = s.sys.lockView := rfl

@[simp] theorem State.faultOwner_lockView (s : State) (b a : Nat) :
    (s.faultOwner b a).sys.lockView = s.sys.lockView := by
  unfold State.faultOwner
  split <;> simp

@[simp] theorem State.failBank_lockView (s : State) (b : Nat) :
    (s.failBank b).sys.lockView = s.sys.lockView := by simp [State.failBank]

@[simp] theorem State.mapOut_lockView (s : State) (b row : Nat) (zero : Bool) :
    (s.mapOut b row zero).sys.lockView = s.sys.lockView := by
  unfold State.mapOut
  dsimp only
  repeat' split
  all_goals simp

@[simp] theorem execRowMapout_lockView (b : Fin 65536) (row : Fin 1024) (s : State) :
    (onward s (execRowMapout b row s)).sys.lockView = s.sys.lockView := by
  unfold execRowMapout
  split <;> simp

@[simp] theorem execRetentionEnter_lockView (r : Fin 16) (tier : Fin 4) (s : State) :
    (onward s (execRetentionEnter r tier s)).sys.lockView = s.sys.lockView := by
  unfold execRetentionEnter
  split <;> simp

@[simp] theorem execRetentionEntryDone_lockView (r : Fin 16) (tier : Fin 4) (s : State) :
    (onward s (execRetentionEntryDone r tier s)).sys.lockView = s.sys.lockView := by
  unfold execRetentionEntryDone
  split <;> simp

@[simp] theorem execRetentionWake_lockView (q : NocReq) (op : NocOp) (s : State) :
    (onward s (execRetentionWake q op s)).sys.lockView = s.sys.lockView := by
  unfold execRetentionWake
  dsimp only
  split <;> simp

@[simp] theorem execRetentionWakeDone_lockView (r : Fin 16) (tier : Fin 4) (s : State) :
    (onward s (execRetentionWakeDone r tier s)).sys.lockView = s.sys.lockView := by
  unfold execRetentionWakeDone
  split <;> simp

/-! ### `Machine/Tags` -/

@[simp] theorem State.setTag_lockView (s : State) (c slot : Nat) (full : Bool) :
    (s.setTag c slot full).sys.lockView = s.sys.lockView := by
  unfold State.setTag
  dsimp only
  repeat' split
  all_goals simp

@[simp] theorem State.serveTag_lockView (s : State) (t : TagReq) : (s.serveTag t).sys.lockView = s.sys.lockView := by
  unfold State.serveTag
  split <;> simp

@[simp] theorem State.drainTag_lockView (s : State) (c slot n : Nat) :
    (s.drainTag c slot n).sys.lockView = s.sys.lockView := by
  induction n generalizing s with
  | zero => rfl
  | succ n ih =>
    unfold State.drainTag
    split <;> simp [ih]

@[simp] theorem State.arriveTag_lockView (s : State) (t : TagReq) :
    (s.arriveTag t).sys.lockView = s.sys.lockView := by simp [State.arriveTag]

@[simp] theorem State.tagAccess_lockView (s : State) (q : NocReq) (op : TagOp) (since : BitVec 64) (id : Nat) :
    (s.tagAccess q op since id).sys.lockView = s.sys.lockView := by
  unfold State.tagAccess
  dsimp only
  repeat' split
  all_goals simp

@[simp] theorem State.newTag_lockView (s : State) (q : NocReq) (op : TagOp) :
    (s.newTag q op).sys.lockView = s.sys.lockView := by simp [State.newTag]

@[simp] theorem execTagWrite_lockView (q : NocReq) (data : List Byte) (s : State) :
    (onward s (execTagWrite q data s)).sys.lockView = s.sys.lockView := by simp [execTagWrite]

@[simp] theorem execTagRead_lockView (q : NocReq) (s : State) :
    (onward s (execTagRead q s)).sys.lockView = s.sys.lockView := by simp [execTagRead]

@[simp] theorem execTagPeek_lockView (q : NocReq) (s : State) :
    (onward s (execTagPeek q s)).sys.lockView = s.sys.lockView := by simp [execTagPeek]

@[simp] theorem execTagFill_lockView (q : NocReq) (data : List Byte) (s : State) :
    (onward s (execTagFill q data s)).sys.lockView = s.sys.lockView := by simp [execTagFill]

@[simp] theorem State.tagTimeout_lockView (s : State) (t : TagReq) :
    (s.tagTimeout t).sys.lockView = s.sys.lockView := by
  unfold State.tagTimeout
  split <;> simp

@[simp] theorem execTagBusyRetry_lockView (id : Nat) (s : State) :
    (onward s (execTagBusyRetry id s)).sys.lockView = s.sys.lockView := by
  unfold execTagBusyRetry
  split <;> simp

@[simp] theorem execTagTimeout_lockView (id : Nat) (s : State) :
    (onward s (execTagTimeout id s)).sys.lockView = s.sys.lockView := by
  unfold execTagTimeout
  split <;> simp

@[simp] theorem execTagClr_lockView (f : Fn) (c : Fin 64) (v : Word) (s : State) :
    (onward s (execTagClr f c v s)).sys.lockView = s.sys.lockView := by
  unfold execTagClr
  split
  · next h => simp [State.openAt_error_lockView h]
  · simp

/-! ### `Machine/Bramble` -/

@[simp] theorem State.writeSnap_lockView (s : State) (p : Nat) (data : List Byte) :
    (s.writeSnap p data).sys.lockView = s.sys.lockView := by
  unfold State.writeSnap
  dsimp only
  repeat' split
  · rfl
  · simp
  · next h => simp [State.handleWrite_lockView h]
  · simp

@[simp] theorem State.withdraw_lockView (s : State) (p : Nat) :
    (s.withdraw p).sys.lockView = s.sys.lockView := by simp [State.withdraw]

@[simp] theorem State.deadlock_lockView (s : State) (p : Nat) :
    (s.deadlock p).sys.lockView = s.sys.lockView := by simp [State.deadlock]

@[simp] theorem execBrambleSnapshotDone_lockView (p : Fin 64) (s : State) :
    (onward s (execBrambleSnapshotDone p s)).sys.lockView = s.sys.lockView := by simp [execBrambleSnapshotDone]

/-! ### `Machine/Cellar` -/

@[simp] theorem State.pteReject_lockView (s : State) :
    (s.pteReject).sys.lockView = s.sys.lockView := by simp [State.pteReject]

@[simp] theorem execPteWrite_lockView (f : Fn) (v : Word) (s : State) :
    (onward s (execPteWrite f v s)).sys.lockView = s.sys.lockView := by
  unfold execPteWrite
  split
  · next h => simp [State.openAt_error_lockView h]
  · split <;> simp

@[simp] theorem execPageScrubDone_lockView (p : Fin 64) (vpn : Fin 32768) (s : State) :
    (onward s (execPageScrubDone p vpn s)).sys.lockView = s.sys.lockView := by simp [execPageScrubDone]

@[simp] theorem execPteUnmapDone_lockView (p : Fin 64) (vpn : Fin 32768) (s : State) :
    (onward s (execPteUnmapDone p vpn s)).sys.lockView = s.sys.lockView := by
  unfold execPteUnmapDone
  dsimp only
  split <;> simp

@[simp] theorem execCelMissRead_lockView (f : Fn) (s : State) :
    (onward s (execCelMissRead f s)).sys.lockView = s.sys.lockView := by
  unfold execCelMissRead
  repeat' split
  all_goals simp

@[simp] theorem State.dropMiss_lockView (s : State) (n : Nat) : (s.dropMiss n).sys.lockView = s.sys.lockView := rfl

@[simp] theorem State.countResumed_lockView (s : State) (n : Nat) (c : ChanCmd) :
    (s.countResumed n c).sys.lockView = s.sys.lockView := by simp [State.countResumed]

@[simp] theorem State.faultChan_lockView (s : State) (n : Nat) (c : ChanCmd) (cause : BitVec 16) :
    (s.faultChan n c cause).sys.lockView = s.sys.lockView := by
  unfold State.faultChan
  dsimp only
  split <;> simp

@[simp] theorem State.celResume_lockView (s : State) (n : Nat) (fail : Bool) :
    (s.celResume n fail).sys.lockView = s.sys.lockView := by
  unfold State.celResume
  split <;> simp

@[simp] theorem execCelResumeRetry_lockView (f : Fn) (ch : Fin 512) (s : State) :
    (onward s (execCelResumeRetry f ch s)).sys.lockView = s.sys.lockView := by
  unfold execCelResumeRetry
  split
  · next h => simp [State.openAt_error_lockView h]
  · simp

@[simp] theorem execCelResumeFail_lockView (f : Fn) (ch : Fin 512) (s : State) :
    (onward s (execCelResumeFail f ch s)).sys.lockView = s.sys.lockView := by
  unfold execCelResumeFail
  split
  · next h => simp [State.openAt_error_lockView h]
  · simp

@[simp] theorem execCellarMissTimeout_lockView (ch : Fin 512) (s : State) :
    (onward s (execCellarMissTimeout ch s)).sys.lockView = s.sys.lockView := by
  unfold execCellarMissTimeout
  split <;> simp

@[simp] theorem State.freePrg_lockView (s : State) (n : Nat) : (s.freePrg n).sys.lockView = s.sys.lockView := rfl

@[simp] theorem execPageResponse_lockView (prg : Fin 512) (code : PageCode) (s : State) :
    (onward s (execPageResponse prg code s)).sys.lockView = s.sys.lockView := by
  unfold execPageResponse
  dsimp only
  repeat' split
  all_goals simp

@[simp] theorem execPageRequestTimeout_lockView (prg : Fin 512) (s : State) :
    (onward s (execPageRequestTimeout prg s)).sys.lockView = s.sys.lockView := by
  unfold execPageRequestTimeout
  split <;> simp

@[simp] theorem State.finishInval_lockView (s : State) :
    (s.finishInval).sys.lockView = s.sys.lockView := by simp [State.finishInval]

@[simp] theorem execAtsInvalidation_lockView (f : Fin 65) (tag : BitVec 5) (page n : Nat) (s : State) :
    (onward s (execAtsInvalidation f tag page n s)).sys.lockView = s.sys.lockView := by simp [execAtsInvalidation]

@[simp] theorem State.logAer_lockView (s : State) (f : Fin 65) (cause : BitVec 16) :
    (s.logAer f cause).sys.lockView = s.sys.lockView := rfl

@[simp] theorem State.failHostRead_lockView (s : State) (r : HostRead) (cause : BitVec 16) :
    (s.failHostRead r cause).sys.lockView = s.sys.lockView := by
  unfold State.failHostRead
  dsimp only
  split
  · split <;> simp
  · rw [State.setPart_sys, State.logAer_lockView]

/-! ### `Machine/Link` -/

@[simp] theorem State.emitFlit_lockView (s : State) (l : Nat) (f : Flit) :
    (s.emitFlit l f).sys.lockView = s.sys.lockView := by
  unfold State.emitFlit
  dsimp only
  split <;> simp

@[simp] theorem State.sendControl_lockView (s : State) (l : Nat) (msg : List Byte) :
    (s.sendControl l msg).sys.lockView = s.sys.lockView := by simp [State.sendControl]

@[simp] theorem State.sendIdle_lockView (s : State) (l : Nat) :
    (s.sendIdle l).sys.lockView = s.sys.lockView := by simp [State.sendIdle]

theorem State.sendNext_lockView {s : State} {p : Nat} {t : State} (h : s.sendNext p = some t) :
    t.sys.lockView = s.sys.lockView := by
  unfold State.sendNext at h
  split at h
  · cases h
  · split at h
    · cases h
    · split at h
      · cases h
      · cases h
        simp

@[simp] theorem State.drainFrom_lockView (s : State) (p n : Nat) : (s.drainFrom p n).sys.lockView = s.sys.lockView := by
  induction n generalizing s with
  | zero => rfl
  | succ n ih =>
    unfold State.drainFrom
    split
    · next h => rw [ih, State.sendNext_lockView h]
    · rfl

@[simp] theorem State.drainPort_lockView (s : State) (p : Nat) :
    (s.drainPort p).sys.lockView = s.sys.lockView := by simp [State.drainPort]

@[simp] theorem State.pushRx_lockView (s : State) (p : Nat) (vc : BitVec 3) (fs : List RxFlit) :
    (s.pushRx p vc fs).sys.lockView = s.sys.lockView := rfl

@[simp] theorem State.queuePacket_lockView (s : State) (p : Nat) (vc : BitVec 3) (h : BitVec 128)
    (bodies : List (List Byte)) :
    (s.queuePacket p vc h bodies).sys.lockView = s.sys.lockView := by simp [State.queuePacket]

@[simp] theorem State.sendOn_lockView (s : State) (p : Nat) (dateline : Bool) (h : BitVec 128) (data : List Byte) :
    (s.sendOn p dateline h data).sys.lockView = s.sys.lockView := by
  unfold State.sendOn
  split <;> simp

theorem State.sendPacket_lockView {s : State} {h : BitVec 128} {data : List Byte} {t : State}
    (h : s.sendPacket h data = some t) :
    t.sys.lockView = s.sys.lockView := by
  unfold State.sendPacket at h
  grind [State.sendOn_lockView, State.pushRx_lockView]

@[simp] theorem State.sendPacket_getD_lockView (s : State) (h : BitVec 128) (data : List Byte) {d : State}
    (hd : d.sys.lockView = s.sys.lockView) :
    ((s.sendPacket h data).getD d).sys.lockView = s.sys.lockView :=
  getD_lockView (fun _ => State.sendPacket_lockView) hd

@[simp] theorem State.chargeLink_lockView (s : State) (p len : Nat) :
    (s.chargeLink p len).sys.lockView = s.sys.lockView := by simp [State.chargeLink]

@[simp] theorem State.popPacket_lockView (s : State) (p : Nat) (vc : BitVec 3) (k : Packet) :
    (s.popPacket p vc k).sys.lockView = s.sys.lockView := by simp [State.popPacket]

/-! ### `Machine/Pipe` -/

@[simp] theorem State.setCstash_lockView (s : State) (j : Nat) (v : Word) :
    (s.setCstash j v).sys.lockView = s.sys.lockView := rfl

@[simp] theorem State.putWord_lockView (s : State) (addr : Nat) (data : List Byte) :
    (s.putWord addr data).sys.lockView = s.sys.lockView := by simp [State.putWord]

@[simp] theorem State.countGranules_lockView (s : State) (n k : Nat) :
    (s.countGranules n k).sys.lockView = s.sys.lockView := by simp [State.countGranules]

@[simp] theorem State.setStgTags_lockView (s : State) (q : Nat) (ts : List (BitVec 16)) :
    (s.setStgTags q ts).sys.lockView = s.sys.lockView := rfl

theorem State.feedWord_lockView {s : State} {t : BitVec 16} {w : Nat} {data : List Byte} {r : Bool × State}
    (h : s.feedWord t w data = some r) :
    r.2.sys.lockView = s.sys.lockView := by
  unfold State.feedWord at h
  grind [State.jobCause_lockView, State.queWrite_lockView, State.setStgTags_lockView]

/-! ### `Machine/Mover` -/

@[simp] theorem State.writePiece_lockView (s : State) (c : ChanCmd) (a : Nat) (data : List Byte) :
    (s.writePiece c a data).sys.lockView = s.sys.lockView := by
  unfold State.writePiece
  split <;> simp

@[simp] theorem State.sendPieces_lockView (s : State) (c : ChanCmd) (vid : Option (BitVec 12))
    (x : List (Nat × List Byte)) :
    (s.sendPieces c vid x).1.sys.lockView = s.sys.lockView := by
  induction x generalizing s with
  | nil => rfl
  | cons q rest ih => simp [State.sendPieces, ih]

@[simp] theorem State.payBeats_lockView (s : State) (c : ChanCmd) (cel host n : Nat) :
    (s.payBeats c cel host n).1.sys.lockView = s.sys.lockView := by
  induction n generalizing s c with
  | zero => rfl
  | succ n ih => simp only [State.payBeats]; split <;> simp [ih]

theorem State.payBeats_fst_lockView {s : State} {c : ChanCmd} {cel host n : Nat} {t : State} {o : ChanCmd}
    (h : s.payBeats c cel host n = (t, o)) :
    t.sys.lockView = s.sys.lockView := by
  have := State.payBeats_lockView s c cel host n
  rwa [h] at this

@[simp] theorem State.advanceChan_lockView (s : State) (n : Nat) (c : ChanCmd) (l : LRec) (wrote k : Nat)
    (remote : Bool) (last : Nat) :
    (s.advanceChan n c l wrote k remote last).sys.lockView = s.sys.lockView := by
  unfold State.advanceChan
  extract_lets p cl s1 src pads s2 s3 s4 fin c' event pad s5 s6 s7 s8
  have h4 : s4.sys.lockView = s.sys.lockView := by simp [s4, s3, s2, s1]
  have h5 : s5.sys.lockView = s.sys.lockView := by
    unfold s5
    split
    · split <;> exact h4
    · exact h4
  have h6 : s6.sys.lockView = s.sys.lockView := by
    unfold s6
    split <;> simp [h5]
  split <;> simp [s8, s7, h6]

@[simp] theorem State.stopChunk_lockView (s : State) (n : Nat) (c : ChanCmd) (hostOk : Bool) (pages : List Nat)
    (e : ChunkStop) :
    (s.stopChunk n c hostOk pages e).sys.lockView = s.sys.lockView := by
  unfold State.stopChunk
  split <;> simp

@[simp] theorem State.readHost_lockView (s : State) (n : Nat) (c : ChanCmd) (ps : List (Nat × Nat)) :
    (s.readHost n c ps).sys.lockView = s.sys.lockView := by simp [State.readHost]

@[simp] theorem State.writeChunk_lockView (s : State) (n : Nat) (c : ChanCmd) (l : LRec) (out : List Byte) (k : Nat)
    (collide : Bool) :
    (s.writeChunk n c l out k collide).sys.lockView = s.sys.lockView := by
  have hpieces (ps : List (Nat × Nat)) (acc : State × List Byte) :
      (ps.foldl (fun (acc : State × List Byte) q =>
        (acc.1.writePiece c q.1 (acc.2.take q.2), acc.2.drop q.2)) acc).1.sys.lockView = acc.1.sys.lockView := by
    induction ps generalizing acc with
    | nil => rfl
    | cons q ps ih => rw [List.foldl_cons, ih, State.writePiece_lockView]
  unfold State.writeChunk
  dsimp only
  split
  · simp
  · split
    · simp
    · split
      · split <;> simp
      · rw [State.advanceChan_lockView, hpieces]

@[simp] theorem State.tryChunk_lockView (s : State) (n : Nat) (c : ChanCmd) (l : LRec) (hostOk collide : Bool) :
    (s.tryChunk n c l hostOk collide).sys.lockView = s.sys.lockView := by
  unfold State.tryChunk
  extract_lets pieces rd inCel inHost wr
  split
  next t c' h =>
  rw [← State.payBeats_fst_lockView h]
  dsimp only
  split
  · simp
  · split
    · simp
    · split
      · split
        · split <;> simp
        · simp
      · rw [State.faultChan_lockView, foldl_lockView]
        · simp
        · intro u q
          dsimp only
          split <;> simp
      · simp
      · split
        · simp
        · split
          · split
            · next hw => simp [State.feedWord_lockView hw]
            · next hw => simpa using State.feedWord_lockView hw
            · simp
          · split <;> simp

@[simp] theorem State.retryChunk_lockView (s : State) (n : Nat) (c : ChanCmd) (l : LRec) (hostOk collide : Bool) :
    (s.retryChunk n c l hostOk collide).sys.lockView = s.sys.lockView := by
  unfold State.retryChunk
  split <;> simp

@[simp] theorem State.startMover_lockView (s : State) (op : BitVec 8) (r : RecRef) :
    (s.startMover op r).sys.lockView = s.sys.lockView := by
  unfold State.startMover
  split <;> simp

@[simp] theorem execCopy_lockView (r : RecRef) (s : State) :
    (onward s (execCopy r s)).sys.lockView = s.sys.lockView := by simp [execCopy]

@[simp] theorem execFill_lockView (r : RecRef) (s : State) :
    (onward s (execFill r s)).sys.lockView = s.sys.lockView := by simp [execFill]

@[simp] theorem execSkew_lockView (r : RecRef) (s : State) :
    (onward s (execSkew r s)).sys.lockView = s.sys.lockView := by simp [execSkew]

@[simp] theorem execPack_lockView (r : RecRef) (s : State) :
    (onward s (execPack r s)).sys.lockView = s.sys.lockView := by simp [execPack]

@[simp] theorem execUnpack_lockView (r : RecRef) (s : State) :
    (onward s (execUnpack r s)).sys.lockView = s.sys.lockView := by simp [execUnpack]

@[simp] theorem execMoverChunkDone_lockView (n : Fin 512) (hostOk collide : Bool) (s : State) :
    (onward s (execMoverChunkDone n hostOk collide s)).sys.lockView = s.sys.lockView := by
  unfold execMoverChunkDone
  repeat' split
  all_goals simp

@[simp] theorem execHostReadCompletion_lockView (id : Nat) (status : CplStatus) (data : List Byte) (s : State) :
    (onward s (execHostReadCompletion id status data s)).sys.lockView = s.sys.lockView := by
  unfold execHostReadCompletion
  dsimp only
  repeat' split
  all_goals simp

@[simp] theorem execHostCompletionTimeout_lockView (id : Nat) (s : State) :
    (onward s (execHostCompletionTimeout id s)).sys.lockView = s.sys.lockView := by
  unfold execHostCompletionTimeout
  split <;> simp

/-! ### `Machine/Packet` -/

@[simp] theorem State.dropPacket_lockView (s : State) (p : Nat) (vc : BitVec 3) (k : Packet) :
    (s.dropPacket p vc k).sys.lockView = s.sys.lockView := by simp [State.dropPacket]

@[simp] theorem State.openPacket_lockView (s : State) (p : Nat) (vc : BitVec 3) (kinds : List Nat) :
    (s.openPacket p vc kinds).1.sys.lockView = s.sys.lockView := by
  unfold State.openPacket
  repeat' split
  all_goals simp

theorem State.openPacket_fst_lockView {s : State} {p : Nat} {vc : BitVec 3} {kinds : List Nat} {t : State}
    {o : Option Packet} (h : s.openPacket p vc kinds = (t, o)) :
    t.sys.lockView = s.sys.lockView := by
  have := State.openPacket_lockView s p vc kinds
  rwa [h] at this

@[simp] theorem State.sendCmpl_lockView (s : State) (h : BitVec 128) (status : BitVec 8) :
    (s.sendCmpl h status).sys.lockView = s.sys.lockView := by simp [State.sendCmpl]

@[simp] theorem State.rejectAdd_lockView (s : State) (p : Nat) :
    (s.rejectAdd p).sys.lockView = s.sys.lockView := by simp [State.rejectAdd]

@[simp] theorem State.applyRemoteInc_lockView (s : State) (q : Nat) (vid : BitVec 12) (amount : BitVec 8) :
    (s.applyRemoteInc q vid amount).sys.lockView = s.sys.lockView := by simp [State.applyRemoteInc]

@[simp] theorem State.receiveWrite_lockView (s : State) (p : Nat) (vc : BitVec 3) (kind : Nat) (refused : Fin 5) :
    (s.receiveWrite p vc kind refused).sys.lockView = s.sys.lockView := by
  unfold State.receiveWrite
  split
  · next h => exact State.openPacket_fst_lockView h
  · next h =>
    rw [← State.openPacket_fst_lockView h]
    extract_lets hdr q a n fail inc target req gate r s1 s2 s3
    have hfail (t : State) (st : BitVec 8) : (fail t st).sys.lockView = t.sys.lockView := by simp [fail]
    clear_value gate fail
    split
    · exact hfail _ _
    · split
      · simp [hfail]
      · cases gate with
        | ok =>
          dsimp only
          repeat' split
          all_goals simp [hfail, s1, s2, s3]
        | fault cause => exact hfail _ _
        | heldBank => rfl
        | heldTier =>
          dsimp only
          split <;> rfl

@[simp] theorem execWritePacket_lockView (p : Fin 7) (vc : BitVec 3) (refused : Fin 5) (s : State) :
    (onward s (execWritePacket p vc refused s)).sys.lockView = s.sys.lockView := by simp [execWritePacket]

@[simp] theorem execWriteIncPacket_lockView (p : Fin 7) (vc : BitVec 3) (refused : Fin 5) (s : State) :
    (onward s (execWriteIncPacket p vc refused s)).sys.lockView = s.sys.lockView := by simp [execWriteIncPacket]

@[simp] theorem execArrivePacket_lockView (p : Fin 7) (vc : BitVec 3) (s : State) :
    (onward s (execArrivePacket p vc s)).sys.lockView = s.sys.lockView := by
  unfold execArrivePacket
  split
  · next h => exact State.openPacket_fst_lockView h
  · next h =>
    rw [← State.openPacket_fst_lockView h]
    dsimp only
    split
    · simp
    · split
      · split
        · simp
        · split <;> simp
      · simp

@[simp] theorem execCmplPacket_lockView (p : Fin 7) (vc : BitVec 3) (s : State) :
    (onward s (execCmplPacket p vc s)).sys.lockView = s.sys.lockView := by
  unfold execCmplPacket
  split
  · next h => exact State.openPacket_fst_lockView h
  · next h =>
    rw [← State.openPacket_fst_lockView h]
    dsimp only
    split
    · simp
    · split
      · simp
      · split
        · split <;> simp
        · simp

@[simp] theorem execTransitForward_lockView (p : Fin 7) (vc : BitVec 3) (s : State) :
    (onward s (execTransitForward p vc s)).sys.lockView = s.sys.lockView := by
  unfold execTransitForward
  dsimp only
  repeat' split
  all_goals simp

@[simp] theorem execArrive_lockView (r : RecRef) (s : State) :
    (onward s (execArrive r s)).sys.lockView = s.sys.lockView := by
  unfold execArrive
  rw [onward_next]
  refine State.start_lockView (fun t l => ?_) s r _
  dsimp only
  split
  · simp
  · split
    · next h => simp [State.sendPacket_lockView h]
    · simp

/-! ### `Machine/Stage` -/

@[simp] theorem State.takeWords_lockView (s : State) (q : QInst) (n : Nat) :
    (s.takeWords q n).1.sys.lockView = s.sys.lockView := by
  induction n generalizing s with
  | zero => rfl
  | succ n ih =>
    simp only [State.takeWords]
    repeat' split
    all_goals simp [ih]

@[simp] theorem State.returnCredits_lockView (s : State) (d n : Nat) (fin : Bool) :
    (s.returnCredits d n fin).sys.lockView = s.sys.lockView := by
  refine foldl_lockView (fun t c => ?_) _ _
  split <;> simp

@[simp] theorem State.settle_lockView (s : State) (e : Nat) : (s.settle e).sys.lockView = s.sys.lockView := rfl

@[simp] theorem State.moveWindow_lockView (s : State) :
    (s.moveWindow).sys.lockView = s.sys.lockView := by simp [State.moveWindow]

@[simp] theorem State.endSend_lockView (s : State) (d : Nat) : (s.endSend d).sys.lockView = s.sys.lockView := by
  unfold State.endSend
  split <;> simp

@[simp] theorem State.beginStep_lockView (s : State) : (s.beginStep).sys.lockView = s.sys.lockView := rfl

@[simp] theorem execStepBegin_lockView (s : State) :
    (onward s (execStepBegin s)).sys.lockView = s.sys.lockView := by simp [execStepBegin]

@[simp] theorem State.invoke_lockView (s : State) (prog : BitVec 2) (handle e : Nat) :
    (s.invoke prog handle e).sys.lockView = s.sys.lockView := by
  unfold State.invoke
  dsimp only
  repeat' split
  · simp
  · simp
  · next h => simp [State.handleWrite_lockView h]

@[simp] theorem execUpdateInvoke_lockView (s : State) :
    (onward s (execUpdateInvoke s)).sys.lockView = s.sys.lockView := by simp [execUpdateInvoke]

@[simp] theorem State.invokeBackward_lockView (s : State) (e : Nat) :
    (s.invokeBackward e).sys.lockView = s.sys.lockView := by simp [State.invokeBackward]

@[simp] theorem State.dispatchBackward_lockView (s : State) (e : Nat) :
    (s.dispatchBackward e).sys.lockView = s.sys.lockView := by simp [State.dispatchBackward]

@[simp] theorem State.dispatchForward_lockView (s : State) (e : Nat) :
    (s.dispatchForward e).sys.lockView = s.sys.lockView := by
  unfold State.dispatchForward
  dsimp only
  split <;> simp

@[simp] theorem State.noteLate_lockView (s : State) : (s.noteLate).sys.lockView = s.sys.lockView := by
  unfold State.noteLate
  dsimp only
  split <;> simp

@[simp] theorem execStageDispatch_lockView (s : State) :
    (onward s (execStageDispatch s)).sys.lockView = s.sys.lockView := by
  unfold execStageDispatch
  dsimp only
  repeat' split
  all_goals simp

@[simp] theorem execInvocationDone_lockView (s : State) :
    (onward s (execInvocationDone s)).sys.lockView = s.sys.lockView := by
  unfold execInvocationDone
  dsimp only
  split
  · rfl
  · split
    · rfl
    · simp only [onward_ite, onward_next, ite_lockView]
      simp

@[simp] theorem execAdmission_lockView (s : State) : (onward s (execAdmission s)).sys.lockView = s.sys.lockView := by
  unfold execAdmission
  repeat' split
  all_goals simp

@[simp] theorem State.storeWords_lockView (s : State) (at_ : Nat → Nat) (n : Nat) (xs : List QWord) :
    (s.storeWords at_ n xs).sys.lockView = s.sys.lockView := by
  induction xs generalizing s n with
  | nil => rfl
  | cons x xs ih => rw [State.storeWords, ih, State.putWord_lockView]

@[simp] theorem State.captureForward_lockView (s : State) : (s.captureForward).sys.lockView = s.sys.lockView := by
  unfold State.captureForward
  split <;> simp

@[simp] theorem State.openGradient_lockView (s : State) : (s.openGradient).sys.lockView = s.sys.lockView := by
  unfold State.openGradient
  split <;> simp

@[simp] theorem State.captureGradient_lockView (s : State) : (s.captureGradient).sys.lockView = s.sys.lockView := by
  unfold State.captureGradient
  dsimp only
  repeat' split
  all_goals simp

@[simp] theorem State.captureRecompute_lockView (s : State) : (s.captureRecompute).sys.lockView = s.sys.lockView := by
  unfold State.captureRecompute
  dsimp only
  repeat' split
  all_goals simp

@[simp] theorem execCaptureItem_lockView (q : Fin 5) (s : State) :
    (onward s (execCaptureItem q s)).sys.lockView = s.sys.lockView := by simp [execCaptureItem]

@[simp] theorem execSendGranule_lockView (d : Fin 2) (s : State) :
    (onward s (execSendGranule d s)).sys.lockView = s.sys.lockView := by
  unfold execSendGranule
  dsimp only
  split
  · rfl
  · split
    · rfl
    · split
      · simp
      · simp

@[simp] theorem execSpillStart_lockView (s : State) : (onward s (execSpillStart s)).sys.lockView = s.sys.lockView := by
  unfold execSpillStart
  dsimp only
  split <;> simp

@[simp] theorem execSpillDone_lockView (s : State) : (onward s (execSpillDone s)).sys.lockView = s.sys.lockView := by
  unfold execSpillDone
  split <;> simp

@[simp] theorem execPrefetchStart_lockView (s : State) :
    (onward s (execPrefetchStart s)).sys.lockView = s.sys.lockView := by
  unfold execPrefetchStart
  split <;> simp

@[simp] theorem execPrefetchDone_lockView (s : State) :
    (onward s (execPrefetchDone s)).sys.lockView = s.sys.lockView := by
  unfold execPrefetchDone
  split <;> simp

@[simp] theorem State.breakItem_lockView (s : State) (q : Nat) : (s.breakItem q).sys.lockView = s.sys.lockView := by
  unfold State.breakItem
  grind [State.queWrite_lockView, State.setQue_sys]

@[simp] theorem State.joinItem_lockView (s : State) (q : Nat) (a : StgAsm) (data : List Byte) :
    (s.joinItem q a data).sys.lockView = s.sys.lockView := by simp [State.joinItem]

@[simp] theorem execStagePacket_lockView (p : Fin 7) (vc : BitVec 3) (s : State) :
    (onward s (execStagePacket p vc s)).sys.lockView = s.sys.lockView := by
  unfold execStagePacket
  split
  · next h => exact State.openPacket_fst_lockView h
  · next k h =>
    rw [← State.openPacket_fst_lockView h]
    extract_lets pop tag off q need open_
    have hpop : pop.sys.lockView = _ := State.popPacket_lockView _ _ _ _
    have hopen (t : State) : (open_ t).sys.lockView = t.sys.lockView := by simp [open_]
    clear_value pop q need open_
    split
    · exact hpop
    · split
      · rfl
      · split
        · rfl
        · split
          · split
            · simp [hpop]
            · split <;> simp [hpop]
          · split
            · exact hpop
            · split
              · simp [hopen, hpop]
              · split <;> simp [hopen, hpop]

@[simp] theorem execCreditPacket_lockView (p : Fin 7) (vc : BitVec 3) (s : State) :
    (onward s (execCreditPacket p vc s)).sys.lockView = s.sys.lockView := by
  unfold execCreditPacket
  split <;> next h => simp [State.openPacket_fst_lockView h]

@[simp] theorem execStageFeed_lockView (r : RecRef) (s : State) :
    (onward s (execStageFeed r s)).sys.lockView = s.sys.lockView := by simp [execStageFeed]

@[simp] theorem execCritEnter_lockView (r : RecRef) (s : State) :
    (onward s (execCritEnter r s)).sys.lockView = s.sys.lockView := by simp [execCritEnter]

@[simp] theorem execCritExit_lockView (r : RecRef) (s : State) :
    (onward s (execCritExit r s)).sys.lockView = s.sys.lockView := by simp [execCritExit]

@[simp] theorem execStgFaultClr_lockView (f : Fn) (v : Word) (s : State) :
    (onward s (execStgFaultClr f v s)).sys.lockView = s.sys.lockView := by
  unfold execStgFaultClr
  split
  · next h => simp [State.openAt_error_lockView h]
  · simp

@[simp] theorem execStepGo_lockView (f : Fn) (v : Word) (s : State) :
    (onward s (execStepGo f v s)).sys.lockView = s.sys.lockView := by
  unfold execStepGo
  split
  · next h => simp [State.openAt_error_lockView h]
  · simp

/-! ### `Machine/Ckpt` -/

@[simp] theorem State.shardNote_lockView (s : State) (x : CkptShard) :
    (s.shardNote x).sys.lockView = s.sys.lockView := by simp [State.shardNote]

@[simp] theorem State.shardClean_lockView (s : State) (x : CkptShard) :
    (s.shardClean x).sys.lockView = s.sys.lockView := by simp [State.shardClean]

@[simp] theorem State.sendCkpt_lockView (s : State) (dst : BitVec 14) (a : BitVec 48) (data : List Byte) :
    (s.sendCkpt dst a data).sys.lockView = s.sys.lockView := by simp [State.sendCkpt]

@[simp] theorem State.sendShard_lockView (s : State) (dst : BitVec 14) (dataOp endOp : BitVec 4) (cseq : BitVec 12)
    (k : Nat) (data sha : List Byte) :
    (s.sendShard dst dataOp endOp cseq k data sha).sys.lockView = s.sys.lockView := by simp [State.sendShard]

@[simp] theorem State.openCkpt_lockView (s : State) (p : Nat) (vc : BitVec 3) (op : BitVec 4) :
    (s.openCkpt p vc op).1.sys.lockView = s.sys.lockView := by
  unfold State.openCkpt
  grind [State.openPacket_lockView, State.dropPacket_lockView]

theorem State.openCkpt_fst_lockView {s : State} {p : Nat} {vc : BitVec 3} {op : BitVec 4} {t : State}
    {o : Option Packet} (h : s.openCkpt p vc op = (t, o)) :
    t.sys.lockView = s.sys.lockView := by
  have := State.openCkpt_lockView s p vc op
  rwa [h] at this

@[simp] theorem State.ckptApply_lockView (s : State) : (s.ckptApply).sys.lockView = s.sys.lockView := by
  unfold State.ckptApply
  dsimp only
  split <;> simp

@[simp] theorem State.ckptCapture_lockView (s : State) :
    (s.ckptCapture).sys.lockView = s.sys.lockView := by simp [State.ckptCapture]

@[simp] theorem State.ckptCheck_lockView (s : State) :
    (s.ckptCheck).sys.lockView = s.sys.lockView := by simp [State.ckptCheck]

@[simp] theorem State.ckptBoundary_lockView (s : State) :
    (s.ckptBoundary).sys.lockView = s.sys.lockView := by simp [State.ckptBoundary]

@[simp] theorem State.ckptFail_lockView (s : State) (err : BitVec 4) :
    (s.ckptFail err).sys.lockView = s.sys.lockView := by
  unfold State.ckptFail
  extract_lets s1 s2
  have h : s2.sys.lockView = s.sys.lockView := by
    refine (foldl_lockView (fun t ab => ?_) _ _).trans (by simp [s1])
    split <;> simp
  split <;> simp [h]

@[simp] theorem State.setTx_lockView (s : State) (i : Nat) (t : ShardTx) :
    (s.setTx i t).sys.lockView = s.sys.lockView := rfl

@[simp] theorem execCheckpointShardSend_lockView (s : State) :
    (onward s (execCheckpointShardSend s)).sys.lockView = s.sys.lockView := by
  unfold execCheckpointShardSend
  repeat' split
  all_goals simp

@[simp] theorem State.resendShard_lockView (s : State) (i : Nat) (err : BitVec 4) :
    (s.resendShard i err).sys.lockView = s.sys.lockView := by simp [State.resendShard]

@[simp] theorem execShardAckTimeout_lockView (i : Fin 131072) (s : State) :
    (onward s (execShardAckTimeout i s)).sys.lockView = s.sys.lockView := by simp [execShardAckTimeout]

@[simp] theorem State.restoreFail_lockView (s : State) (err : BitVec 4) :
    (s.restoreFail err).sys.lockView = s.sys.lockView := by simp [State.restoreFail]

@[simp] theorem execCkptAck_lockView (p : Fin 7) (vc : BitVec 3) (s : State) :
    (onward s (execCkptAck p vc s)).sys.lockView = s.sys.lockView := by
  unfold execCkptAck
  split
  · next h => simp [State.openCkpt_fst_lockView h]
  · next h =>
    dsimp only
    split <;> simp [State.openCkpt_fst_lockView h]

@[simp] theorem execCkptNak_lockView (p : Fin 7) (vc : BitVec 3) (s : State) :
    (onward s (execCkptNak p vc s)).sys.lockView = s.sys.lockView := by
  unfold execCkptNak
  split
  · next h => simp [State.openCkpt_fst_lockView h]
  · next h =>
    dsimp only
    split <;> simp [State.openCkpt_fst_lockView h]

@[simp] theorem State.setBuddyHalf_lockView (s : State) (h : Nat) (v : BuddyHalf) :
    (s.setBuddyHalf h v).sys.lockView = s.sys.lockView := rfl

@[simp] theorem State.ckptStale_lockView (s : State) (p : Nat) (vc : BitVec 3) (k : Packet) :
    (s.ckptStale p vc k).sys.lockView = s.sys.lockView := by simp [State.ckptStale]

@[simp] theorem execShardData_lockView (p : Fin 7) (vc : BitVec 3) (s : State) :
    (onward s (execShardData p vc s)).sys.lockView = s.sys.lockView := by
  unfold execShardData
  split
  · next h => simp [State.openCkpt_fst_lockView h]
  · next h => split <;> simp [State.openCkpt_fst_lockView h]

@[simp] theorem State.applyShard_lockView (s : State) (h i : Nat) (sha : List Byte) :
    (s.applyShard h i sha).1.sys.lockView = s.sys.lockView := by
  unfold State.applyShard
  dsimp only
  repeat' split
  all_goals simp

@[simp] theorem execShardEnd_lockView (p : Fin 7) (vc : BitVec 3) (s : State) :
    (onward s (execShardEnd p vc s)).sys.lockView = s.sys.lockView := by
  unfold execShardEnd
  split
  · next h => simp [State.openCkpt_fst_lockView h]
  · next h => split <;> simp [State.openCkpt_fst_lockView h]

@[simp] theorem State.undoEntry_lockView (s : State) (h : Nat) (j : JournalEnt) :
    (s.undoEntry h j).sys.lockView = s.sys.lockView := by
  unfold State.undoEntry
  dsimp only
  split <;> simp

@[simp] theorem State.undoHalf_lockView (s : State) (h : Nat) : (s.undoHalf h).sys.lockView = s.sys.lockView := by
  unfold State.undoHalf
  dsimp only
  rw [State.setBuddyHalf_lockView, foldl_lockView]
  simp

@[simp] theorem execAbandon_lockView (p : Fin 7) (vc : BitVec 3) (s : State) :
    (onward s (execAbandon p vc s)).sys.lockView = s.sys.lockView := by
  unfold execAbandon
  split
  · next h => simp [State.openCkpt_fst_lockView h]
  · next h => split <;> simp [State.openCkpt_fst_lockView h]

@[simp] theorem State.commitHalf_lockView (s : State) (h : Nat) : (s.commitHalf h).sys.lockView = s.sys.lockView := by
  unfold State.commitHalf
  split <;> simp

@[simp] theorem State.ckptVerdict_lockView (s : State) :
    (s.ckptVerdict).sys.lockView = s.sys.lockView := by simp [State.ckptVerdict]

@[simp] theorem State.pullFrom_lockView (s : State) (ab : Nat) : (s.pullFrom ab).sys.lockView = s.sys.lockView := by
  unfold State.pullFrom
  split <;> simp

@[simp] theorem execPullReq_lockView (p : Fin 7) (vc : BitVec 3) (s : State) :
    (onward s (execPullReq p vc s)).sys.lockView = s.sys.lockView := by
  unfold execPullReq
  split
  · next h => exact State.openCkpt_fst_lockView h
  · next h =>
    rw [← State.openCkpt_fst_lockView h]
    split
    · simp
    · dsimp only
      split
      · simp
      · split
        · simp
        · rw [onward_next, foldl_lockView]
          · simp
          · intro t i
            dsimp only
            split <;> simp

@[simp] theorem State.shardWrite_lockView (s : State) (x : CkptShard) (off : Nat) (data : List Byte) :
    (s.shardWrite x off data).sys.lockView = s.sys.lockView := by simp [State.shardWrite]

@[simp] theorem State.setPull_lockView (s : State) (ab : Nat) (u : PullSt) :
    (s.setPull ab u).sys.lockView = s.sys.lockView := rfl

@[simp] theorem execPullData_lockView (p : Fin 7) (vc : BitVec 3) (s : State) :
    (onward s (execPullData p vc s)).sys.lockView = s.sys.lockView := by
  unfold execPullData
  split
  · next h => exact State.openCkpt_fst_lockView h
  · next h =>
    rw [← State.openCkpt_fst_lockView h]
    dsimp only
    repeat' split
    all_goals simp

@[simp] theorem execPullEnd_lockView (p : Fin 7) (vc : BitVec 3) (s : State) :
    (onward s (execPullEnd p vc s)).sys.lockView = s.sys.lockView := by
  unfold execPullEnd
  split
  · next h => exact State.openCkpt_fst_lockView h
  · next h =>
    rw [← State.openCkpt_fst_lockView h]
    dsimp only
    repeat' split
    all_goals simp

@[simp] theorem execRestoreTimeout_lockView (b : Bool) (s : State) :
    (onward s (execRestoreTimeout b s)).sys.lockView = s.sys.lockView := by
  unfold execRestoreTimeout
  split <;> simp

@[simp] theorem State.ckptCtrl_lockView (s : State) (f : Fn) (v : Word) :
    (s.ckptCtrl f v).sys.lockView = s.sys.lockView := by
  unfold State.ckptCtrl
  split
  · next h => simp [State.openAt_error_lockView h]
  · simp

@[simp] theorem execCkptTake_lockView (f : Fn) (v : Word) (s : State) :
    (onward s (execCkptTake f v s)).sys.lockView = s.sys.lockView := by simp [execCkptTake]

@[simp] theorem execCkptFull_lockView (f : Fn) (v : Word) (s : State) :
    (onward s (execCkptFull f v s)).sys.lockView = s.sys.lockView := by simp [execCkptFull]

@[simp] theorem execCkptRestore_lockView (f : Fn) (v : Word) (s : State) :
    (onward s (execCkptRestore f v s)).sys.lockView = s.sys.lockView := by simp [execCkptRestore]

/-! ### `Machine/Coll` -/

@[simp] theorem State.sendColl_lockView (s : State) (n p : Nat) (phase : BitVec 4) (off : Nat) (data : List Byte) :
    (s.sendColl n p phase off data).sys.lockView = s.sys.lockView := by
  unfold State.sendColl
  dsimp only
  split <;> simp

@[simp] theorem State.sendCollData_lockView (s : State) (n p : Nat) (phase : BitVec 4) (base : Nat) (data : List Byte) :
    (s.sendCollData n p phase base data).sys.lockView = s.sys.lockView := by simp [State.sendCollData]

@[simp] theorem State.openColl_lockView (s : State) (p : Nat) (vc : BitVec 3) (phase : BitVec 4)
    (seqOk : CollCtx → BitVec 12 → Bool) :
    (s.openColl p vc phase seqOk).1.sys.lockView = s.sys.lockView := by
  unfold State.openColl
  split
  · next h => exact State.openPacket_fst_lockView h
  · next h =>
    rw [← State.openPacket_fst_lockView h]
    simp only [apply_ite Prod.fst, ite_lockView]
    simp

theorem State.openColl_fst_lockView {s : State} {p : Nat} {vc : BitVec 3} {phase : BitVec 4}
    {seqOk : CollCtx → BitVec 12 → Bool} {t : State} {o : Option (Nat × Nat × Packet)}
    (h : s.openColl p vc phase seqOk = (t, o)) :
    t.sys.lockView = s.sys.lockView := by
  have := State.openColl_lockView s p vc phase seqOk
  rwa [h] at this

theorem State.collWrite_lockView {s : State} {l : LRec} {k off : Nat} {data : List Byte} {t : State}
    (h : s.collWrite l k off data = some t) :
    t.sys.lockView = s.sys.lockView := by
  unfold State.collWrite at h
  grind [State.partWrite_lockView]

@[simp] theorem State.collUnion_lockView (s : State) (n : Nat) (own : List (Nat × List Byte)) :
    (s.collUnion n own).1.sys.lockView = s.sys.lockView := by
  unfold State.collUnion
  dsimp only
  split <;> simp

@[simp] theorem State.setKid_lockView (s : State) (n p : Nat) (k : CollChild) :
    (s.setKid n p k).sys.lockView = s.sys.lockView := rfl

@[simp] theorem State.collApply_lockView (s : State) :
    (s.collApply).sys.lockView = s.sys.lockView := by simp [State.collApply]

@[simp] theorem State.nextColl_lockView (s : State) (n : Nat) (last : Option CollLast) (commits : BitVec 64) :
    (s.nextColl n last commits).sys.lockView = s.sys.lockView := by simp [State.nextColl]

@[simp] theorem State.collFault_lockView (s : State) (n : Nat) (cause : BitVec 16) :
    (s.collFault n cause).sys.lockView = s.sys.lockView := by
  unfold State.collFault
  dsimp only
  repeat' split
  all_goals simp

@[simp] theorem State.collFinish_lockView (s : State) (n : Nat) : (s.collFinish n).sys.lockView = s.sys.lockView := by
  unfold State.collFinish
  dsimp only
  split <;> simp

@[simp] theorem State.detect_lockView (s : State) (x : BitVec 32) : (s.detect x).1.sys.lockView = s.sys.lockView := by
  unfold State.detect
  grind [State.bump_sys, State.setPr_sys]

@[simp] theorem State.applyVerdict_lockView (s : State) (pip : Bool) (mean : Option (BitVec 32)) :
    (s.applyVerdict pip mean).1.sys.lockView = s.sys.lockView := by
  unfold State.applyVerdict
  extract_lets c
  split
  next t pip' spike h =>
  have ht : t.sys.lockView = s.sys.lockView := by
    split at h
    · split at h
      · split at h
        · cases h
          rfl
        · cases h
          simp
      · cases h
        rfl
    · cases h
      rfl
  simp [ht]

@[simp] theorem State.verdictClose_lockView (s : State) (n : Nat) :
    (s.verdictClose n).sys.lockView = s.sys.lockView := by
  unfold State.verdictClose
  dsimp only
  split
  · split
    · split
      · split
        · next h => rw [State.collFinish_lockView, State.collWrite_lockView h]
        · simp
      · rfl
    · rfl
  · rfl

@[simp] theorem State.verdictDown_lockView (s : State) (n : Nat) (pip : Bool) (mean : Option (BitVec 32))
    (count : BitVec 64) :
    (s.verdictDown n pip mean count).sys.lockView = s.sys.lockView := by simp [State.verdictDown]

@[simp] theorem State.verdictStep_lockView (s : State) (n : Nat) : (s.verdictStep n).sys.lockView = s.sys.lockView := by
  unfold State.verdictStep
  split <;> simp

@[simp] theorem State.sendDown_lockView (s : State) (n : Nat) (l : Option LRec) (wire : List Byte)
    (contrib : BitVec 32) :
    (s.sendDown n l wire contrib).sys.lockView = s.sys.lockView := by simp [State.sendDown]

@[simp] theorem State.serveLate_lockView (s : State) (n : Nat) (wire : List Byte) :
    (s.serveLate n wire).sys.lockView = s.sys.lockView := by simp [State.serveLate]

theorem State.carryCommit_lockView {s : State} {l : LRec} {r : CollRun} {t : State} (h : s.carryCommit l r = some t) :
    t.sys.lockView = s.sys.lockView := by
  unfold State.carryCommit at h
  split at h
  · split at h
    · next hw => rw [State.collWrite_lockView h, State.collWrite_lockView hw]
    · cases h
  · split at h
    · exact State.collWrite_lockView h
    · cases h
      rfl

@[simp] theorem State.collLand_lockView (s : State) (n : Nat) (l : LRec) (wire : List Byte) (contrib : BitVec 32) :
    (s.collLand n l wire contrib).sys.lockView = s.sys.lockView := by
  unfold State.collLand
  dsimp only
  split
  · rfl
  · split
    · simp
    · next ht =>
      split at ht
      · next hu =>
        split at ht
        · next hw =>
          have h1 := (State.carryCommit_lockView ht).trans (State.collWrite_lockView hw)
          split at hu
          · rw [State.collWrite_lockView hu] at h1
            split <;> simp_all
          · cases hu
            split <;> simp_all
        · cases ht
      · cases ht

@[simp] theorem State.collRefused_lockView (s : State) (n : Nat) (l : LRec) (r : CollRun) (xs : List (BitVec 32))
    (u : UpEnd) :
    (s.collRefused n l r xs u).sys.lockView = s.sys.lockView := by simp [State.collRefused]

@[simp] theorem State.collUp_lockView (s : State) (n : Nat) (l : LRec) (r : CollRun) :
    (s.collUp n l r).sys.lockView = s.sys.lockView := by
  unfold State.collUp
  dsimp only
  split
  · simp
  · split
    · simp
    · next t xs wire hpart =>
      have ht : t.sys.lockView = s.sys.lockView := by
        split at hpart
        · obtain ⟨ys, -, ⟨⟩⟩ := Option.map_eq_some_iff.1 hpart
          rfl
        · obtain ⟨bs, -, ⟨⟩⟩ := Option.map_eq_some_iff.1 hpart
          exact State.collUnion_lockView _ _ _
      split
      · simp [ht]
      · split <;> simp [ht]

@[simp] theorem State.collRefuseLate_lockView (s : State) (n : Nat) (l : LRec) (r : CollRun) :
    (s.collRefuseLate n l r).sys.lockView = s.sys.lockView := by
  unfold State.collRefuseLate
  split <;> simp

@[simp] theorem State.collDown_lockView (s : State) (n : Nat) (l : LRec) (r : CollRun) :
    (s.collDown n l r).sys.lockView = s.sys.lockView := by
  unfold State.collDown
  dsimp only
  split <;> simp

@[simp] theorem State.snapStart_lockView (s : State) (n : Nat) :
    (s.snapStart n).sys.lockView = s.sys.lockView := by simp [State.snapStart]

@[simp] theorem State.snapStep_lockView (s : State) (n : Nat) (l : LRec) :
    (s.snapStep n l).sys.lockView = s.sys.lockView := by
  unfold State.snapStep
  extract_lets s1
  have h1 : s1.sys.lockView = s.sys.lockView := by simp [s1]
  split
  · exact h1
  · split
    · split
      · next h => rw [State.collFinish_lockView, State.collWrite_lockView h, h1]
      · rw [State.collFault_lockView, h1]
    · exact h1

@[simp] theorem State.barrierStep_lockView (s : State) (n : Nat) (own : Bool) :
    (s.barrierStep n own).sys.lockView = s.sys.lockView := by simp [State.barrierStep]

@[simp] theorem State.broadcastStep_lockView (s : State) (n : Nat) (l : LRec) (r : CollRun) :
    (s.broadcastStep n l r).sys.lockView = s.sys.lockView := by
  unfold State.broadcastStep
  repeat' split
  all_goals simp

@[simp] theorem State.forwardStep_lockView (s : State) (n : Nat) : (s.forwardStep n).sys.lockView = s.sys.lockView := by
  unfold State.forwardStep
  dsimp only
  split <;> simp

@[simp] theorem State.collStep_lockView (s : State) (n : Nat) : (s.collStep n).sys.lockView = s.sys.lockView := by
  unfold State.collStep
  dsimp only
  repeat' split
  all_goals simp

@[simp] theorem State.collStart_lockView (s : State) (op : BitVec 8) (r : RecRef) :
    (s.collStart op r).sys.lockView = s.sys.lockView := by simp [State.collStart]

@[simp] theorem execAllReduce_lockView (r : RecRef) (s : State) :
    (onward s (execAllReduce r s)).sys.lockView = s.sys.lockView := by simp [execAllReduce]

@[simp] theorem execReduceScatter_lockView (r : RecRef) (s : State) :
    (onward s (execReduceScatter r s)).sys.lockView = s.sys.lockView := by simp [execReduceScatter]

@[simp] theorem execAllGather_lockView (r : RecRef) (s : State) :
    (onward s (execAllGather r s)).sys.lockView = s.sys.lockView := by simp [execAllGather]

@[simp] theorem execBroadcast_lockView (r : RecRef) (s : State) :
    (onward s (execBroadcast r s)).sys.lockView = s.sys.lockView := by simp [execBroadcast]

@[simp] theorem execBarrier_lockView (r : RecRef) (s : State) :
    (onward s (execBarrier r s)).sys.lockView = s.sys.lockView := by simp [execBarrier]

@[simp] theorem execSnapshot_lockView (r : RecRef) (s : State) :
    (onward s (execSnapshot r s)).sys.lockView = s.sys.lockView := by simp [execSnapshot]

@[simp] theorem State.collTear_lockView (s : State) (n : Nat) :
    (s.collTear n).sys.lockView = s.sys.lockView := by simp [State.collTear]

@[simp] theorem State.collAbandon_lockView (s : State) (sel : RecRef → Bool) :
    (s.collAbandon sel).sys.lockView = s.sys.lockView := by simp [State.collAbandon]

@[simp] theorem execUpData_lockView (p : Fin 7) (vc : BitVec 3) (s : State) :
    (onward s (execUpData p vc s)).sys.lockView = s.sys.lockView := by
  unfold execUpData
  split <;> next h => simp [State.openColl_fst_lockView h]

@[simp] theorem execUpEnd_lockView (p : Fin 7) (vc : BitVec 3) (s : State) :
    (onward s (execUpEnd p vc s)).sys.lockView = s.sys.lockView := by
  unfold execUpEnd
  split <;> next h => simp [State.openColl_fst_lockView h]

@[simp] theorem execDownData_lockView (p : Fin 7) (vc : BitVec 3) (s : State) :
    (onward s (execDownData p vc s)).sys.lockView = s.sys.lockView := by
  unfold execDownData
  split <;> next h => simp [State.openColl_fst_lockView h]

@[simp] theorem execDownEnd_lockView (p : Fin 7) (vc : BitVec 3) (s : State) :
    (onward s (execDownEnd p vc s)).sys.lockView = s.sys.lockView := by
  unfold execDownEnd
  split <;> next h => simp [State.openColl_fst_lockView h]

@[simp] theorem execCloseTime_lockView (n : Fin 16) (s : State) :
    (onward s (execCloseTime n s)).sys.lockView = s.sys.lockView := by
  unfold execCloseTime
  repeat' split
  all_goals simp

@[simp] theorem execRefuse_lockView (p : Fin 7) (vc : BitVec 3) (s : State) :
    (onward s (execRefuse p vc s)).sys.lockView = s.sys.lockView := by
  unfold execRefuse
  split <;> next h => simp [State.openColl_fst_lockView h]

@[simp] theorem execLateReq_lockView (p : Fin 7) (vc : BitVec 3) (s : State) :
    (onward s (execLateReq p vc s)).sys.lockView = s.sys.lockView := by
  unfold execLateReq
  split <;> next h => simp [State.openColl_fst_lockView h]

@[simp] theorem execLateData_lockView (p : Fin 7) (vc : BitVec 3) (s : State) :
    (onward s (execLateData p vc s)).sys.lockView = s.sys.lockView := by
  unfold execLateData
  split <;> next h => simp [State.openColl_fst_lockView h]

@[simp] theorem execLateLost_lockView (p : Fin 7) (vc : BitVec 3) (s : State) :
    (onward s (execLateLost p vc s)).sys.lockView = s.sys.lockView := by
  unfold execLateLost
  split <;> next h => simp [State.openColl_fst_lockView h]

@[simp] theorem execTorn_lockView (p : Fin 7) (vc : BitVec 3) (s : State) :
    (onward s (execTorn p vc s)).sys.lockView = s.sys.lockView := by
  unfold execTorn
  split <;> next h => simp [State.openColl_fst_lockView h]

@[simp] theorem execCollectiveTimeout_lockView (n : Fin 16) (s : State) :
    (onward s (execCollectiveTimeout n s)).sys.lockView = s.sys.lockView := by
  unfold execCollectiveTimeout
  repeat' split
  all_goals simp

@[simp] theorem execVerdictUp_lockView (p : Fin 7) (vc : BitVec 3) (s : State) :
    (onward s (execVerdictUp p vc s)).sys.lockView = s.sys.lockView := by
  unfold execVerdictUp
  split <;> next h => simp [State.openColl_fst_lockView h]

@[simp] theorem execVerdictDown_lockView (p : Fin 7) (vc : BitVec 3) (s : State) :
    (onward s (execVerdictDown p vc s)).sys.lockView = s.sys.lockView := by
  unfold execVerdictDown
  split <;> next h => simp [State.openColl_fst_lockView h]

@[simp] theorem execBarrierUp_lockView (p : Fin 7) (vc : BitVec 3) (s : State) :
    (onward s (execBarrierUp p vc s)).sys.lockView = s.sys.lockView := by
  unfold execBarrierUp
  split <;> next h => simp [State.openColl_fst_lockView h]

@[simp] theorem execBarrierDown_lockView (p : Fin 7) (vc : BitVec 3) (s : State) :
    (onward s (execBarrierDown p vc s)).sys.lockView = s.sys.lockView := by
  unfold execBarrierDown
  split <;> next h => simp [State.openColl_fst_lockView h]

@[simp] theorem execMarker_lockView (p : Fin 7) (vc : BitVec 3) (s : State) :
    (onward s (execMarker p vc s)).sys.lockView = s.sys.lockView := by
  unfold execMarker
  split
  · next h => simp [State.openColl_fst_lockView h]
  · next h =>
    dsimp only
    split <;> simp [State.openColl_fst_lockView h]

/-! ### `Machine/Fetch` -/

@[simp] theorem State.feNote_lockView (s : State) (p : Nat) (h : Handle) (off n : Nat) :
    (s.feNote p h off n).sys.lockView = s.sys.lockView := by simp [State.feNote]

theorem State.startEntry_lockView {s : State} {p q : Nat} {host : BitVec 512}
    {r : State × EntrySt × Option (BitVec 16)} (h : s.startEntry p q host = some r) :
    r.1.sys.lockView = s.sys.lockView := by
  unfold State.startEntry at h
  grind [State.feNote_lockView, State.setQueue_sys, State.charge_lockView]

@[simp] theorem State.fillRecs_lockView (s : State) (ref : RecRef) (gid : BitVec 10) (ent : BitVec 512)
    (buf : List Byte) (i n : Nat) :
    (s.fillRecs ref gid ent buf i n).1.sys.lockView = s.sys.lockView := by
  induction n generalizing s i with
  | zero => rfl
  | succ n ih => simp only [State.fillRecs]; split <;> simp [ih]

@[simp] theorem State.putHalf_lockView (s : State) (slot : Nat) (half : Bool) (recs : List LRec) :
    (s.putHalf slot half recs).sys.lockView = s.sys.lockView := by simp [State.putHalf]

@[simp] theorem State.fillWindow_lockView (s : State) (slot p q : Nat) (half : Bool) (e : EntrySt) (host : List Byte) :
    (s.fillWindow slot p q half e host).sys.lockView = s.sys.lockView := by
  unfold State.fillWindow
  dsimp only
  repeat' split
  all_goals simp

@[simp] theorem execRingEntryFetch_lockView (p : Fin 65) (hot half : Bool) (hostEntry : BitVec 512)
    (hostRecs : List (BitVec 512)) (s : State) :
    (onward s (execRingEntryFetch p hot half hostEntry hostRecs s)).sys.lockView = s.sys.lockView := by
  unfold execRingEntryFetch
  dsimp only
  split
  · rfl
  · split
    · rfl
    · split
      · simp
      · split
        · rfl
        · next h => simpa using State.startEntry_lockView h
        · next h => simpa using State.startEntry_lockView h

/-! ### `Machine/Job` -/

@[simp] theorem State.floodOut_lockView (s : State) (skip : Option Nat) (msg : List Byte) :
    (s.floodOut skip msg).sys.lockView = s.sys.lockView := foldl_lockView (fun s p => by split <;> simp) _ s

@[simp] theorem State.floodNote_lockView (s : State) (origin : BitVec 14) (ident : BitVec 16) :
    (s.floodNote origin ident).sys.lockView = s.sys.lockView := rfl

@[simp] theorem State.flood_lockView (s : State) (kind : Byte) :
    (s.flood kind).sys.lockView = s.sys.lockView := by simp [State.flood]

@[simp] theorem State.endInvocation_lockView (s : State) : (s.endInvocation).sys.lockView = s.sys.lockView := by
  unfold State.endInvocation
  dsimp only
  split <;> simp

@[simp] theorem State.clearStageCounters_lockView (s : State) :
    (s.clearStageCounters).sys.lockView = s.sys.lockView := by simp [State.clearStageCounters]

@[simp] theorem State.emptyStageQueue_lockView (s : State) (n : Nat) :
    (s.emptyStageQueue n).sys.lockView = s.sys.lockView := by simp [State.emptyStageQueue]

@[simp] theorem State.clearStage_lockView (s : State) :
    (s.clearStage).sys.lockView = s.sys.lockView := by simp [State.clearStage]

@[simp] theorem State.dropCollectives_lockView (s : State) :
    (s.dropCollectives).sys.lockView = s.sys.lockView := by simp [State.dropCollectives]

@[simp] theorem State.enterFaulted_lockView (s : State) (f : JobFault) :
    (s.enterFaulted f).sys.lockView = s.sys.lockView := by simp [State.enterFaulted]

@[simp] theorem State.jobFault_lockView (s : State) (f : JobFault) :
    (s.jobFault f).sys.lockView = s.sys.lockView := by simp [State.jobFault]

@[simp] theorem execJobFault_lockView (s : State) : (onward s (execJobFault s)).sys.lockView = s.sys.lockView := by
  unfold execJobFault
  split <;> simp

@[simp] theorem execStepBoundary_lockView (s : State) :
    (onward s (execStepBoundary s)).sys.lockView = s.sys.lockView := by
  unfold execStepBoundary
  split <;> simp

/-! ### `Machine/Reset` -/

@[simp] theorem State.pcieReset_lockView (s : State) : (s.pcieReset).sys.lockView = s.sys.lockView := rfl

/-! ### `Machine/LinkRows` -/

@[simp] theorem State.lossOf_lockView (s : State) (sent : Bool) (h : BitVec 128) :
    (s.lossOf sent h).sys.lockView = s.sys.lockView := by
  unfold State.lossOf
  repeat' split
  all_goals simp

@[simp] theorem State.endReceive_lockView (s : State) (p : Nat) : (s.endReceive p).sys.lockView = s.sys.lockView := by
  unfold State.endReceive
  dsimp only
  rw [foldl_lockView]
  · simp
  · intro t vc
    dsimp only
    repeat' split
    all_goals simp

@[simp] theorem State.endSendSeq_lockView (s : State) (p : Nat) (lost : TxFlit → Bool) :
    (s.endSendSeq p lost).sys.lockView = s.sys.lockView := by simp [State.endSendSeq]

@[simp] theorem State.reroute_lockView (s : State) (p : Nat) : (s.reroute p).sys.lockView = s.sys.lockView := by
  refine (foldl_lockView (fun t o => ?_) _ _).trans (by simp)
  split
  · split <;> simp
  · split <;> simp

@[simp] theorem State.portDown_lockView (s : State) (p : Nat) :
    (s.portDown p).sys.lockView = s.sys.lockView := by simp [State.portDown]

@[simp] theorem State.resync_lockView (s : State) (p : Nat) :
    (s.resync p).sys.lockView = s.sys.lockView := by simp [State.resync]

@[simp] theorem State.linkDown_lockView (s : State) (l : Nat) : (s.linkDown l).sys.lockView = s.sys.lockView := by
  unfold State.linkDown
  dsimp only
  split <;> simp

@[simp] theorem State.takeAck_lockView (s : State) (p : Nat) (a : BitVec 12) :
    (s.takeAck p a).sys.lockView = s.sys.lockView := by simp [State.takeAck]

@[simp] theorem State.resend_lockView (s : State) (l : Nat) (rpl : Bool) (x : List TxFlit) :
    (s.resend l rpl x).sys.lockView = s.sys.lockView := by
  induction x generalizing s rpl with
  | nil => rfl
  | cons f fs ih => simp [State.resend, ih]

@[simp] theorem State.noteReplay_lockView (s : State) :
    (s.noteReplay).sys.lockView = s.sys.lockView := by simp [State.noteReplay]

@[simp] theorem State.startReplay_lockView (s : State) (l : Nat) (sel : TxFlit → Bool) :
    (s.startReplay l sel).sys.lockView = s.sys.lockView := by
  unfold State.startReplay
  dsimp only
  repeat' split
  all_goals simp

@[simp] theorem State.takeNak_lockView (s : State) (l : Nat) (seq : BitVec 12) :
    (s.takeNak l seq).sys.lockView = s.sys.lockView := by simp [State.takeNak]

@[simp] theorem execNakReceive_lockView (l : Fin 16) (seq : BitVec 12) (s : State) :
    (onward s (execNakReceive l seq s)).sys.lockView = s.sys.lockView := by simp [execNakReceive]

@[simp] theorem execReplayTimeout_lockView (l : Fin 16) (s : State) :
    (onward s (execReplayTimeout l s)).sys.lockView = s.sys.lockView := by simp [execReplayTimeout]

@[simp] theorem execLinkLockLoss_lockView (l : Fin 16) (s : State) :
    (onward s (execLinkLockLoss l s)).sys.lockView = s.sys.lockView := by simp [execLinkLockLoss]

@[simp] theorem State.takeResync_lockView (s : State) (l : Nat) : (s.takeResync l).sys.lockView = s.sys.lockView := by
  unfold State.takeResync
  split <;> simp

@[simp] theorem State.takeResyncReply_lockView (s : State) (l : Nat) (last : Option (BitVec 12)) :
    (s.takeResyncReply l last).sys.lockView = s.sys.lockView := by
  unfold State.takeResyncReply
  split <;> simp

@[simp] theorem execResyncRequest_lockView (l : Fin 16) (s : State) :
    (onward s (execResyncRequest l s)).sys.lockView = s.sys.lockView := by simp [execResyncRequest]

@[simp] theorem execResyncReply_lockView (l : Fin 16) (last : Option (BitVec 12)) (s : State) :
    (onward s (execResyncReply l last s)).sys.lockView = s.sys.lockView := by simp [execResyncReply]

@[simp] theorem execResyncTimeout_lockView (p : Fin 6) (s : State) :
    (onward s (execResyncTimeout p s)).sys.lockView = s.sys.lockView := by simp [execResyncTimeout]

@[simp] theorem State.trainFrom_lockView (s : State) (l : Nat) (epoch : Bool) :
    (s.trainFrom l epoch).sys.lockView = s.sys.lockView := rfl

@[simp] theorem execLinkTrainStart_lockView (l : Fin 16) (s : State) :
    (onward s (execLinkTrainStart l s)).sys.lockView = s.sys.lockView := by simp [execLinkTrainStart]

@[simp] theorem execDownRetrain_lockView (l : Fin 16) (s : State) :
    (onward s (execDownRetrain l s)).sys.lockView = s.sys.lockView := by simp [execDownRetrain]

@[simp] theorem execPhyTrainDone_lockView (l : Fin 16) (s : State) :
    (onward s (execPhyTrainDone l s)).sys.lockView = s.sys.lockView := by simp [execPhyTrainDone]

@[simp] theorem State.flitSync_lockView (s : State) (l : Nat) : (s.flitSync l).sys.lockView = s.sys.lockView := by
  unfold State.flitSync
  dsimp only
  split <;> simp

@[simp] theorem execFecLock_lockView (l : Fin 16) (s : State) :
    (onward s (execFecLock l s)).sys.lockView = s.sys.lockView := by simp [execFecLock]

@[simp] theorem State.takeTrain_lockView (s : State) (l : Nat) (epoch : BitVec 8) :
    (s.takeTrain l epoch).sys.lockView = s.sys.lockView := by simp [State.takeTrain]

@[simp] theorem execTrain_lockView (l : Fin 16) (epoch : BitVec 8) (s : State) :
    (onward s (execTrain l epoch s)).sys.lockView = s.sys.lockView := by simp [execTrain]

@[simp] theorem execLnkRetrain_lockView (f : Fn) (l : Fin 16) (v : Word) (s : State) :
    (onward s (execLnkRetrain f l v s)).sys.lockView = s.sys.lockView := by
  unfold execLnkRetrain
  split
  · next h => simp [State.openAt_error_lockView h]
  · simp

@[simp] theorem execIdentSendTimer_lockView (l : Fin 16) (s : State) :
    (onward s (execIdentSendTimer l s)).sys.lockView = s.sys.lockView := by simp [execIdentSendTimer]

@[simp] theorem State.judge_lockView (s : State) (l : Nat) : (s.judge l).sys.lockView = s.sys.lockView := by
  unfold State.judge
  dsimp only
  repeat' split
  all_goals simp

@[simp] theorem execQuinceJudge_lockView (l : Fin 16) (s : State) :
    (onward s (execQuinceJudge l s)).sys.lockView = s.sys.lockView := by simp [execQuinceJudge]

@[simp] theorem State.takeIdent_lockView (s : State) (l : Nat) (serial : BitVec 64) (phys : BitVec 14)
    (port : BitVec 4) (logical : BitVec 14) (dir : BitVec 3) :
    (s.takeIdent l serial phys port logical dir).sys.lockView = s.sys.lockView := by simp [State.takeIdent]

@[simp] theorem execIdent_lockView (l : Fin 16) (serial : BitVec 64) (phys : BitVec 14) (port : BitVec 4)
    (logical : BitVec 14) (dir : BitVec 3) (s : State) :
    (onward s (execIdent l serial phys port logical dir s)).sys.lockView = s.sys.lockView := by simp [execIdent]

@[simp] theorem State.hearFlood_lockView (s : State) (l : Nat) (kind : Byte) (origin : BitVec 14) (ident : BitVec 16)
    (step : BitVec 64) :
    (s.hearFlood l kind origin ident step).2.sys.lockView = s.sys.lockView := by
  unfold State.hearFlood
  split <;> simp

@[simp] theorem State.takeFloodJob_lockView (s : State) (l : Nat) (origin : BitVec 14) (ident : BitVec 16)
    (step : BitVec 64) :
    (s.takeFloodJob l origin ident step).sys.lockView = s.sys.lockView := by simp [State.takeFloodJob]

@[simp] theorem execFloodJobFault_lockView (l : Fin 16) (origin : BitVec 14) (ident : BitVec 16) (step : BitVec 64)
    (s : State) :
    (onward s (execFloodJobFault l origin ident step s)).sys.lockView = s.sys.lockView := by simp [execFloodJobFault]

@[simp] theorem State.deliverFlits_lockView (s : State) (p n : Nat) :
    (s.deliverFlits p n).sys.lockView = s.sys.lockView := by
  induction n generalizing s with
  | zero => rfl
  | succ n ih =>
    simp only [State.deliverFlits]
    repeat' split
    all_goals simp [ih]

@[simp] theorem State.takeData_lockView (s : State) (l p : Nat) (f : Flit) :
    (s.takeData l p f).sys.lockView = s.sys.lockView := by simp [State.takeData]

@[simp] theorem State.takeBad_lockView (s : State) (l : Nat) (fec : Bool) :
    (s.takeBad l fec).sys.lockView = s.sys.lockView := by simp [State.takeBad]

@[simp] theorem State.takeHeader_lockView (s : State) (l p : Nat) (h : BitVec 64) :
    (s.takeHeader l p h).sys.lockView = s.sys.lockView := by simp [State.takeHeader]

@[simp] theorem execQueuePtrMismatch_lockView (q : QInst) (s : State) :
    (onward s (execQueuePtrMismatch q s)).sys.lockView = s.sys.lockView := by
  unfold execQueuePtrMismatch
  repeat' split
  all_goals simp

@[simp] theorem State.epochStart_lockView (s : State) :
    (s.epochStart).sys.lockView = s.sys.lockView := by simp [State.epochStart]

@[simp] theorem State.epochLink_lockView (s : State) (l : Nat) :
    (s.epochLink l).sys.lockView = s.sys.lockView := by simp [State.epochLink]

@[simp] theorem State.epochFields_lockView (s : State) :
    (s.epochFields).sys.lockView = s.sys.lockView := by simp [State.epochFields]

@[simp] theorem State.epochApply_lockView (s : State) :
    (s.epochApply).sys.lockView = s.sys.lockView := by simp [State.epochApply]

/-! ### `Machine/Part` -/

@[simp] theorem State.fillTokens_lockView (s : State) (p : Nat) : (s.fillTokens p).sys.lockView = s.sys.lockView := rfl

@[simp] theorem State.refillOne_lockView (s : State) (p r n : Nat) :
    (s.refillOne p r n).sys.lockView = s.sys.lockView := rfl

@[simp] theorem State.evalOversub_lockView (s : State) :
    (s.evalOversub).sys.lockView = s.sys.lockView := by simp [State.evalOversub]

@[simp] theorem State.payWord_lockView (s : State) (p paid n : Nat) :
    (s.payWord p paid n).1.sys.lockView = s.sys.lockView := by
  induction n generalizing s paid with
  | zero => rfl
  | succ n ih => simp only [State.payWord]; split <;> simp [ih]

theorem State.payWord_fst_lockView {s : State} {p paid n : Nat} {t : State} {o : Nat}
    (h : s.payWord p paid n = (t, o)) :
    t.sys.lockView = s.sys.lockView := by
  have := State.payWord_lockView s p paid n
  rwa [h] at this

@[simp] theorem State.ingestStart_lockView (s : State) (p : Nat) : (s.ingestStart p).sys.lockView = s.sys.lockView := by
  unfold State.ingestStart
  split
  · rfl
  · split
    · rfl
    · split
      next h =>
      rw [← State.payWord_fst_lockView h]
      dsimp only
      split
      · simp
      · split
        · simp
        · rw [State.logAer_lockView, State.setPart_sys]

@[simp] theorem execRegulatorRefill_lockView (s : State) :
    (onward s (execRegulatorRefill s)).sys.lockView = s.sys.lockView := by simp [execRegulatorRefill]

@[simp] theorem execIngestPost_lockView (f : Fn) (p : Fin 64) (v : Word) (s : State) :
    (onward s (execIngestPost f p v s)).sys.lockView = s.sys.lockView := by
  unfold execIngestPost
  split
  · next h => simp [State.openAt_error_lockView h]
  · split <;> simp

@[simp] theorem State.poisonPad_lockView (s : State) (a n : Nat) :
    (s.poisonPad a n).sys.lockView = s.sys.lockView := rfl

@[simp] theorem State.landWord_lockView (s : State) (p : Nat) (data : List Byte) (bad eoi : Bool) :
    (s.landWord p data bad eoi).sys.lockView = s.sys.lockView := by
  unfold State.landWord
  extract_lets q h a
  split
  next t b heq =>
  have ht : t.sys.lockView = s.sys.lockView := by
    split at heq
    · next u hu =>
      split at hu
      · cases heq
        split <;> simp [State.partWrite_lockView hu]
      · cases hu
    · cases heq
      simp
  simp [ht]

@[simp] theorem State.arrVid_lockView (s : State) (p : Nat) : (s.arrVid p).sys.lockView = s.sys.lockView := by
  unfold State.arrVid
  split <;> simp

@[simp] theorem execIngestLanded_lockView (p : Fin 64) (s : State) :
    (onward s (execIngestLanded p s)).sys.lockView = s.sys.lockView := by
  unfold execIngestLanded
  dsimp only
  split <;> simp

@[simp] theorem State.clearCluster_lockView (s : State) (c : Nat) :
    (s.clearCluster c).sys.lockView = s.sys.lockView := by simp [State.clearCluster]

@[simp] theorem State.clearPartCounters_lockView (s : State) (p : Nat) :
    (s.clearPartCounters p).sys.lockView = s.sys.lockView := by simp [State.clearPartCounters]

@[simp] theorem State.dropCommands_lockView (s : State) (p : Nat) :
    (s.dropCommands p).sys.lockView = s.sys.lockView := rfl

@[simp] theorem State.freshTables_lockView (s : State) (p : Nat) :
    (s.freshTables p).sys.lockView = s.sys.lockView := rfl

@[simp] theorem State.dropIngest_lockView (s : State) (p : Nat) :
    (s.dropIngest p).sys.lockView = s.sys.lockView := by simp [State.dropIngest]

@[simp] theorem State.newKey_lockView (s : State) (slot : Nat) : (s.newKey slot).sys.lockView = s.sys.lockView := rfl

@[simp] theorem State.partConfigure_lockView (s : State) (f : Fn) (t : Target) (p : Nat) :
    (s.partConfigure f t p).sys.lockView = s.sys.lockView := by simp [State.partConfigure]

@[simp] theorem State.partUnconfigure_lockView (s : State) (f : Fn) (t : Target) (p : Nat) :
    (s.partUnconfigure f t p).sys.lockView = s.sys.lockView := by simp [State.partUnconfigure]

@[simp] theorem execPartConfigure_lockView (f : Fn) (p : Fin 64) (s : State) :
    (onward s (execPartConfigure f p s)).sys.lockView = s.sys.lockView := by
  unfold execPartConfigure
  split
  · next h => simp [State.openAt_error_lockView h]
  · simp

@[simp] theorem execPartUnconfigure_lockView (f : Fn) (p : Fin 64) (s : State) :
    (onward s (execPartUnconfigure f p s)).sys.lockView = s.sys.lockView := by
  unfold execPartUnconfigure
  split
  · next h => simp [State.openAt_error_lockView h]
  · simp

@[simp] theorem State.jobReset_lockView (s : State) (p : Nat) :
    (s.jobReset p).sys.lockView = s.sys.lockView := by simp [State.jobReset]

@[simp] theorem State.wipeOwn_lockView (s : State) (p : Nat) :
    (s.wipeOwn p).sys.lockView = s.sys.lockView := by simp [State.wipeOwn]

@[simp] theorem State.scrubAll_lockView (s : State) (p : Nat) : (s.scrubAll p).sys.lockView = s.sys.lockView := rfl

@[simp] theorem State.resetPart_lockView (s : State) (p : Nat) :
    (s.resetPart p).sys.lockView = s.sys.lockView := by simp [State.resetPart]

@[simp] theorem State.partReset_lockView (s : State) (p : Nat) : (s.partReset p).sys.lockView = s.sys.lockView := by
  unfold State.partReset
  split <;> simp

@[simp] theorem execPartReset_lockView (f : Fn) (p : Fin 64) (s : State) :
    (onward s (execPartReset f p s)).sys.lockView = s.sys.lockView := by
  unfold execPartReset
  split
  · next h => simp [State.openAt_error_lockView h]
  · simp

@[simp] theorem State.resetFn_lockView (s : State) (f : Nat) : (s.resetFn f).sys.lockView = s.sys.lockView := rfl

@[simp] theorem execVfFlr_lockView (p : Fin 64) (s : State) :
    (onward s (execVfFlr p s)).sys.lockView = s.sys.lockView := by simp [execVfFlr]

@[simp] theorem execVfEnableChange_lockView (en : Bool) (n : BitVec 16) (s : State) :
    (onward s (execVfEnableChange en n s)).sys.lockView = s.sys.lockView := by simp [execVfEnableChange]

@[simp] theorem State.takeBanks_lockView (s : State) (c : Nat) (p : Fin 64) :
    (s.takeBanks c p).sys.lockView = s.sys.lockView := by simp [State.takeBanks]

@[simp] theorem State.cluCmd_lockView (s : State) (f : Fn) (t : Target) (p : Fin 64) (op : BitVec 2) (c exp : Fin 64) :
    (s.cluCmd f t p op c exp).sys.lockView = s.sys.lockView := by simp [State.cluCmd]

@[simp] theorem execClusterTake_lockView (f : Fn) (p c : Fin 64) (s : State) :
    (onward s (execClusterTake f p c s)).sys.lockView = s.sys.lockView := by
  unfold execClusterTake
  split
  · next h => simp [State.openAt_error_lockView h]
  · simp

@[simp] theorem execClusterReturn_lockView (f : Fn) (p c : Fin 64) (s : State) :
    (onward s (execClusterReturn f p c s)).sys.lockView = s.sys.lockView := by
  unfold execClusterReturn
  split
  · next h => simp [State.openAt_error_lockView h]
  · simp

@[simp] theorem execClusterMove_lockView (f : Fn) (p c exp : Fin 64) (s : State) :
    (onward s (execClusterMove f p c exp s)).sys.lockView = s.sys.lockView := by
  unfold execClusterMove
  split
  · next h => simp [State.openAt_error_lockView h]
  · simp

@[simp] theorem execClusterOpDone_lockView (p : Fin 64) (s : State) :
    (onward s (execClusterOpDone p s)).sys.lockView = s.sys.lockView := by
  unfold execClusterOpDone
  dsimp only
  split <;> simp

@[simp] theorem State.ctxTake_lockView (s : State) (p c : Nat) :
    (s.ctxTake p c).sys.lockView = s.sys.lockView := by simp [State.ctxTake]

@[simp] theorem State.ctxRefuse_lockView (s : State) (f : Fn) (t : Target) (p c : Nat) (err : BitVec 4) :
    (s.ctxRefuse f t p c err).sys.lockView = s.sys.lockView := by simp [State.ctxRefuse]

@[simp] theorem State.ctxRun_lockView (s : State) (p c : Nat) : (s.ctxRun p c).sys.lockView = s.sys.lockView := rfl

@[simp] theorem execCtxCreate_lockView (f : Fn) (p : Fin 64) (s : State) :
    (onward s (execCtxCreate f p s)).sys.lockView = s.sys.lockView := by
  unfold execCtxCreate
  split
  · next h => simp [State.openAt_error_lockView h]
  · simp

@[simp] theorem execCtxDestroy_lockView (f : Fn) (p : Fin 64) (s : State) :
    (onward s (execCtxDestroy f p s)).sys.lockView = s.sys.lockView := by
  unfold execCtxDestroy
  split
  · next h => simp [State.openAt_error_lockView h]
  · simp

@[simp] theorem State.saveHeld_lockView (s : State) (p c : Nat) : (s.saveHeld p c).sys.lockView = s.sys.lockView := rfl

@[simp] theorem State.beginSave_lockView (s : State) (p c : Nat) (suspend : Bool) :
    (s.beginSave p c suspend).sys.lockView = s.sys.lockView := by
  unfold State.beginSave
  dsimp only
  split <;> simp

@[simp] theorem State.switchFrom_lockView (s : State) (p c : Nat) (suspend : Bool) :
    (s.switchFrom p c suspend).sys.lockView = s.sys.lockView := by simp [State.switchFrom]

@[simp] theorem execCtxSuspend_lockView (f : Fn) (p : Fin 64) (s : State) :
    (onward s (execCtxSuspend f p s)).sys.lockView = s.sys.lockView := by
  unfold execCtxSuspend
  split
  · next h => simp [State.openAt_error_lockView h]
  · dsimp only
    split <;> simp

@[simp] theorem execCtxResume_lockView (f : Fn) (p : Fin 64) (s : State) :
    (onward s (execCtxResume f p s)).sys.lockView = s.sys.lockView := by
  unfold execCtxResume
  split
  · next h => simp [State.openAt_error_lockView h]
  · simp

@[simp] theorem execQuantumExpiry_lockView (p : Fin 64) (s : State) :
    (onward s (execQuantumExpiry p s)).sys.lockView = s.sys.lockView := by
  unfold execQuantumExpiry
  dsimp only
  repeat' split
  all_goals simp

@[simp] theorem State.beginRestore_lockView (s : State) (p c : Nat) :
    (s.beginRestore p c).sys.lockView = s.sys.lockView := rfl

@[simp] theorem execContextYield_lockView (p : Fin 64) (s : State) :
    (onward s (execContextYield p s)).sys.lockView = s.sys.lockView := by
  unfold execContextYield
  dsimp only
  repeat' split
  all_goals simp

@[simp] theorem State.savePut_lockView (s : State) (p c off : Nat) (data : List Byte) :
    (s.savePut p c off data).sys.lockView = s.sys.lockView := by simp [State.savePut]

@[simp] theorem State.loseQueue_lockView (s : State) (p q : Nat) :
    (s.loseQueue p q).sys.lockView = s.sys.lockView := by simp [State.loseQueue]

@[simp] theorem State.loseCtx_lockView (s : State) (p c : Nat) :
    (s.loseCtx p c).sys.lockView = s.sys.lockView := by simp [State.loseCtx]

@[simp] theorem State.saveTime_lockView (s : State) (p c : Nat) :
    (s.saveTime p c).sys.lockView = s.sys.lockView := by simp [State.saveTime]

@[simp] theorem State.switchTo_lockView (s : State) (p c : Nat) : (s.switchTo p c).sys.lockView = s.sys.lockView := by
  unfold State.switchTo
  dsimp only
  split <;> simp

@[simp] theorem State.saveGangs_lockView (s : State) (p c : Nat) :
    (s.saveGangs p c).sys.lockView = s.sys.lockView := by simp [State.saveGangs]

@[simp] theorem execCtxSaveDone_lockView (p : Fin 64) (s : State) :
    (onward s (execCtxSaveDone p s)).sys.lockView = s.sys.lockView := by
  unfold execCtxSaveDone
  repeat' split
  all_goals simp

theorem State.restoreSets_lockView {s : State} {p c : Nat} {t : State} (h : s.restoreSets p c = some t) :
    t.sys.lockView = s.sys.lockView := by
  unfold State.restoreSets at h
  dsimp only at h
  split at h
  · cases h
    rfl
  · refine foldl_some_lockView (fun o e u hu => ?_) (by rintro u ⟨⟩; rfl) h
    split at hu
    · cases hu
    · next t =>
      refine ⟨t, rfl, ?_⟩
      split at hu
      · split at hu
        · exact State.partWrite_lockView hu
        · cases hu
      · cases hu

@[simp] theorem State.restoreHeld_lockView (s : State) (p c : Nat) :
    (s.restoreHeld p c).sys.lockView = s.sys.lockView := by
  unfold State.restoreHeld
  dsimp only
  split <;> simp

@[simp] theorem execCtxRestoreDone_lockView (p : Fin 64) (s : State) :
    (onward s (execCtxRestoreDone p s)).sys.lockView = s.sys.lockView := by
  unfold execCtxRestoreDone
  dsimp only
  split
  · rfl
  · split
    · rfl
    · split
      · simp
      · next ht =>
        split at ht
        · simp [State.restoreSets_lockView ht]
        · cases ht

/-! ### `Machine/Rel` -/

@[simp] theorem execErrFirstClr_lockView (f : Fn) (s : State) :
    (onward s (execErrFirstClr f s)).sys.lockView = s.sys.lockView := by
  unfold execErrFirstClr
  split
  · next h => simp [State.openAt_error_lockView h]
  · simp

@[simp] theorem execErrPop_lockView (f : Fn) (s : State) :
    (onward s (execErrPop f s)).sys.lockView = s.sys.lockView := by
  unfold execErrPop
  split
  · next h => simp [State.openAt_error_lockView h]
  · simp

@[simp] theorem State.sloeFinding_lockView (s : State) : (s.sloeFinding).sys.lockView = s.sys.lockView := rfl

@[simp] theorem State.sramCe_lockView (s : State) (b row syndrome n : Nat) :
    (s.sramCe b row syndrome n).sys.lockView = s.sys.lockView := by simp [State.sramCe]

@[simp] theorem State.poisonWord_lockView (s : State) (w : Nat) : (s.poisonWord w).sys.lockView = s.sys.lockView := rfl

@[simp] theorem State.judgeRow_lockView (s : State) (b row : Nat) (x : SloeFind) :
    (s.judgeRow b row x).sys.lockView = s.sys.lockView := by
  unfold State.judgeRow
  dsimp only
  repeat' split
  all_goals simp

@[simp] theorem State.testRow_lockView (s : State) (b row : Nat) (x : SloeFind) :
    (s.testRow b row x).sys.lockView = s.sys.lockView := by
  unfold State.testRow
  split
  · rfl
  · split
    · split
      · rfl
      · exact State.judgeRow_lockView s b row x
    · extract_lets e
      split
      · exact State.judgeRow_lockView s b e.row.toNat x
      · split <;> rfl

@[simp] theorem execSloeRowTest_lockView (ahead : Option (Fin 65536 × Fin 1024))
    (found : List (Fin 65536 × SloeFind)) (s : State) :
    (onward s (execSloeRowTest ahead found s)).sys.lockView = s.sys.lockView := by
  unfold execSloeRowTest
  split
  · rfl
  · split
    · split <;> simp
    · extract_lets interval
      split
      · rfl
      · next known s1 s2 row s3 sloe _ =>
        have hw : KeepsView fun (t : State) (e : Fin 65536 × SloeFind) => t.testRow e.1.val t.sloe.row e.2 := by simp
        have hk : KeepsView fun (t : State) (b : Nat) => t.testRow b t.sloe.row ⟨.clean, 0, 0⟩ :=
          fun t b => t.testRow_lockView b _ _
        have h1 : s1.sys.lockView = s.sys.lockView := foldl_lockView hw _ _
        have h2 : s2.sys.lockView = s1.sys.lockView := foldl_lockView hk _ _
        have h3 : s3.sys.lockView = s2.sys.lockView := by unfold s3; split <;> simp
        exact (h3.trans h2).trans h1

@[simp] theorem execSloePatrol_lockView (x : PatrolRead) (s : State) :
    (onward s (execSloePatrol x s)).sys.lockView = s.sys.lockView := by simp [execSloePatrol]

@[simp] theorem State.regionFault_lockView (s : State) (r : Nat) :
    (s.regionFault r).sys.lockView = s.sys.lockView := by simp [State.regionFault]

@[simp] theorem execRegionFault_lockView (r : Fin 16) (s : State) :
    (onward s (execRegionFault r s)).sys.lockView = s.sys.lockView := by simp [execRegionFault]

@[simp] theorem State.unitFails_lockView (s : State) (src : BitVec 16) :
    (s.unitFails src).sys.lockView = s.sys.lockView := by
  unfold State.unitFails
  dsimp only
  repeat' split
  all_goals simp

@[simp] theorem State.wdogExpiry_lockView (s : State) (src : BitVec 16) (owner : Option (Fin 64)) (cause : BitVec 16)
    (loc : BitVec 64) :
    (s.wdogExpiry src owner cause loc).sys.lockView = s.sys.lockView := by simp [State.wdogExpiry]

@[simp] theorem execTransactionWatchdog_lockView (w : WdogAt) (s : State) :
    (onward s (execTransactionWatchdog w s)).sys.lockView = s.sys.lockView := by
  unfold execTransactionWatchdog
  dsimp only
  repeat' split
  all_goals simp

@[simp] theorem State.railLower_lockView (s : State) :
    (s.railLower).sys.lockView = s.sys.lockView := by simp [State.railLower]

@[simp] theorem State.runCommon_lockView (s : State) (f r : Nat) :
    (s.runCommon f r).sys.lockView = s.sys.lockView := rfl

@[simp] theorem State.runStage_lockView (s : State) :
    (s.runStage).sys.lockView = s.sys.lockView := by simp [State.runStage]

@[simp] theorem State.runPlanned_lockView (s : State) :
    (s.runPlanned).sys.lockView = s.sys.lockView := by simp [State.runPlanned]

@[simp] theorem State.planApplied_lockView (s : State) (r : Nat) (q : BitVec 11 × BitVec 10) :
    (s.planApplied r q).sys.lockView = s.sys.lockView := by
  simp only [State.planApplied, State.railLower_lockView, State.bump_sys, ite_lockView]
  simp

@[simp] theorem State.advancePlan_lockView (s : State) (r : Nat) : (s.advancePlan r).sys.lockView = s.sys.lockView := by
  unfold State.advancePlan
  dsimp only
  split <;> simp

@[simp] theorem State.takePlan_lockView (s : State) (r : Nat) (q : BitVec 11 × BitVec 10) :
    (s.takePlan r q).sys.lockView = s.sys.lockView := by
  unfold State.takePlan
  dsimp only
  split <;> simp

@[simp] theorem execReplan_lockView (r : Fin 16) (kv guard : BitVec 16) (s : State) :
    (onward s (execReplan r kv guard s)).sys.lockView = s.sys.lockView := by
  unfold execReplan
  dsimp only
  repeat' split
  all_goals simp

@[simp] theorem execRegionFreqApply_lockView (r : Fin 16) (s : State) :
    (onward s (execRegionFreqApply r s)).sys.lockView = s.sys.lockView := by
  unfold execRegionFreqApply
  dsimp only
  split <;> simp

@[simp] theorem State.takeReadings_lockView (s : State) (r n : Nat) (xs : List (Option Nat)) :
    (s.takeReadings r n xs).1.sys.lockView = s.sys.lockView := by
  induction xs generalizing s n with
  | nil => rfl
  | cons v vs ih =>
    simp only [State.takeReadings]
    repeat' split
    all_goals simp [ih]

@[simp] theorem State.critical_lockView (s : State) (r : Nat) :
    (s.critical r).sys.lockView = s.sys.lockView := by simp [State.critical]

@[simp] theorem execCanaryMeasure_lockView (r : Fin 16) (slacks : List (Option (BitVec 11)))
    (drifts : List (Option (BitVec 16))) (s : State) :
    (onward s (execCanaryMeasure r slacks drifts s)).sys.lockView = s.sys.lockView := by simp [execCanaryMeasure]

@[simp] theorem State.audit_lockView (s : State) (kind state : BitVec 8) (arg : BitVec 32) (used : Nat) :
    (s.audit kind state arg used).sys.lockView = s.sys.lockView := rfl

@[simp] theorem State.fuseRec_lockView (s : State) (seq : BitVec 16) :
    (s.fuseRec seq).sys.lockView = s.sys.lockView := by simp [State.fuseRec]

@[simp] theorem execFuseBlowDone_lockView (ok : Bool) (s : State) :
    (onward s (execFuseBlowDone ok s)).sys.lockView = s.sys.lockView := by
  unfold execFuseBlowDone
  split <;> simp

/-! ### `Machine/Boot` -/

@[simp] theorem State.inputRec_lockView (s : State) :
    (s.inputRec).sys.lockView = s.sys.lockView := by simp [State.inputRec]

@[simp] theorem State.settleFuses_lockView (s : State) (blown : Bool) :
    (s.settleFuses blown).sys.lockView = s.sys.lockView := by
  unfold State.settleFuses
  split <;> simp

@[simp] theorem State.cellarReady_lockView (s : State) : (s.cellarReady).sys.lockView = s.sys.lockView := rfl

@[simp] theorem execPerstNRise_lockView (s : State) : (onward s (execPerstNRise s)).sys.lockView = s.sys.lockView := rfl

@[simp] theorem State.flushMsix_lockView (s : State) (f : Nat) :
    (s.flushMsix f).sys.lockView = s.sys.lockView := by simp [State.flushMsix]

@[simp] theorem State.flushAllMsix_lockView (s : State) :
    (s.flushAllMsix).sys.lockView = s.sys.lockView := by simp [State.flushAllMsix]

@[simp] theorem execConfigurationWrite_lockView (fn : Fin 65) (busMaster d3hot msixEnable msixMask : Bool) (s : State) :
    (onward s (execConfigurationWrite fn busMaster d3hot msixEnable msixMask s)).sys.lockView = s.sys.lockView :=
  by simp [execConfigurationWrite]

@[simp] theorem State.enterStage_lockView (s : State) : (s.enterStage).sys.lockView = s.sys.lockView := by
  unfold State.enterStage
  rw [State.raise_lockView, State.raise_lockView, State.clearRegs_sys, State.clearStageCounters_lockView]
  exact State.runStage_lockView s

@[simp] theorem State.stageRequest_lockView (s : State) (f : Fn) (t : Target) :
    (s.stageRequest f t).sys.lockView = s.sys.lockView := by simp [State.stageRequest]

@[simp] theorem State.partRequest_lockView (s : State) :
    (s.partRequest).sys.lockView = s.sys.lockView := by simp [State.partRequest]

@[simp] theorem execStageModeRequest_lockView (f : Fn) (s : State) :
    (onward s (execStageModeRequest f s)).sys.lockView = s.sys.lockView := by
  unfold execStageModeRequest
  split
  · next h => simp [State.openAt_error_lockView h]
  · simp

@[simp] theorem execPartitionedModeRequest_lockView (f : Fn) (s : State) :
    (onward s (execPartitionedModeRequest f s)).sys.lockView = s.sys.lockView := by
  unfold execPartitionedModeRequest
  split
  · next h => simp [State.openAt_error_lockView h]
  · simp

/-! ### `Machine/Power` -/

@[simp] theorem State.sharedRec_lockView (s : State) (src : BitVec 16) (detail : Nat) :
    (s.sharedRec src detail).sys.lockView = s.sys.lockView := by simp [State.sharedRec]

@[simp] theorem State.allLinksDown_lockView (s : State) :
    (s.allLinksDown).sys.lockView = s.sys.lockView := by simp [State.allLinksDown]

@[simp] theorem State.setSensor_lockView (s : State) (i : Nat) (x : Sensor) :
    (s.setSensor i x).sys.lockView = s.sys.lockView := rfl

@[simp] theorem State.sampleSensor_lockView (s : State) (i : Nat) (raw : BitVec 16) :
    (s.sampleSensor i raw).sys.lockView = s.sys.lockView := by simp [State.sampleSensor]

@[simp] theorem State.tripOn_lockView (s : State) (i : Nat) :
    (s.tripOn i).sys.lockView = s.sys.lockView := by simp [State.tripOn]

@[simp] theorem State.warnCheck_lockView (s : State) :
    (s.warnCheck).sys.lockView = s.sys.lockView := by simp [State.warnCheck]

@[simp] theorem execTempSample_lockView (raw : List (BitVec 16)) (s : State) :
    (onward s (execTempSample raw s)).sys.lockView = s.sys.lockView := by
  unfold execTempSample
  split
  · rfl
  · extract_lets s1 limit s2 s3
    have h1 : s1.sys.lockView = s.sys.lockView := foldl_lockView (fun t i => by split <;> simp) _ s
    have h3 : s3.sys.lockView = s.sys.lockView := by simp [s3, s2, h1]
    split <;> simp [h3]

@[simp] theorem State.raiseK_lockView (s : State) : (s.raiseK).sys.lockView = s.sys.lockView := by simp [State.raiseK]

@[simp] theorem State.capStaged_lockView (s : State) : (s.capStaged).sys.lockView = s.sys.lockView := by
  unfold State.capStaged
  dsimp only
  split <;> simp

@[simp] theorem State.capChecks_lockView (s : State) :
    (s.capChecks).sys.lockView = s.sys.lockView := by simp [State.capChecks]

@[simp] theorem execCapEval_lockView (p100us p10ms pClk : BitVec 16) (rails : List (Fin 9 × Word)) (s : State) :
    (onward s (execCapEval p100us p10ms pClk rails s)).sys.lockView = s.sys.lockView := by simp [execCapEval]

@[simp] theorem execRailExcursion_lockView (rail : Fin 9) (s : State) :
    (onward s (execRailExcursion rail s)).sys.lockView = s.sys.lockView := by simp [execRailExcursion]

@[simp] theorem execRailReturn_lockView (rail : Fin 9) (s : State) :
    (onward s (execRailReturn rail s)).sys.lockView = s.sys.lockView := by simp [execRailReturn]

@[simp] theorem State.railDone_lockView (s : State) (ok : Bool) :
    (s.railDone ok).sys.lockView = s.sys.lockView := by simp [State.railDone]

@[simp] theorem execArrayRailSettled_lockView (mv : BitVec 10) (s : State) :
    (onward s (execArrayRailSettled mv s)).sys.lockView = s.sys.lockView := by simp [execArrayRailSettled]

@[simp] theorem execArrayReqTimeout_lockView (s : State) :
    (onward s (execArrayReqTimeout s)).sys.lockView = s.sys.lockView := by simp [execArrayReqTimeout]

@[simp] theorem State.dropHostReads_lockView (s : State) :
    (s.dropHostReads).sys.lockView = s.sys.lockView := by simp [State.dropHostReads]

@[simp] theorem execRefclkLoss_lockView (c : Fin 3) (s : State) :
    (onward s (execRefclkLoss c s)).sys.lockView = s.sys.lockView := by simp [execRefclkLoss]

@[simp] theorem execRefclkReturn_lockView (c : Fin 3) (s : State) :
    (onward s (execRefclkReturn c s)).sys.lockView = s.sys.lockView := by simp [execRefclkReturn]

@[simp] theorem State.loadTime_lockView (s : State) (v : BitVec 64) :
    (s.loadTime v).sys.lockView = s.sys.lockView := rfl

@[simp] theorem State.tickMiss_lockView (s : State) :
    (s.tickMiss).sys.lockView = s.sys.lockView := by simp [State.tickMiss]

@[simp] theorem State.tickAccept_lockView (s : State) (e : Int) : (s.tickAccept e).sys.lockView = s.sys.lockView := rfl

@[simp] theorem execTickInEdge_lockView (s : State) : (onward s (execTickInEdge s)).sys.lockView = s.sys.lockView := by
  unfold execTickInEdge
  dsimp only
  repeat' split
  all_goals simp

@[simp] theorem execTickEdgeMissing_lockView (s : State) :
    (onward s (execTickEdgeMissing s)).sys.lockView = s.sys.lockView := by
  unfold execTickEdgeMissing
  split <;> simp

@[simp] theorem execTickSource_lockView (s : State) :
    (onward s (execTickSource s)).sys.lockView = s.sys.lockView := by simp [execTickSource]

@[simp] theorem State.timeSet_lockView (s : State) (f : Fn) (t : Target) (v : BitVec 64) :
    (s.timeSet f t v).sys.lockView = s.sys.lockView := by simp [State.timeSet]

@[simp] theorem execTimeSet_lockView (f : Fn) (wide : Bool) (v : BitVec 64) (s : State) :
    (onward s (execTimeSet f wide v s)).sys.lockView = s.sys.lockView := by
  unfold execTimeSet
  split
  · next h => simp [State.openAt_error_lockView h]
  · repeat' split
    all_goals simp

@[simp] theorem State.tickTime_lockView (s : State) : (s.tickTime).sys.lockView = s.sys.lockView := rfl

/-! ### `Machine/Mgmt` -/

@[simp] theorem State.smbEnd_lockView (s : State) (ack : Bool) (data : List Byte) :
    (s.smbEnd ack data).sys.lockView = s.sys.lockView := rfl

@[simp] theorem State.smbDone_lockView (s : State) (data : List Byte) :
    (s.smbDone data).sys.lockView = s.sys.lockView := rfl

@[simp] theorem State.smbRefuse_lockView (s : State) :
    (s.smbRefuse).sys.lockView = s.sys.lockView := by simp [State.smbRefuse]

@[simp] theorem State.smb_lockView (s : State) (k : State → State) :
    (s.smb k).sys.lockView = if s.smbUp then (k s).sys.lockView else s.sys.lockView := by simp [State.smb]

@[simp] theorem State.smbAdvance_lockView (s : State) : (s.smbAdvance).sys.lockView = s.sys.lockView := rfl

@[simp] theorem execSmbSetAddress_lockView (a : Word) (pecOk : Bool) (s : State) :
    (onward s (execSmbSetAddress a pecOk s)).sys.lockView = s.sys.lockView := by simp [execSmbSetAddress]

@[simp] theorem execSmbRead_lockView (s : State) :
    (onward s (execSmbRead s)).sys.lockView = s.sys.lockView := by simp [execSmbRead]

@[simp] theorem execSmbWrite_lockView (v : Word) (pecOk : Bool) (s : State) :
    (onward s (execSmbWrite v pecOk s)).sys.lockView = s.sys.lockView := by simp [execSmbWrite]

@[simp] theorem execSmbReadTemp_lockView (s : State) :
    (onward s (execSmbReadTemp s)).sys.lockView = s.sys.lockView := by
  unfold execSmbReadTemp
  rw [onward_next, State.smb_lockView]
  split
  · split <;> simp
  · rfl

@[simp] theorem execSmbReadPower_lockView (s : State) :
    (onward s (execSmbReadPower s)).sys.lockView = s.sys.lockView := by simp [execSmbReadPower]

@[simp] theorem execSmbReadSummary_lockView (s : State) :
    (onward s (execSmbReadSummary s)).sys.lockView = s.sys.lockView := by simp [execSmbReadSummary]

@[simp] theorem execSmbUnknownCommand_lockView (code : BitVec 8) (s : State) :
    (onward s (execSmbUnknownCommand code s)).sys.lockView = s.sys.lockView := by simp [execSmbUnknownCommand]

@[simp] theorem execSmbClockLowTimeout_lockView (s : State) :
    (onward s (execSmbClockLowTimeout s)).sys.lockView = s.sys.lockView := rfl

@[simp] theorem State.setPin_lockView (s : State) (n : Nat) (level : Bool) :
    (s.setPin n level).sys.lockView = s.sys.lockView := rfl

@[simp] theorem execSidebandPinChange_lockView (pin : Sideband) (level glitch : Bool) (s : State) :
    (onward s (execSidebandPinChange pin level glitch s)).sys.lockView = s.sys.lockView := by
  unfold execSidebandPinChange
  repeat' split
  all_goals simp

@[simp] theorem State.captureDr_lockView (s : State) : (s.captureDr).2.sys.lockView = s.sys.lockView := by
  unfold State.captureDr
  split <;> simp

@[simp] theorem State.tckRise_lockView (s : State) (tms tdi : Bool) :
    (s.tckRise tms tdi).sys.lockView = s.sys.lockView := by
  unfold State.tckRise
  dsimp only
  split <;> simp

@[simp] theorem State.tckFall_lockView (s : State) (code : TapInstr) :
    (s.tckFall code).sys.lockView = s.sys.lockView := by
  unfold State.tckFall
  dsimp only
  split <;> simp

@[simp] theorem execTckEdge_lockView (rising tms tdi : Bool) (code : TapInstr) (s : State) :
    (onward s (execTckEdge rising tms tdi code s)).sys.lockView = s.sys.lockView := by simp [execTckEdge]

/-! ### `Machine/Commit` -/

@[simp] theorem State.htabApply_lockView (s : State) (p : Nat) :
    (s.htabApply p).sys.lockView = s.sys.lockView := by simp [State.htabApply]

@[simp] theorem State.fuseBegin_lockView (s : State) : (s.fuseBegin).sys.lockView = s.sys.lockView := by
  unfold State.fuseBegin
  split <;> simp

@[simp] theorem State.lnkApply_lockView (s : State) (l : Nat) :
    (s.lnkApply l).sys.lockView = s.sys.lockView := by simp [State.lnkApply]

@[simp] theorem State.groupApply_lockView (s : State) (p : PageId) (g : Nat) :
    (s.groupApply p g).sys.lockView = s.sys.lockView := by
  unfold State.groupApply
  split <;> simp

@[simp] theorem State.groupRefuse_lockView (s : State) (f : Fn) (p : PageId) (g : Nat) :
    (s.groupRefuse f p g).sys.lockView = s.sys.lockView := by
  unfold State.groupRefuse
  split <;> simp

@[simp] theorem State.commitGroup_lockView (s : State) (f : Fn) (p : PageId) (g : Nat) :
    (s.commitGroup f p g).sys.lockView = s.sys.lockView := by
  unfold State.commitGroup
  split <;> simp

@[simp] theorem State.commitPage_lockView (s : State) (f : Fn) (p : PageId) :
    (s.commitPage f p).sys.lockView = s.sys.lockView := by simp [State.commitPage]

@[simp] theorem State.discardPage_lockView (s : State) (p : PageId) :
    (s.discardPage p).sys.lockView = s.sys.lockView := by simp [State.discardPage]

@[simp] theorem execStageCommit_lockView (f : Fn) (page : BitVec 14) (s : State) :
    (onward s (execStageCommit f page s)).sys.lockView = s.sys.lockView := by
  unfold execStageCommit
  split
  · next h => simp [State.openWrite_error_lockView h]
  · simp

@[simp] theorem execStageDiscard_lockView (f : Fn) (page : BitVec 14) (s : State) :
    (onward s (execStageDiscard f page s)).sys.lockView = s.sys.lockView := by
  unfold execStageDiscard
  split
  · next h => simp [State.openWrite_error_lockView h]
  · simp

@[simp] theorem execCommitApply_lockView (page : BitVec 14) (g : BitVec 6) (s : State) :
    (onward s (execCommitApply page g s)).sys.lockView = s.sys.lockView := by
  unfold execCommitApply
  split <;> simp

/-! ### `Machine/Access` -/

@[simp] theorem State.askClear_lockView (s : State) (p bit : Nat) :
    (s.askClear p bit).sys.lockView = s.sys.lockView := by simp [State.askClear]

@[simp] theorem State.writeErr_lockView (s : State) (f : Fn) (v : Word) :
    (s.writeErr f v).sys.lockView = s.sys.lockView := by simp [State.writeErr]

@[simp] theorem State.writeResume_lockView (s : State) (f : Fn) (v : Word) :
    (s.writeResume f v).sys.lockView = s.sys.lockView := by simp [State.writeResume]

@[simp] theorem State.writePartCtrl_lockView (s : State) (f : Fn) (t : Target) (v : Word) :
    (s.writePartCtrl f t v).sys.lockView = s.sys.lockView := by simp [State.writePartCtrl]

@[simp] theorem State.writeCluCmd_lockView (s : State) (f : Fn) (t : Target) (v : Word) :
    (s.writeCluCmd f t v).sys.lockView = s.sys.lockView := by simp [State.writeCluCmd]

@[simp] theorem State.writeCtxCtrl_lockView (s : State) (f : Fn) (t : Target) (v : Word) :
    (s.writeCtxCtrl f t v).sys.lockView = s.sys.lockView := by simp [State.writeCtxCtrl]

@[simp] theorem State.writeQuota_lockView (s : State) (t : Target) (v : Word) :
    (s.writeQuota t v).sys.lockView = s.sys.lockView := by simp [State.writeQuota]

@[simp] theorem State.writePart_lockView (s : State) (f : Fn) (t : Target) (v : Word) :
    (s.writePart f t v).sys.lockView = s.sys.lockView := by
  unfold State.writePart
  repeat' split
  all_goals simp

@[simp] theorem State.writeFeQueue_lockView (s : State) (f : Fn) (t : Target) (v : Word) :
    (s.writeFeQueue f t v).sys.lockView = s.sys.lockView := by
  unfold State.writeFeQueue
  split <;> simp

@[simp] theorem State.snapAck_lockView (s : State) (p : Nat) :
    (s.snapAck p).sys.lockView = s.sys.lockView := by simp [State.snapAck]

@[simp] theorem State.writeFe_lockView (s : State) (f : Fn) (t : Target) (v : Word) :
    (s.writeFe f t v).sys.lockView = s.sys.lockView := by simp [State.writeFe]

@[simp] theorem State.writeStep_lockView (s : State) (f : Fn) (t : Target) (v : Word) :
    (s.writeStep f t v).sys.lockView = s.sys.lockView := by
  unfold State.writeStep
  split <;> simp

@[simp] theorem State.writeStg_lockView (s : State) (f : Fn) (t : Target) (v : Word) :
    (s.writeStg f t v).sys.lockView = s.sys.lockView := by
  unfold State.writeStg
  split <;> simp

@[simp] theorem State.writeColl_lockView (s : State) (f : Fn) (t : Target) (v : Word) :
    (s.writeColl f t v).sys.lockView = s.sys.lockView := by simp [State.writeColl]

@[simp] theorem State.writeCkpt_lockView (s : State) (f : Fn) (t : Target) (v : Word) :
    (s.writeCkpt f t v).sys.lockView = s.sys.lockView := by
  unfold State.writeCkpt
  split <;> simp

@[simp] theorem State.slowClear_lockView (s : State) (p : Nat) : (s.slowClear p).sys.lockView = s.sys.lockView := rfl

@[simp] theorem State.writeStaged_lockView (s : State) (f : Fn) (t : Target) (v : Word) :
    (s.writeStaged f t v).sys.lockView = s.sys.lockView := by simp [State.writeStaged]

@[simp] theorem State.writeEnable_lockView (s : State) (t : Target) (v : Word) :
    (s.writeEnable t v).sys.lockView = s.sys.lockView := by simp [State.writeEnable]

@[simp] theorem State.writeCommon_lockView (s : State) (f : Fn) (t : Target) (v : Word) :
    (s.writeCommon f t v).sys.lockView = s.sys.lockView := by
  unfold State.writeCommon
  split <;> simp

@[simp] theorem State.readEffect_lockView (s : State) (f : Fn) (t : Target) :
    (s.readEffect f t).sys.lockView = s.sys.lockView := by
  unfold State.readEffect
  repeat' split
  all_goals simp

@[simp] theorem State.read32_lockView (s : State) (f : Fn) (t : Target) :
    (s.read32 f t).2.sys.lockView = s.sys.lockView := by
  unfold State.read32
  repeat' split
  all_goals simp

@[simp] theorem State.readWord_lockView (s : State) (f : Fn) (offset : Nat) :
    (s.readWord f offset).2.sys.lockView = s.sys.lockView := by
  unfold State.readWord
  split <;> simp

@[simp] theorem State.read64_lockView (s : State) (f : Fn) (offset : Nat) :
    (s.read64 f offset).2.sys.lockView = s.sys.lockView := by
  unfold State.read64
  repeat' split
  all_goals simp

@[simp] theorem execRegisterPairRead_lockView (f : Fn) (offset : BitVec 26) (w : Width) (s : State) :
    (onward s (execRegisterPairRead f offset w s)).sys.lockView = s.sys.lockView := by
  unfold execRegisterPairRead
  dsimp only
  repeat' split
  all_goals simp

@[simp] theorem execErrLogRead_lockView (f : Fn) (page : BitVec 14) (s : State) :
    (onward s (execErrLogRead f page s)).sys.lockView = s.sys.lockView := by simp [execErrLogRead]

/-! ### `Machine/Tick` -/

@[simp] theorem State.tickBramble_lockView (s : State) (p : Nat) :
    (s.tickBramble p).sys.lockView = s.sys.lockView := by simp [State.tickBramble]

@[simp] theorem State.tickThrottle_lockView (s : State) (p : Nat) :
    (s.tickThrottle p).sys.lockView = s.sys.lockView := by simp [State.tickThrottle]

@[simp] theorem State.tickIdle_lockView (s : State) (p : Nat) :
    (s.tickIdle p).sys.lockView = s.sys.lockView := by simp [State.tickIdle]

@[simp] theorem State.tickPart_lockView (s : State) (p : Nat) :
    (s.tickPart p).sys.lockView = s.sys.lockView := by simp [State.tickPart]

@[simp] theorem State.tickStage_lockView (s : State) :
    (s.tickStage).sys.lockView = s.sys.lockView := by simp [State.tickStage]

@[simp] theorem State.tickLinks_lockView (s : State) :
    (s.tickLinks).sys.lockView = s.sys.lockView := by simp [State.tickLinks]

@[simp] theorem State.tickPower_lockView (s : State) :
    (s.tickPower).sys.lockView = s.sys.lockView := by simp [State.tickPower]

@[simp] theorem State.tick_lockView (s : State) : (s.tick).sys.lockView = s.sys.lockView := by simp [State.tick]

end Sys2Proof.Machine

end

section

/-! ## The commands that may change what `LockInv` speaks of -/

namespace Sys2Proof.Machine

/-- Start-up is over: READY, a failed start, or a warm reset in progress. -/
def StartOver (s : State) : Prop := s.sys.phase = 7 ∨ s.sys.phase = 0xF ∨ s.sys.warm.isSome = true

/-- What every command but COLD_RESET does to the tenancy lock: the invariant holds after it, a set lock stays set, and
start-up, once over, stays over. -/
structure LockStep (s t : State) : Prop where
  inv : LockInv t
  lock : s.sys.tenancyLock = true → t.sys.tenancyLock = true
  ended : StartOver s → StartOver t

theorem Sys.lockView_eq_iff {x y : Sys} : x.lockView = y.lockView ↔
    x.started = y.started ∧ x.phase = y.phase ∧ x.warm = y.warm ∧ x.tenancyLock = y.tenancyLock := by
  simp [Sys.lockView]

theorem LockInv.started {s : State} (h : LockInv s) (ho : StartOver s) : s.sys.started = true := by
  obtain ⟨hcold, -⟩ := h
  rcases hs : s.sys.started with _ | _
  · obtain ⟨hp, hw⟩ := hcold hs
    rcases ho with ho | ho | ho <;> simp_all
  · rfl

theorem LockInv.unlocked {s : State} (h : LockInv s) (ho : ¬ StartOver s) : s.sys.tenancyLock = false := by
  obtain ⟨-, hlock⟩ := h
  rcases hl : s.sys.tenancyLock with _ | _
  · rfl
  · exact absurd (hlock hl).2 ho

theorem LockStep.trans {s t u : State} (h : LockStep s t) (k : LockStep t u) : LockStep s u :=
  ⟨k.inv, k.lock ∘ h.lock, k.ended ∘ h.ended⟩

theorem LockStep.of_lockView {s t : State} (h : LockInv s) (hv : t.sys.lockView = s.sys.lockView) : LockStep s t := by
  obtain ⟨hst, hph, hwarm, hlock⟩ := Sys.lockView_eq_iff.1 hv
  refine ⟨?_, ?_, ?_⟩
  · simpa only [LockInv, hst, hph, hwarm, hlock] using h
  · simp [hlock]
  · simp [StartOver, hph, hwarm]

theorem LockStep.refl {s : State} (h : LockInv s) : LockStep s s := .of_lockView h rfl

/-- A step to a state in which start-up is over keeps the invariant, and with it a set lock. -/
theorem LockStep.of_startOver {s t : State} (hst : t.sys.started = true) (ho : StartOver t)
    (hl : s.sys.tenancyLock = true → t.sys.tenancyLock = true) : LockStep s t :=
  ⟨⟨by simp [hst], fun _ => ⟨hst, ho⟩⟩, hl, fun _ => ho⟩

/-- A step of the start-up: the lock is clear before it, so it may be clear after it. -/
theorem LockStep.of_startUp {s t : State} (h : LockInv s) (ho : ¬ StartOver s) (hst : t.sys.started = true)
    (hl : t.sys.tenancyLock = false) : LockStep s t :=
  ⟨⟨by simp [hst], by simp [hl]⟩, by simp [h.unlocked ho], fun h => absurd h ho⟩

/-- A phase of the start-up ends: what LockInv speaks of is as in `u`, but for the phase. -/
theorem LockStep.of_phase {s u t : State} (h : LockInv s) (ho : ¬ StartOver s) (hu : u.sys.lockView = s.sys.lockView)
    (hst : s.sys.started = true) (ht : (t.sys.started, t.sys.tenancyLock) = (u.sys.started, u.sys.tenancyLock)) :
    LockStep s t := by
  obtain ⟨hs, -, -, hl⟩ := Sys.lockView_eq_iff.1 hu
  obtain ⟨hts, htl⟩ := Prod.mk.inj ht
  exact .of_startUp h ho (by rw [hts, hs, hst]) (by rw [htl, hl, h.unlocked ho])

/-! ### Warm resets -/

theorem startOver_of_warmable {s : State} (h : s.warmable = true) : StartOver s := by
  simp only [State.warmable, Bool.and_eq_true, beq_iff_eq] at h
  exact .inl h.1

theorem State.warmBegin_sys (s : State) (src : WarmSource) :
    (s.warmBegin src).sys.started = s.sys.started ∧ (s.warmBegin src).sys.warm.isSome = true ∧
      (s.warmBegin src).sys.tenancyLock = s.sys.tenancyLock := by
  unfold State.warmBegin
  extract_lets s1
  have h1 : s1.sys.started = s.sys.started ∧ s1.sys.tenancyLock = s.sys.tenancyLock := by
    unfold s1
    split <;> exact ⟨rfl, rfl⟩
  clear_value s1
  split
  · next hw =>
    split
    · exact ⟨h1.1, rfl, h1.2⟩
    · exact ⟨h1.1, by rw [hw]; rfl, h1.2⟩
  · exact ⟨h1.1, rfl, h1.2⟩

theorem State.warmBegin_lockStep {s : State} (h : LockInv s) (ho : StartOver s) (src : WarmSource) :
    LockStep s (s.warmBegin src) := by
  obtain ⟨hst, hw, hl⟩ := s.warmBegin_sys src
  exact .of_startOver (hst.trans (h.started ho)) (.inr (.inr hw)) (by simp [hl])

theorem State.warmSource_lockStep {s : State} (h : LockInv s) (src : WarmSource) : LockStep s (s.warmSource src) := by
  unfold State.warmSource
  split
  · next hw => exact State.warmBegin_lockStep h (hw.elim (fun hw => .inr (.inr hw)) startOver_of_warmable) src
  · exact .of_lockView h (by simp)

theorem execWarmResetPin_lockStep {s : State} (h : LockInv s) : LockStep s (onward s (execWarmResetPin s)) := by
  have h1 : LockStep s { s with mgmt := { s.mgmt with pins := s.mgmt.pins &&& ~~~2#9 } } := .of_lockView h rfl
  exact h1.trans (State.warmSource_lockStep h1.inv .pin)

theorem execPerstAssert_lockStep {s : State} (h : LockInv s) : LockStep s (onward s (execPerstAssert s)) := by
  unfold execPerstAssert
  extract_lets sys mgmt s1
  have h1 : LockStep s s1 := .of_lockView h rfl
  refine h1.trans ?_
  rw [onward_next]
  split
  · next hw =>
    exact State.warmBegin_lockStep h1.inv (hw.elim (fun hw => .inr (.inr hw)) startOver_of_warmable) .perst
  · exact .of_lockView h1.inv (by simp)

theorem State.warmReady_lockStep {s : State} (h : LockInv s) (ho : StartOver s) (copy img : Bool) (version : Word) :
    LockStep s (s.warmReady copy img version) := by
  have hraise (t : State) (b : Word) : (t.raise .glb 0 b).sys = t.sys := (Logs.raise t .glb 0 b).sys
  refine .of_startOver ?_ (.inl ?_) ?_ <;> simp [State.warmReady, hraise, h.started ho]

theorem State.bootFail_lockStep {s : State} (hst : s.sys.started = true) (code : BitVec 4) :
    LockStep s (s.bootFail code) := .of_startOver hst (.inr (.inl rfl)) id

theorem execWarmReset_lockStep {s : State} (h : LockInv s) (copy a b : ImageRead) (blown : Bool) :
    LockStep s (onward s (execWarmReset copy a b blown s)) := by
  unfold execWarmReset
  split
  · exact .refl h
  · next hw =>
    extract_lets s1
    have h1 : LockStep s s1 := .of_lockView h (by simp [s1])
    have ho : StartOver s1 := h1.ended (.inr (.inr (by simpa [Option.isSome_iff_ne_none] using hw)))
    refine h1.trans ?_
    split
    · exact State.warmReady_lockStep h1.inv ho _ _ _
    · split
      · exact State.warmReady_lockStep h1.inv ho _ _ _
      · exact State.bootFail_lockStep (h1.inv.started ho) _

/-! ### Floods -/

theorem State.takeFloodReset_lockStep {s : State} (h : LockInv s) (l : Nat) (origin : BitVec 14) (ident : BitVec 16)
    (step : BitVec 64) : LockStep s (s.takeFloodReset l origin ident step) := by
  have hr : LockStep s (s.hearFlood l 1 origin ident step).2 := .of_lockView h (by simp)
  unfold State.takeFloodReset
  dsimp only
  split
  · next hc =>
    simp only [Bool.and_eq_true] at hc
    exact hr.trans (State.warmBegin_lockStep hr.inv (startOver_of_warmable hc.2) .flood)
  · exact hr

theorem State.takeControl_lockStep {s : State} (h : LockInv s) (l : Nat) (f : Flit) :
    LockStep s (s.takeControl l f) := by
  unfold State.takeControl
  dsimp only
  split
  · exact .of_lockView h (by simp)
  · exact .of_lockView h (by simp)
  · exact .of_lockView h (by simp)
  · exact .of_lockView h (by simp)
  · split
    · exact State.takeFloodReset_lockStep h _ _ _ _
    · exact .of_lockView h (by simp)

theorem execFlitReceive_lockStep {s : State} (h : LockInv s) (l : Fin 16) (f : Flit) (fecCorr : Nat) (fecBad : Bool) :
    LockStep s (onward s (execFlitReceive l f fecCorr fecBad s)) := by
  unfold execFlitReceive
  extract_lets st s1
  have h1 : LockStep s s1 := .of_lockView h (by simp [s1])
  refine h1.trans ?_
  clear_value s1
  split
  · exact .refl h1.inv
  · split
    · exact .of_lockView h1.inv (by simp)
    · split
      · exact .refl h1.inv
      · extract_lets s2 s3 s4
        have h2 : LockStep s1 s2 := .of_lockView h1.inv (by simp [s2])
        have h3 : LockStep s2 s3 := by
          unfold s3
          split
          · exact State.takeControl_lockStep h2.inv _ _
          · exact .of_lockView h2.inv (by simp)
        exact (h2.trans h3).trans (.of_lockView h3.inv (by simp [s4]))

theorem execFloodReset_lockStep {s : State} (h : LockInv s) (l : Fin 16) (origin : BitVec 14) (ident : BitVec 16)
    (step : BitVec 64) : LockStep s (onward s (execFloodReset l origin ident step s)) :=
  State.takeFloodReset_lockStep h _ _ _ _

/-! ### Register writes -/

/-- An access is served to a host function only once start-up is over (R581, R635). -/
theorem startOver_of_served {s : State} {f : Fn} {off : Nat} (hf : f ≠ .smb) (h : s.served f off = true) :
    StartOver s := by
  cases f with
  | smb => exact absurd rfl hf
  | vf p =>
    simp only [State.served, Bool.and_eq_true, beq_iff_eq] at h
    exact .inl h.1.1.2
  | pf =>
    simp only [State.served, Bool.and_eq_true, Bool.or_eq_true, beq_iff_eq] at h
    rcases h with h | h
    · exact .inl h.2.1
    · exact .inr (.inl h.1.1)
  | spenor =>
    simp only [State.served, Bool.and_eq_true, Bool.or_eq_true, beq_iff_eq] at h
    rcases h with h | h
    · exact .inl h.2.1
    · exact .inr (.inl h.1.1)

/-- The management bus writes no register (R647). -/
theorem ne_smb_of_writeCheck {f : Fn} {t : Target} {v : Word} {r : RegSpec} (h : writeCheck f t v = .ok r) :
    f ≠ .smb := by
  rintro rfl
  unfold writeCheck at h
  split at h
  · cases h
  · split at h
    · cases h
    · simp [writeRight] at h

theorem startOver_of_openWrite {s : State} {f : Fn} {offset size : Nat} {v : Word} {x : Target × RegSpec}
    (h : s.openWrite f offset size v = .ok x) : StartOver s := by
  unfold State.openWrite at h
  split at h
  · cases h
  · next hserved =>
    extract_lets aligned at h
    split at h
    · cases h
    · split at h
      · cases h
      · split at h
        · cases h
        · next hr => exact startOver_of_served (ne_smb_of_writeCheck hr) (by simpa using hserved)

theorem startOver_of_openAt {s : State} {f : Fn} {p : PageId} {off : Nat} {v : Word} {t : Target}
    (h : s.openAt f p off v = .ok t) : StartOver s := by
  unfold State.openAt at h
  split at h
  · cases h
  · next hserved =>
    split at h
    · cases h
    · split at h
      · cases h
      · next hr =>
        have hserved : s.servedAt f p off = true := by simpa using hserved
        exact startOver_of_served (ne_smb_of_writeCheck hr) hserved

theorem State.glbCtrl_lockStep {s : State} (h : LockInv s) (f : Fn) (t : Target) (v : Word) :
    LockStep s (s.glbCtrl f t v) := by
  unfold State.glbCtrl
  split
  · split
    · next hw => exact State.warmBegin_lockStep h (startOver_of_warmable hw) _
    · exact .refl h
  · exact .of_lockView h (by simp)

theorem State.lockTenancy_lockStep {s : State} (h : LockInv s) (ho : StartOver s) (f : Fn) (t : Target) :
    LockStep s (s.lockTenancy f t) := by
  unfold State.lockTenancy
  split
  · exact .of_lockView h (by simp)
  · split
    · exact .refl h
    · extract_lets n
      have h1 : LockStep s { s with sys := { s.sys with tenancyLock := true } } :=
        .of_startOver (h.started ho) ho fun _ => rfl
      exact h1.trans (.of_lockView h1.inv (State.audit_lockView _ _ _ _ _))

theorem State.writePlain_lockStep {s : State} (h : LockInv s) (f : Fn) (t : Target) (v : Word) :
    LockStep s (s.writePlain f t v) := by
  unfold State.writePlain
  split
  · split
    · exact State.glbCtrl_lockStep h f t v
    · exact .of_lockView h rfl
  all_goals exact .of_lockView h (by simp)

theorem State.writeAct_lockStep {s : State} (h : LockInv s) (ho : StartOver s) (f : Fn) (t : Target) (r : RegSpec)
    (v : Word) : LockStep s (s.writeAct f t r v) := by
  unfold State.writeAct
  extract_lets w
  split
  · exact .of_lockView h (by simp)
  · split
    · exact .of_lockView h (by simp)
    · split
      · split
        · exact .of_lockView h (by simp)
        · exact .of_lockView h (by simp)
      · split
        · split <;> exact .of_lockView h (by simp)
        · split
          · exact .of_lockView h (by simp)
          · split
            · split
              · exact State.lockTenancy_lockStep h ho f t
              · exact .refl h
            · exact .of_lockView h (by simp)
          · exact State.writePlain_lockStep h f t w

theorem State.write32_lockStep {s : State} (h : LockInv s) (f : Fn) (offset size : Nat) (v : Word) :
    LockStep s (s.write32 f offset size v) := by
  unfold State.write32
  split
  · next hw =>
    refine .of_lockView h ?_
    have hs := State.openWrite_error_lockView hw
    split
    · split
      · simp
      · split
        · simp
        · exact hs
    · exact hs
  · next hw => exact State.writeAct_lockStep h (startOver_of_openWrite hw) _ _ _ _

theorem State.write64_lockStep {s : State} (h : LockInv s) (f : Fn) (offset : Nat) (v : BitVec 64) :
    LockStep s (s.write64 f offset v) := by
  unfold State.write64
  extract_lets lo hi pair
  clear_value pair
  cases pair with
  | none =>
    have h1 := State.write32_lockStep h f offset 4 lo
    exact h1.trans (State.write32_lockStep h1.inv _ _ _ _)
  | some _ =>
    dsimp only
    split
    · next hw => exact .of_lockView h (State.openWrite_error_lockView hw)
    · next t r hw =>
      have ho := startOver_of_openWrite hw
      split
      · next hw' => exact .of_lockView h (State.openWrite_error_lockView hw')
      · next t' r' hw' =>
        split
        · exact .of_lockView h (by simp)
        · have h1 := State.writeAct_lockStep h ho f t r lo
          have h2 := State.writeAct_lockStep h1.inv (h1.ended ho) f t' r' hi
          exact (h1.trans h2).trans (.of_lockView h2.inv rfl)

theorem execRegisterWrite_lockStep {s : State} (h : LockInv s) (f : Fn) (offset : BitVec 26) (w : Width)
    (v : BitVec 64) : LockStep s (onward s (execRegisterWrite f offset w v s)) := by
  unfold execRegisterWrite
  split
  · exact State.write64_lockStep h _ _ _
  · exact State.write32_lockStep h _ _ _ _

theorem execIntForce_lockStep {s : State} (h : LockInv s) (f : Fn) (page : BitVec 14) (bits : Word) :
    LockStep s (onward s (execIntForce f page bits s)) := by
  unfold execIntForce
  split
  · next hw => exact .of_lockView h (State.openWrite_error_lockView hw)
  · next hw => exact State.writeAct_lockStep h (startOver_of_openWrite hw) _ _ _ _

theorem execGlbWarmReset_lockStep {s : State} (h : LockInv s) (f : Fn) (key : BitVec 8) :
    LockStep s (onward s (execGlbWarmReset f key s)) := by
  unfold execGlbWarmReset
  extract_lets v
  split
  · next hw => exact .of_lockView h (State.openAt_error_lockView hw)
  · exact State.glbCtrl_lockStep h _ _ _

theorem execTenancyLock_lockStep {s : State} (h : LockInv s) (f : Fn) :
    LockStep s (onward s (execTenancyLock f s)) := by
  unfold execTenancyLock
  split
  · next hw => exact .of_lockView h (State.openAt_error_lockView hw)
  · next hw => exact State.lockTenancy_lockStep h (startOver_of_openAt hw) _ _

/-! ### The cold start -/

theorem execColdStart_lockStep {s : State} (h : LockInv s) (bootMode : BitVec 2) (slotId : BitVec 6) :
    LockStep s (onward s (execColdStart bootMode slotId s)) := by
  unfold execColdStart
  split
  · exact .refl h
  · next hst =>
    extract_lets cold sys mgmt s1
    have ho : ¬ StartOver s := fun ho => hst (h.started ho)
    have h1 : LockStep s s1 := .of_startUp h ho rfl (h.unlocked ho)
    exact h1.trans (.of_lockView h1.inv (by simp))

theorem State.bootReady_lockStep {s : State} (hst : s.sys.started = true) : LockStep s s.bootReady := by
  unfold State.bootReady
  extract_lets sys s1 n
  have h1 : LockStep s s1 := .of_startOver hst (.inl rfl) id
  exact h1.trans (.of_lockView h1.inv (by simp))

/-- A phase of the cold start runs: start-up is not over. -/
theorem not_startOver {s : State} (hw : s.sys.warm = none) (h7 : s.sys.phase ≠ 7) (hf : s.sys.phase ≠ 0xF) :
    ¬ StartOver s := by
  rintro (h | h | h)
  · exact h7 h
  · exact hf h
  · simp [hw] at h

theorem execBootPhaseDone_lockStep {s : State} (h : LockInv s) (x : BootReport) :
    LockStep s (onward s (execBootPhaseDone x s)) := by
  unfold execBootPhaseDone
  split
  · exact .refl h
  · next hc =>
    obtain ⟨hst, hw⟩ : s.sys.started = true ∧ s.sys.warm = none := by simpa using hc
    cases x with
    | pll =>
      dsimp -zeta only
      split
      · next hp => exact .of_phase h (not_startOver hw (by simp [hp]) (by simp [hp])) rfl hst rfl
      · exact .refl h
    | fuse readOk auditOk blown =>
      dsimp -zeta only
      split
      · exact .refl h
      · next hc =>
        obtain ⟨hp, -⟩ : s.sys.phase = 2 ∧ s.sys.flashRelease = false := by simpa using hc
        have ho := not_startOver hw (by simp [hp]) (by simp [hp])
        split
        · exact State.bootFail_lockStep hst _
        · extract_lets go s1 fuse r s2
          have hv : s2.sys.lockView = s.sys.lockView := by simp [s2, s1]
          clear_value s2
          split
          · exact .of_lockView h hv
          · exact .of_phase h ho hv hst rfl
    | image a b =>
      dsimp -zeta only
      split
      · exact .refl h
      · next hp =>
        rw [Classical.not_not] at hp
        split
        · exact State.bootFail_lockStep hst _
        · exact .of_phase h (not_startOver hw (by simp [hp]) (by simp [hp])) rfl hst rfl
    | keys entropyOk =>
      dsimp -zeta only
      split
      · exact .refl h
      · next hp =>
        rw [Classical.not_not] at hp
        have ho := not_startOver hw (by simp [hp]) (by simp [hp])
        split
        · exact State.bootFail_lockStep hst _
        · exact .of_startUp h ho hst rfl
    | cellar trainedOk =>
      dsimp -zeta only
      split
      · exact .refl h
      · next hp =>
        rw [Classical.not_not] at hp
        split
        · exact State.bootFail_lockStep hst _
        · extract_lets go s1
          have h1 : LockStep s s1 := .of_lockView h (State.cellarReady_lockView s)
          rw [onward_next]
          split
          · exact h1.trans (State.bootReady_lockStep hst)
          · exact .of_phase h (not_startOver hw (by simp [hp]) (by simp [hp])) rfl hst rfl
    | sram failed =>
      dsimp -zeta only
      split
      · exact .refl h
      · extract_lets s1 sys s2
        have hv : s2.sys.lockView = s.sys.lockView := by simp [s2, sys, s1]
        have h2 : LockStep s s2 := .of_lockView h hv
        rw [onward_next]
        split
        · exact h2.trans (State.bootReady_lockStep ((Sys.lockView_eq_iff.1 hv).1.trans hst))
        · exact h2

/-! ### Every command -/

/-- COLD_RESET, which alone may clear the lock, leaves a device that has not started. -/
theorem execColdReset_lockInv (s : State) : LockInv (onward s (execColdReset s)) :=
  ⟨fun _ => ⟨rfl, rfl⟩, fun h => absurd h Bool.false_ne_true⟩

theorem exec_lockStep {s : State} (h : LockInv s) {c : Instr} (hc : c ≠ .coldReset) :
    LockStep s (onward s (exec c s)) := by
  cases c
  case coldReset => exact absurd rfl hc
  case coldStart => exact execColdStart_lockStep h _ _
  case bootPhaseDone => exact execBootPhaseDone_lockStep h _
  case warmReset => exact execWarmReset_lockStep h _ _ _ _
  case warmResetPin => exact execWarmResetPin_lockStep h
  case perstAssert => exact execPerstAssert_lockStep h
  case glbWarmReset => exact execGlbWarmReset_lockStep h _ _
  case tenancyLock => exact execTenancyLock_lockStep h _
  case registerWrite => exact execRegisterWrite_lockStep h _ _ _ _
  case intForce => exact execIntForce_lockStep h _ _ _
  case flitReceive => exact execFlitReceive_lockStep h _ _ _ _
  case floodReset => exact execFloodReset_lockStep h _ _ _ _
  all_goals exact .of_lockView h (by simp only [exec]; simp)

theorem step_lockInv {s t : State} (h : LockInv s) (hs : step s = .next t) :
    LockInv t ∧ ((∃ cs, s.pending = .coldReset :: cs) ∨ LockStep s t) := by
  unfold step at hs
  split at hs
  · cases hs
    have ht : LockStep s s.tick := .of_lockView h (by simp)
    exact ⟨ht.inv, .inr ht⟩
  · next c cs hp =>
    have hq : LockInv { s with pending := cs } := h
    have ht : onward { s with pending := cs } (exec c { s with pending := cs }) = t := by rw [hs]; rfl
    by_cases hc : c = .coldReset
    · subst hc
      exact ⟨ht ▸ execColdReset_lockInv _, .inl ⟨cs, hp⟩⟩
    · have hstep := exec_lockStep hq hc
      rw [ht] at hstep
      exact ⟨hstep.inv, .inr ⟨hstep.inv, hstep.lock, hstep.ended⟩⟩

end Sys2Proof.Machine

end

section

open Sys2Proof Sys2Proof.Machine

/-- Settles O6: every command but COLD_RESET keeps a set lock. The start-up's key phase writes the lock as clear, but by
the invariant start-up is over while the lock is set, so that phase finds it clear already. -/
theorem tenancyLockHeld : Obligations.TenancyLockHeld := by
  intro s t h hs
  obtain ⟨ht, hc | hk⟩ := step_lockInv h hs
  · exact ⟨ht, fun _ _ => hc⟩
  · exact ⟨ht, fun hl hu => by simp [hk.lock hl] at hu⟩

end

section

/-! ## Accesses that are not served (R581, R606, R635, O37)

Every register access goes through one gate, `State.served`. Where the gate is shut for an offset, the front doors of
writes (`State.openWrite`, `State.openAt`) hand the state back as it was, and a read answers `State.unserved`. -/

namespace Sys2Proof.Machine

open Sys2Proof

/-! ### The gate -/

/-- Only the pages of R581 can make a difference: where one offset is not served, no offset of another page is. -/
theorem State.served_eq_false_of_page {s : State} {f : Fn} {o o' : Nat} (h : s.served f o = false)
    (ho : o' / 0x1000 ∉ [0, 4, 6]) : s.served f o' = false := by
  have hpage : [0x0000, 0x4000, 0x6000].contains (o' / 0x1000 * 0x1000) = false := by
    simp at ho ⊢; omega
  cases f with
  | smb => cases h
  | vf p => exact h
  | pf | spenor =>
    simp only [State.served, Bool.or_eq_false_iff] at h ⊢
    exact ⟨h.1, by rw [hpage, Bool.and_false]⟩

/-- Both words of an aligned pair lie on one page. -/
theorem State.served_add_four (s : State) (f : Fn) {o : Nat} (ho : o % 8 = 0) : s.served f (o + 4) = s.served f o := by
  have hpage : (o + 4) / 0x1000 = o / 0x1000 := by omega
  cases f <;> simp only [State.served, hpage]

theorem State.servedAt_eq_false {s : State} {f : Fn} {o off : Nat} {p : PageId} (h : s.served f o = false)
    (hp : (p.base + off) / 0x1000 ∉ [0, 4, 6]) : s.servedAt f p off = false := by
  cases f with
  | vf n => exact h
  | pf | spenor | smb => exact State.served_eq_false_of_page h hp

/-- From the start of a warm reset until READY, and during a cold start, nothing is served (R635). -/
theorem State.served_eq_false_of_starting {s : State} {f : Fn} (hf : f = .pf ∨ ∃ p, f = .vf p)
    (hF : s.sys.phase ≠ 0xF) (h : s.sys.warm.isSome = true ∨ 1 ≤ s.sys.phase.toNat ∧ s.sys.phase.toNat ≤ 6)
    (o : Nat) : s.served f o = false := by
  have hready : (s.sys.phase == 0x7 && s.sys.warm.isNone) = false := by
    rcases h with hw | ⟨-, hp⟩
    · rw [Option.isNone_eq_false_iff.2 hw, Bool.and_false]
    · have hne : s.sys.phase ≠ 0x7 := by bv_omega
      rw [beq_false_of_ne hne, Bool.false_and]
  rcases hf with rfl | ⟨p, rfl⟩
  · simp only [State.served, hready, beq_false_of_ne hF, Bool.and_false, Bool.false_and, Bool.or_self]
  · simp only [State.served, Bool.and_assoc] at hready ⊢
    rw [← Bool.and_assoc (s.sys.phase == 0x7), hready]
    simp

/-- A failed start serves three pages, to the physical function alone (R581). -/
theorem State.served_of_failed {s : State} {f : Fn} (hf : f = .pf ∨ ∃ p, f = .vf p) (hF : s.sys.phase = 0xF)
    (o : Nat) : s.served f o = true ↔ f = .pf ∧ o / 0x1000 ∈ [0, 4, 6] := by
  rcases hf with rfl | ⟨p, rfl⟩
  · simp [State.served, hF]; omega
  · simp [State.served, hF]

/-! ### Writes -/

theorem State.openWrite_unserved {s : State} {f : Fn} {o : Nat} (h : s.served f o = false) (size : Nat) (v : Word) :
    s.openWrite f o size v = .error s := by simp [State.openWrite, h]

theorem State.openAt_unserved {s : State} {f : Fn} {p : PageId} {off : Nat} (h : s.servedAt f p off = false)
    (v : Word) : s.openAt f p off v = .error s := by simp [State.openAt, h]

theorem State.mayWriteAt_unserved {s : State} {f : Fn} {p : PageId} {off : Nat} (h : s.servedAt f p off = false) :
    s.mayWriteAt f p off = false := by simp [State.mayWriteAt, h]

theorem execSyncSignal_unserved {s : State} {f : Fn} {p : Fin 64} (h : s.servedAt f ⟨.part, p.val⟩ 0x484 = false)
    (v : Word) : execSyncSignal f p v s = .next s := by
  simp [execSyncSignal, State.openAt_unserved h, State.mayWriteAt_unserved h]

theorem execPteWrite_unserved {s : State} {f : Fn} (h : s.servedAt f ⟨.cel, 0⟩ 0x4C = false) (v : Word) :
    execPteWrite f v s = .next s := by
  simp [execPteWrite, State.openAt_unserved h, State.mayWriteAt_unserved h]

/-- The two registers whose rejected writes are counted (R221, R298) stand on pages that are not served either. -/
theorem State.write32_unserved {s : State} {f : Fn} {o : Nat} (h : s.served f o = false) (size : Nat) (v : Word) :
    s.write32 f o size v = s := by
  simp only [State.write32, State.openWrite_unserved h]
  split
  · next t _ =>
    have hpart : s.servedAt f ⟨.part, t.n64.val⟩ 0x484 = false :=
      State.servedAt_eq_false h (by simp [PageId.base, PageKind.index]; omega)
    have hcel : s.servedAt f ⟨.cel, 0⟩ 0x4C = false := State.servedAt_eq_false h (by decide)
    rw [execSyncSignal_unserved hpart, execPteWrite_unserved hcel, onward_next, ite_self, ite_self]
  · rfl

theorem State.write64_unserved {s : State} {f : Fn} {o : Nat} (h : s.served f o = false) (ho : o % 8 = 0)
    (v : BitVec 64) : s.write64 f o v = s := by
  have h4 : s.served f (o + 4) = false := by rw [State.served_add_four s f ho, h]
  unfold State.write64
  extract_lets lo hi pair
  have hpair : pair = none := by
    simp only [pair, h, Bool.and_false]
    split
    · rfl
    · split <;> rfl
  simp only [hpair, State.write32_unserved h, State.write32_unserved h4]

theorem execRegisterWrite_unserved {s : State} {f : Fn} {o : BitVec 26} (h : s.served f o.toNat = false) (w : Width)
    (v : BitVec 64) : execRegisterWrite f o w v s = .next s := by
  unfold execRegisterWrite
  split
  · next hw => rw [State.write64_unserved h hw.2]
  · rw [State.write32_unserved h]

/-! ### Reads -/

theorem execRegisterPairRead_unserved {s : State} {f : Fn} {o : BitVec 26} (h : s.served f o.toNat = false)
    (w : Width) : execRegisterPairRead f o w s = .next (s.answer (s.unserved f w)) := by
  simp [execRegisterPairRead, h]

theorem State.unserved_of_not_failed {s : State} (hF : s.sys.phase ≠ 0xF) (f : Fn) (w : Width) :
    s.unserved f w = allOnesOf w := by
  simp only [State.unserved, beq_false_of_ne hF, Bool.false_and, Bool.false_eq_true, if_false]

theorem State.unserved_of_failed {s : State} (hF : s.sys.phase = 0xF) (ht : s.pwr.trip = false) (f : Fn) (w : Width) :
    s.unserved f w = if f = .pf then 0 else allOnesOf w := by simp [State.unserved, hF, ht]

/-- A served aligned 32-bit read, of a register that is not the high half of a pair, returns what the register shows:
reading may latch, clear or mark, but only after the value is taken. -/
theorem State.read32_fst {s : State} {f : Fn} {t : Target} (ht : pairLow t.page.kind (t.off - 4) = false) :
    (s.read32 f t).1 = s.view f t.page t.off := by
  unfold State.read32
  extract_lets v
  split
  · rfl
  · split
    · rfl
    · rw [if_neg (by simp [ht])]

theorem execRegisterPairRead_w32 {s : State} {f : Fn} {o : BitVec 26} {t : Target} (hs : s.served f o.toNat = true)
    (ho : o.toNat % 4 = 0) (ht : s.resolve f o.toNat = some t) :
    execRegisterPairRead f o .w32 s = .next ((s.read32 f t).2.answer ((s.read32 f t).1.zeroExtend 64)) := by
  simp [execRegisterPairRead, hs, ho, State.readWord, ht, Width.bytes]

/-- What O37 says of an access that is not served: a write changes nothing, so logs nothing, and a read of any width
answers the same value whatever register is named. -/
theorem completes_unserved {s : State} {f : Fn} {o : BitVec 26} {w : Width} {a : BitVec 64}
    (h : s.served f o.toNat = false) (ha : s.unserved f w = a) (v : BitVec 64) :
    Completes (.registerWrite f o w v) s (fun t => t = s) ∧
      Completes (.registerPairRead f o w) s fun t => t = s.answer a :=
  ⟨⟨s, execRegisterWrite_unserved h w v, rfl⟩, ⟨_, execRegisterPairRead_unserved h w, by rw [ha]⟩⟩

end Sys2Proof.Machine

end

section

open Sys2Proof Sys2Proof.Machine

/-- Settles O37: outside READY the gate is shut to every offset, and in a failed start to every offset but those of the
three pages; a shut gate lets nothing through, and an open one shows the register. -/
theorem unservedAccesses : Obligations.UnservedAccesses := by
  intro f o w v s hf
  refine ⟨fun hF hstart => ?_, fun hF htrip => ⟨fun hpage => ?_, ?_⟩⟩
  · exact completes_unserved (State.served_eq_false_of_starting hf hF hstart _) (State.unserved_of_not_failed hF f w) v
  · have hserved : s.served f o.toNat = false := by
      rw [← Bool.not_eq_true, State.served_of_failed hf hF, Classical.not_and_iff_not_or_not]
      exact hpage
    exact completes_unserved hserved (State.unserved_of_failed hF htrip f w) v
  · intro x hpf hpage ho hx hlow
    have hserved : s.served f o.toNat = true := (State.served_of_failed hf hF _).2 ⟨hpf, hpage⟩
    exact ⟨_, execRegisterPairRead_w32 hserved ho hx, congrArg (BitVec.zeroExtend 64) (State.read32_fst hlow)⟩

end

section

/-! ## Waiting commits (R639, O38)

A write that opens a register has passed the front door, `State.openWrite`, which knows the register's specification.
Staged registers stand apart from the common registers and from the flush registers of the queue blocks, so a write of
one comes to `State.stageOpen`, which is false while the register's group waits. -/

namespace Sys2Proof

variable {α : Type}

/-! ### Sparse arrays: which keys are listed -/

theorem SMap.mem_keys_erase {m : SMap α} {k j : Nat} : j ∈ (m.erase k).keys ↔ j ∈ m.keys ∧ j ≠ k := by
  induction m with
  | nil => simp [SMap.erase, SMap.keys]
  | cons x m ih =>
    obtain ⟨k', v⟩ := x
    simp only [SMap.keys] at ih
    by_cases hk : k' = k
    · simp only [SMap.erase, SMap.keys, hk, if_true, ih, List.map_cons, List.mem_cons]
      exact ⟨fun h => ⟨.inr h.1, h.2⟩, fun h => ⟨h.1.resolve_left h.2, h.2⟩⟩
    · simp only [SMap.erase, SMap.keys, hk, if_false, ih, List.map_cons, List.mem_cons]
      constructor
      · rintro (rfl | h)
        · exact ⟨.inl rfl, hk⟩
        · exact ⟨.inr h.1, h.2⟩
      · rintro ⟨rfl | h, hj⟩
        · exact .inl rfl
        · exact .inr ⟨h, hj⟩

theorem SMap.mem_keys_foldl_erase {ks : List Nat} {m : SMap α} {j : Nat} :
    j ∈ (ks.foldl SMap.erase m).keys ↔ j ∈ m.keys ∧ j ∉ ks := by
  induction ks generalizing m with
  | nil => simp
  | cons k ks ih => rw [List.foldl_cons, ih, SMap.mem_keys_erase, List.mem_cons, not_or, and_assoc]

/-- A key that is not listed reads as the default. -/
theorem SMap.get_of_not_mem_keys {d : α} {m : SMap α} {k : Nat} (h : k ∉ m.keys) : m.get d k = d := by
  induction m with
  | nil => rfl
  | cons x m ih =>
    obtain ⟨k', v⟩ := x
    simp only [SMap.keys, List.map_cons, List.mem_cons, not_or] at h
    rw [SMap.get, if_neg (Ne.symm h.1), ih h.2]

end Sys2Proof

namespace Sys2Proof.Machine

open Sys2Proof

/-! ### What a write that opens has passed -/

theorem spec_of_writeCheck {f : Fn} {t : Target} {v : Word} {r : RegSpec} (h : writeCheck f t v = .ok r) :
    t.page.spec t.off = some r := by
  unfold writeCheck at h
  split at h
  · cases h
  · next r' hr =>
    have hrr : r' = r := by grind
    rw [hr, hrr]

theorem spec_of_openWrite {s : State} {f : Fn} {offset size : Nat} {v : Word} {t : Target} {r : RegSpec}
    (h : s.openWrite f offset size v = .ok (t, r)) : t.page.spec t.off = some r := by
  unfold State.openWrite at h
  grind [spec_of_writeCheck]

/-! ### Where the staged registers stand -/

/-- The specification that an offset has is one of the page's own or a common one, and covers the offset. -/
theorem PageId.spec_mem {p : PageId} {off : Nat} {r : RegSpec} (h : p.spec off = some r) :
    (r ∈ p.kind.regs ∨ r ∈ p.kind.common) ∧ r.off ≤ off ∧ off < r.off + 4 * r.n ∧ off % 4 = 0 := by
  have hk : p.kind.spec off = some r := by
    unfold PageId.spec at h
    split at h
    · cases h
    · exact h
  have hcover := List.find?_some hk
  have hmem := List.mem_of_find?_eq_some hk
  refine ⟨?_, by simpa using hcover⟩
  rcases List.mem_append.1 hmem with hr | hr
  · exact .inl hr
  · refine .inr ?_
    split at hr
    · cases hr
    · cases hr
    · exact hr

/-- No common register is staged (R626). -/
theorem acc_ne_rws_of_mem_common {k : PageKind} {r : RegSpec} (h : r ∈ k.common) : r.acc ≠ .rws := by
  simp only [PageKind.common, List.mem_cons, List.not_mem_nil, or_false] at h
  rcases h with rfl | rfl | rfl | rfl | rfl | rfl | rfl | rfl <;> simp

/-- The staged registers of a page's own stand at word offsets above the common registers, and none of them is the
flush register of a queue block (R274). -/
theorem rws_regs_place (k : PageKind) : ∀ r ∈ k.regs, r.acc = .rws →
    0x40 ≤ r.off ∧ r.off % 4 = 0 ∧
      ∀ i < r.n, (r.off + 4 * i) % 64 = 0x0C → blockInst ⟨k, 0⟩ (r.off + 4 * i) = none := by
  cases k <;> decide +kernel

theorem blockInst_eq_none_iff (k : PageKind) (n : Nat) (off : Nat) :
    blockInst ⟨k, n⟩ off = none ↔ blockInst ⟨k, 0⟩ off = none := by
  cases k <;> simp [blockInst]

theorem rws_place {t : Target} {r : RegSpec} (h : t.page.spec t.off = some r) (hr : r.acc = .rws) :
    0x40 ≤ t.off ∧ (t.off % 64 = 0x0C → blockInst t.page t.off = none) := by
  obtain ⟨hmem, hlo, hhi, hoff⟩ := PageId.spec_mem h
  have hown : r ∈ t.page.kind.regs := hmem.resolve_right fun hc => acc_ne_rws_of_mem_common hc hr
  obtain ⟨h40, h4, hflush⟩ := rws_regs_place _ r hown hr
  have hi : t.off = r.off + 4 * ((t.off - r.off) / 4) := by omega
  refine ⟨by omega, fun h64 => (blockInst_eq_none_iff _ _ _).2 ?_⟩
  rw [hi] at h64 ⊢
  exact hflush _ (by omega) h64

/-! ### Writes of a waiting group -/

section

variable {s : State} {t : Target}

/-- The register's group waits for its safe point. -/
def State.GroupWaits (s : State) (t : Target) : Prop :=
  (s.commitOf t.page).waiting = true ∧ groupOf t.page.kind t.off ∈ (s.commitOf t.page).groups

theorem State.stageOpen_eq_false (h : s.GroupWaits t) : s.stageOpen t = false := by
  obtain ⟨hw, hg⟩ := h
  simp [State.stageOpen, hw, hg]

theorem State.stageWrite_of_groupWaits (h : s.GroupWaits t) (f : Fn) (v : Word) :
    s.stageWrite f t v = s.rejectState f t := by
  obtain ⟨hw, hg⟩ := h
  simp [State.stageWrite, State.rejectState, hw, hg]

/-- Whichever of its own conditions fails first, a staged write of a waiting group is rejected with REASON 5. -/
theorem State.writeStaged_of_groupWaits (h : s.GroupWaits t) {f : Fn} {v : Word}
    (hv : f.isVf = true → s.wmChange t v = false) : s.writeStaged f t v = s.rejectState f t := by
  have hvf : ¬ (f.isVf && s.wmChange t v) = true := by simpa using hv
  rw [State.writeStaged, if_neg hvf, if_pos h.1, State.stageWrite_of_groupWaits h, ite_self, ite_self]

/-- The low half of a pair is not held, its high half stages nothing, and a single register is not staged. -/
theorem State.writeAct_of_groupWaits (h : s.GroupWaits t) {f : Fn} {r : RegSpec} {v : Word}
    (hspec : t.page.spec t.off = some r) (hr : r.acc = .rws)
    (hv : f.isVf = true → s.wmChange t (v &&& r.wmask) = false) : s.writeAct f t r v = s.rejectState f t := by
  obtain ⟨h40, hflush⟩ := rws_place hspec hr
  have hopen := State.stageOpen_eq_false h
  have hcommon : ¬ (t.page.kind != .msixTable && decide (0x010 ≤ t.off ∧ t.off < 0x040)) = true := by
    simp; omega
  have hblock : ¬ (blockInst t.page t.off ≠ none ∧ t.off % 64 = 0x0C) := fun hb => hb.1 (hflush hb.2)
  unfold State.writeAct
  rw [if_neg hcommon, if_neg hblock]
  split
  · simp [hr, hopen]
  · split
    · simp only [hopen]
      split
      · split <;> rfl
      · rfl
    · rw [hr]
      exact State.writeStaged_of_groupWaits h hv

end

theorem execRegisterWrite_w32 {s : State} {f : Fn} {o : BitVec 26} {v : BitVec 64} {x : Target} {r : RegSpec}
    (h : s.openWrite f o.toNat 4 (v.extractLsb' 0 32) = .ok (x, r)) :
    execRegisterWrite f o .w32 v s = .next (s.writeAct f x r (v.extractLsb' 0 32)) := by
  simp [execRegisterWrite, State.write32, Width.bytes, h]

/-! ### Commits and discards -/

theorem State.commitPage_of_waiting {s : State} {p : PageId} (h : (s.commitOf p).waiting = true) (f : Fn) :
    s.commitPage f p = s := by simp [State.commitPage, h]

theorem State.commitOf_setCommit (s : State) (p : PageId) (c : CommitState) : (s.setCommit p c).commitOf p = c :=
  SMap.get_put_self

/-- Unstaging some keys takes them off the staged values, and touches nothing else. -/
theorem State.foldl_unstage (ks : List Nat) (s : State) : ks.foldl (fun s k => s.stage k none) s =
    { s with bus := { s.bus with staged := ks.foldl SMap.erase s.bus.staged } } := by
  induction ks generalizing s with
  | nil => rfl
  | cons k ks ih => rw [List.foldl_cons, ih]; rfl

theorem State.discardPage_staged (s : State) (p : PageId) :
    (s.discardPage p).bus.staged = (s.stagedKeys p).foldl SMap.erase s.bus.staged := by
  unfold State.discardPage
  rw [State.foldl_unstage]
  dsimp only
  split <;> rfl

theorem State.discardPage_regs (s : State) (p : PageId) : (s.discardPage p).bus.regs = s.bus.regs := by
  unfold State.discardPage
  rw [State.foldl_unstage]
  dsimp only
  split <;> rfl

theorem State.discardPage_mapStaged (s : State) {p : PageId} (hp : p.kind = .route) :
    (s.discardPage p).lk.mapStaged = [] := by simp [State.discardPage, hp]

theorem State.discardPage_commitOf (s : State) (p : PageId) :
    ((s.discardPage p).commitOf p).waiting = false ∧ ((s.discardPage p).commitOf p).last = 3 := by
  simp only [State.discardPage, State.commitOf_setCommit, and_self]

/-- No key of a discarded page is listed as staged. -/
theorem State.not_mem_staged_discardPage (s : State) {p : PageId} {k : Nat} (hlo : p.base ≤ k)
    (hhi : k < p.base + 0x1000) : k ∉ (s.discardPage p).bus.staged.keys := by
  rw [State.discardPage_staged, SMap.mem_keys_foldl_erase]
  rintro ⟨hk, hnot⟩
  exact hnot (List.mem_filter.2 ⟨hk, by simp [hlo, hhi]⟩)

theorem State.discardPage_stagedKeys (s : State) (p : PageId) : (s.discardPage p).stagedKeys p = [] := by
  refine List.filter_eq_nil_iff.2 fun k hk hin => ?_
  obtain ⟨hlo, hhi⟩ := of_decide_eq_true hin
  exact s.not_mem_staged_discardPage hlo hhi hk

theorem State.discardPage_stagedOf (s : State) {p : PageId} {k : Nat} (hlo : p.base ≤ k) (hhi : k < p.base + 0x1000) :
    (s.discardPage p).stagedOf k = none := SMap.get_of_not_mem_keys (s.not_mem_staged_discardPage hlo hhi)

theorem execStageCommit_of_openWrite {s : State} {f : Fn} {page : BitVec 14} {x : Target} {r : RegSpec}
    (h : s.openWrite f (page.toNat * 0x1000 + 0x20) 4 1 = .ok (x, r)) :
    execStageCommit f page s = .next (s.commitPage f x.page) := by simp only [execStageCommit, h]

theorem execStageDiscard_of_openWrite {s : State} {f : Fn} {page : BitVec 14} {x : Target} {r : RegSpec}
    (h : s.openWrite f (page.toNat * 0x1000 + 0x20) 4 2 = .ok (x, r)) :
    execStageDiscard f page s = .next (s.discardPage x.page) := by simp only [execStageDiscard, h]

end Sys2Proof.Machine

end

section

open Sys2Proof Sys2Proof.Machine

/-- Settles O38: a write to a waiting group finds the group closed on each of its ways through the register block, a
commit finds the page waiting, and a discard takes every key of the page off the staged values. -/
theorem waitingCommits : Obligations.WaitingCommits := by
  refine ⟨fun f o v x r s h hr hv hw hg => ?_, fun f page x r s h hw => ?_, fun f page x r s h _ => ?_⟩
  · exact ⟨_, execRegisterWrite_w32 h, State.writeAct_of_groupWaits ⟨hw, hg⟩ (spec_of_openWrite h) hr hv⟩
  · exact ⟨_, execStageCommit_of_openWrite h, State.commitPage_of_waiting hw f⟩
  · obtain ⟨hwait, hlast⟩ := s.discardPage_commitOf x.page
    exact ⟨_, execStageDiscard_of_openWrite h, s.discardPage_stagedKeys x.page,
      fun k hlo hhi => s.discardPage_stagedOf hlo hhi, s.discardPage_mapStaged, hwait, hlast,
      s.discardPage_regs x.page⟩

end
